-- ==== Sys2Proof/Word.lean ====
section
/-!
DEFINITION. The word types of the LN7 model. Registers and memory bytes are bit vectors; addresses, counts and
field values are natural numbers, taken apart with the helpers of Machine/Bits.lean.
-/
namespace Sys2Proof

/-- A register value (registers are 32 or 64 bits wide, R11; a 32-bit register uses the low half). -/
abbrev Word := BitVec 64

/-- One byte of memory (R5). -/
abbrev Byte := BitVec 8

end Sys2Proof
end

