-- ==== Sys2Proof/Syntax.lean ====
section
/-!
DEFINITION. The commands of the block: one constructor of `Instr` per row of spec/opcode_table.json, those without
operands last. An operand is what the command's sender supplies: unit numbers, the fields of an
instruction, values written, data read from outside the block, and quantities measured outside it (voltages, temperatures,
arrival times).
-/
namespace Sys2Proof

/-- What the monitors and sensors of one die show over one 1 µs window (R27, R34): the five monitor counts, VCORE at the
sense point (lowest of the window), junction temperature (lowest and highest) and stack temperature, in 0.25 °C. -/
structure DieMeas where
  mon : List Nat
  vcore : Nat
  tjLo : Int
  tjHi : Int
  tstack : Int
deriving DecidableEq, Repr

/-- The fields of a vector instruction (Table 7.1) but for CLASS and OP, which say which row the word belongs to. -/
structure VIns where
  vd : Nat
  va : Nat
  vb : Nat
  vc : Nat
  mask : Nat
  mz : Bool
  fmt : Nat
  cvt : Nat
  imm : Nat
deriving DecidableEq, Repr

/-- How a memory read or write turns out at its medium (13): checked clean; corrected; uncorrectable; CRC failed; failed
under R273 with its cause (0 retries, 1 unsuccessful completion, 2 timeout, 3 link down); done after some link-level retries;
held longest by a reason of Table 8.6 (2 refresh, 4 far link); an error that the check does not see, counted as a corrected one or
not (R280); an SRAM error of one bit, or of two in a line that is clean or newer than memory (R282); for a sector of a host-bias page,
the bytes that the host answers (R305). -/
inductive MemRes where
  | ok | corrected | uncorrectable | crc | failed (cause : Nat) | retried (n : Nat) | held (reason : Nat) | wrong (counted : Bool)
  | sramFixed | sramClean | sramDirty (word : Nat) | host (bytes : List Nat)
deriving DecidableEq, Repr

/-- How the sectors that a command reaches turn out, by physical address; a sector not listed checks clean. -/
abbrev Sectors := List (Nat × MemRes)

/-- What the compiled image gives a task at its start (R126, R169, R178): engine control words, stroke images (channel,
64-byte header, instructions), initial token values. -/
structure TaskImage where
  ctl : List Nat
  strokes : List (List Nat × List Nat)
  tokens : List Nat
deriving DecidableEq, Repr

/-- Where a CXL request is on its way from: a channel of a tile, of which it is the oldest; a die, as a write to a host line through a port;
a write to a host-bias page. With it goes a number: the channel, or the address of the line or the sector. -/
inductive CxlReq where
  | chan (t : Nat) | line (die port : Nat) | bias
deriving DecidableEq, Repr

/-- An answer to a Translation Request (R330): error, or a translation with page size and rights. -/
structure XAns where
  error : Bool
  ppage : Nat
  size : Nat
  global : Bool
  rd : Bool
  wr : Bool
  untrans : Bool
deriving DecidableEq, Repr

/-- The host's answer for one 4 KiB page of a queue's PASID: the translation, and after a page request the cause of Table
15.4 with which it failed (0: none). -/
structure HostPage where
  page : Nat
  ans : XAns
  prg : Nat
deriving DecidableEq, Repr

/-- Host memory as a command of a shared unit finds it: runs of bytes by virtual address, translations, lines whose read or write failed,
with the cause of R273, and how the sectors of device memory turn out. -/
structure HostView where
  bytes : List (Nat × List Nat)
  pages : List HostPage
  bad : List (Nat × Nat)
  ecc : Sectors := []
deriving DecidableEq, Repr

/-- A received Quill packet (Tables 18.2, 18.4, 18.5) and what the port found of it: whether it is at least 48 bytes of VER 1,
DST_DEV, destination flow, SRC_DEV, FLAGS, PSN, OPID, TXSEQ, whether its tag verifies, whether a reserved field is set or its
type reserved, whether LEN fits its contents, whether it carries a CE mark, whether staging has no room for it, its pace
notice (cause, pace), the fields of its type in their order, its data, and how the sectors of memory it reaches turn out. -/
structure RxPacket where
  whole : Bool
  dst : Nat
  flow : Nat
  src : Nat
  flags : Nat
  psn : Nat
  opid : Nat
  txseq : Nat
  tagOk : Bool
  reserved : Bool
  lenOk : Bool
  ce : Bool
  noRoom : Bool
  pace : Nat × Nat
  fields : List Nat
  data : List Nat
  ecc : Sectors := []
deriving DecidableEq, Repr

/-- A failure the tests found (Table 19.11): UNIT, DIE, NUMBER, CAUSE, ADDR. -/
structure FailEntry where
  unit : Nat
  die : Nat
  num : Nat
  cause : Nat
  addr : Nat
deriving DecidableEq, Repr

/-- A DDR channel as its memory nib finds it (R274): whether a module answers, type (1 RDIMM, 2 MRDIMM, 3 other), subchannels of the
width of R274, ranks, capacity in GiB, serial number of its SPD, and whether training passed. -/
structure DdrModule where
  present : Bool
  kind : Nat
  ecc : Bool
  ranks : Nat
  gib : Nat
  serial : Nat
  trained : Bool
deriving DecidableEq, Repr

/-- The commands. A pair as an operand is a row's operand and, with it, how the memory that the command reaches turns out. -/
inductive Instr where
  -- BAR0 accesses: CXL port, offset, size in bytes, value
  | registerWrite (port off size value : Nat)
  | rcRegisterRead (port off size : Nat)
  | splitRegisterAccess (port off : Nat) (write : Option Nat)
  -- pace and TIME
  | paceWindowEnd (meas : List DieMeas)
  | vcoreAdjust (die mv : Nat)
  | paceTimeStepWrite (port value : Nat)
  | paceTimeRateWrite (port value : Nat)
  | ptpMessageReceive (eport sub kind : Nat) (offset stepNs ratePpb : Int)
  -- folio
  | folioFetchDone (data : Option (List Nat))
  | folioApplyFail (rollbackFails : Bool)
  | reconfApplyFail (restoreFails : Bool)
  | unitRetire (unit num : Nat)
  | folioCommitWritten (readBack : Bool)
  | zeroingComplete (base : Nat)
  -- matrix engine: tile, engine
  | engineStep (t e bank : Nat) (clr : Bool) (image : Option Nat) (wrong : List (Nat × Int × Int))
  | bankDrain (t e bank : Nat) (parity : Option Nat)
  | chkTestWrite (port t e value : Nat)
  -- boundary marks: tile; the scratch ranges live at a yield point
  | layer (t : Nat) (ctl : List Nat)
  | yield (t : Nat) (live : List (Nat × Nat))
  | semAcq (t sem holdNs : Nat) (live : List (Nat × Nat))
  | semRel (t sem : Nat)
  -- vector unit: tile, instruction word (Table 7.1)
  | vadd (t w : Nat)
  | vsub (t w : Nat)
  | vmul (t w : Nat)
  | vfma (t w : Nat)
  | vfms (t w : Nat)
  | vmin (t w : Nat)
  | vmax (t w : Nat)
  | vabs (t w : Nat)
  | vneg (t w : Nat)
  | vand (t w : Nat)
  | vor (t w : Nat)
  | vxor (t w : Nat)
  | vshl (t w : Nat)
  | vshr (t w : Nat)
  | vexp (t w : Nat)
  | vlog (t w : Nat)
  | vrcp (t w : Nat)
  | vrsqrt (t w : Nat)
  | vtanh (t w : Nat)
  | vsig (t w : Nat)
  | vmov (t w : Nat)
  | vlane (t w : Nat)
  | sset (t w : Nat)
  | rep (t w : Nat)
  | vectorNop (t w : Nat)
  | vcvt (t w : Nat)
  | vpack (t w : Nat)
  | vunpk (t w : Nat)
  | vcmpeq (t w : Nat)
  | vcmplt (t w : Nat)
  | vcmple (t w : Nat)
  | vcmpun (t w : Nat)
  | mand (t w : Nat)
  | mor (t w : Nat)
  | mxor (t w : Nat)
  | mnot (t w : Nat)
  | mcnt (t w : Nat)
  | vsel (t w : Nat)
  | compress (t w : Nat)
  | expand (t w : Nat)
  | pushn (t w : Nat)
  | gather (t w : Nat)
  | aclaim (t w : Nat)
  | bankClaimGrant (t : Nat)
  | arelease (t w : Nat)
  | ardf (t w : Nat) (parity : Option Nat)
  | ardr (t w : Nat) (parity : Option Nat)
  | asave (t w : Nat) (parity : Option Nat)
  | aload (t w : Nat)
  | sinit (t w : Nat)
  | sins (t w : Nat)
  | sout (t w : Nat)
  | smerge (t w : Nat)
  | mergeUnitTaken (die queue seq : Nat)
  | mergeComplete (die queue seq : Nat)
  -- strokes: tile, channel (the instruction is the one at the channel's PC)
  | seta (t c : Nat)
  | adda (t c : Nat)
  | loop (t c : Nat)
  | move (t c : Nat)
  | moveRequestComplete (t c : Nat) (res : MemRes) (hostData : List Nat)
  | emit (t : Nat) (at' : Nat × MemRes)
  | take (t c : Nat)
  | waitt (t c : Nat)
  | tokenWaitSatisfied (t c : Nat)
  | sigt (t c : Nat)
  | sigtTakeEffect (t c : Nat)
  | flip (t c : Nat)
  | endStroke (t c : Nat)
  | clusterCacheFill (cluster line : Nat) (res res2 : MemRes)
  -- table engines
  | lookup (queue : Nat) (going : Option Nat) (host : HostView)
  | rowFetchComplete (queue seq pass row : Nat) (ecc : Sectors)
  | passComplete (queue seq pass : Nat) (host : HostView)
  | teMapInvalWrite (port value : Nat)
  | agingSweep (die table : Nat)
  -- updates
  | update (queue : Nat) (going : Option Nat) (host : HostView)
  | sgd (queue seq pass row : Nat) (ecc : Sectors)
  | rwAdagrad (queue seq pass row : Nat) (ecc : Sectors)
  | adam (queue seq pass row : Nat) (ecc : Sectors)
  | stepAdvance (queue seq : Nat)
  | epochFlip (queue seq pass : Nat)
  | epochCatchupStart (table : Nat)
  | migrationTake (die table row slot : Nat)
  | migrationFlip (die table row : Nat)
  | migrationAbandon (die table row : Nat)
  | migrationComplete (die table row : Nat)
  -- memory-side reduction
  | reduce (queue : Nat) (host : HostView)
  | redAdd (queue seq entry elem : Nat) (host : HostView) (ecc : Sectors)
  | redMin (queue seq entry elem : Nat) (host : HostView) (ecc : Sectors)
  | redMax (queue seq entry elem : Nat) (host : HostView) (ecc : Sectors)
  | redCas (queue seq entry elem : Nat) (host : HostView) (ecc : Sectors)
  | epochClose (queue : Nat) (seq : Nat × Sectors)
  -- sessions
  | session (queue : Nat) (host : HostView)
  | sesFind (queue seq entry : Nat) (host : HostView) (ecc : Sectors)
  | sesInsert (queue seq entry : Nat) (host : HostView) (ecc : Sectors)
  | sesDelete (queue seq entry : Nat) (host : HostView) (ecc : Sectors)
  | sesTouch (queue seq entry : Nat) (host : HostView) (ecc : Sectors)
  | sesAppend (queue seq entry : Nat) (host : HostView) (ecc : Sectors)
  | sesWrite (queue seq entry : Nat) (host : HostView) (ecc : Sectors)
  | sesRead (queue seq entry : Nat) (host : HostView) (ecc : Sectors)
  | sessionResolve (queue seq : Nat) (ecc : Sectors)
  | sessionSweep (die slot : Nat)
  -- regulators and tiers
  | cxlRequestTimeout (req : CxlReq) (n : Nat)
  | t3WindowWrite (port window : Nat) (target : Bool) (value : Nat)
  | windowLayerRelease (queue seq layer : Nat)
  -- integrity and heat
  | replicaReadComplete (addr : Nat) (ok : Bool) (stallNs : Nat)
  | scrubPatrol (die addr : Nat) (res : MemRes)
  -- die; DDR or stack; bank, and row in it; the sectors of the row; whether the DDR module reports a repair left
  | rowSpareRemap (die : Nat) (ddr : Bool) (dbank row : Nat) (sectors : List Nat) (repair : Bool)
  | stackTempSample (die : Nat) (tstack : Int)
  -- host link
  | hostLinkUp (port mode speed width : Nat)
  | hostLinkDown (port : Nat)
  | hostPortSwitch (die port : Nat)
  | hdmDecoderCommit (port dec base ways : Nat)
  | hostMemRead (port addr : Nat) (res : MemRes)
  | hostMemWrite (port addr : Nat) (data : List Nat × MemRes)
  | bar4Read (port off len : Nat) (ecc : Sectors)
  | bar4Write (port off : Nat) (data : List Nat × Sectors)
  | birspReceive (port addr : Nat)
  | hostSnoop (port addr : Nat) (kind : Nat × MemRes)
  | hostWriteGo (die port addr : Nat)
  | biasFlip (port pages : Nat)
  -- fence and record
  | fenceComplete (queue seq : Nat)
  | completionRecordWrite (queue seq : Nat) (written : Bool)
  | msixSend (port vector : Nat)
  | msixUnmask (port vector : Nat)
  -- translation
  | atsTranslationCompletion (die page : Nat) (pasid : Option Nat) (ans : XAns)
  | atsInvalidationRequest (port tag : Nat) (pasid : Option Nat) (page size : Nat)
  | invalidationCompletionSend (port : Nat)
  | xlatFlush (port value : Nat)
  | prgResponse (port page : Nat) (pasid : Option Nat) (code : Nat)
  | prgTimeout (port page : Nat) (pasid : Option Nat)
  -- queues
  | doorbell (port queue value : Nat)
  | deviceDoorbell (queue tail t : Nat)
  | cqHeadWrite (port queue value : Nat)
  | entryFetch (queue : Nat) (data : Option (List Nat))
  | staleReread (queue : Nat) (data : Option (List Nat))
  | launch (queue : Nat) (marksOk : Bool) (budgets : List (Nat × Nat)) (posts : List (Nat × Nat × Nat)) (lookup : Option Nat)
  | nop (queue : Nat)
  | queueCreate (ctx : Option (List Nat))
  | queueDrainComplete (queue : Nat)
  | handleCommit (port value : Nat)
  | admqCtrlWrite (port value : Nat)
  -- scheduling
  | taskStart (t : Nat) (img : TaskImage)
  | modelLoadComplete (part model cluster layer : Nat) (whole : Bool × Sectors)
  | timesliceExpiry (queue seq : Nat)
  | saveComplete (queue seq : Nat)
  | restoreComplete (queue seq : Nat)
  | yieldLate (queue seq lateNs : Nat)
  | wcetWatchdogExpiry (queue seq clock : Nat)
  | semHoldOverrun (part sem : Nat)
  -- accounting
  | acctSelWrite (port value : Nat)
  | acctMdlSelWrite (port value : Nat)
  | acctClear (port value : Nat)
  -- fabric: links and received packets
  | fabricLinkUp (eport sub mode : Nat)
  | fabricLinkDown (eport sub : Nat)
  | frameReceive (eport sub kind : Nat) (fields : List Nat)
  | quillPut (eport : Nat) (p : RxPacket)
  | getReq (eport : Nat) (p : RxPacket)
  | getResp (eport : Nat) (p : RxPacket) (host : HostView)
  | atomicRx (eport : Nat) (p : RxPacket)
  | coll (eport : Nat) (p : RxPacket) (host : HostView)
  | ack (eport : Nat) (p : RxPacket)
  | nak (eport : Nat) (p : RxPacket)
  | abortRx (eport : Nat) (p : RxPacket)
  | ackDelayTimer (flow : Nat)
  | retransmitTimeout (flow psn : Nat)
  | flowProgressTimeout (flow : Nat)
  | nakRetryTimer (flow psn : Nat)
  | keyRetireTimer (flow : Nat)
  -- fabric: commands and posts
  | flowOpen (port : Nat)
  | flowClose (port : Nat)
  | flowReset (port : Nat)
  | rxNext (port : Nat)
  | switchTx (port : Nat)
  | groupDefine (port value : Nat)
  | postWordWrite (queue seq task tail : Nat)
  | put (queue seq task : Nat) (host : HostView)
  | get (queue seq task : Nat) (host : HostView)
  | atomicAdd (queue seq task : Nat) (host : HostView)
  | allReduce (queue seq task : Nat) (host : HostView)
  | allToAll (queue seq task : Nat) (host : HostView)
  | allGather (queue seq task : Nat) (host : HostView)
  | mcastPut (queue seq task : Nat) (host : HostView)
  | quillOperationComplete (op : Nat)
  -- start: the DDR channels as found; the host memory that a request or image is read from (empty where the read fails)
  | trainingComplete (mods : List DdrModule)
  | startTestComplete (fails : List FailEntry)
  | nibOwnerSet (port value : Nat) (data : List Nat)
  | nibBfwInstall (port value : Nat) (data : List Nat)
  -- SPDM: function, and the request's fields
  | getVersion (port : Nat)
  | getCapabilities (port : Nat)
  | negotiateAlgorithms (port : Nat)
  | getDigests (port : Nat)
  | getCertificate (port off len : Nat)
  | challenge (port nonce summary : Nat)
  | getMeasurements (port index : Nat) (signed : Bool) (nonce : Nat)
  | spdmUnsupportedRequest (port code : Nat)
  -- shutdown
  | shutdownOff (port value : Nat)
  | shutdownTest (port value : Nat)
  -- the failures found, lowest VCORE and hottest junction seen while testing
  | bistPauseLimit (die : Nat) (fails : List FailEntry) (vmin : Nat) (tjMax : Int)
  | bistComplete (fails : List FailEntry) (vmin : Nat) (tjMax : Int)
  -- faults
  | blotRingEnable (port ring : Nat)
  | fltHeadWrite (port ring value : Nat)
  | fltOvfClear (port value : Nat)
  | probeSampleDue (t : Nat)
  | probeIdleTimer (t : Nat)
  | idleUnitProbe (die : Nat)
  | fltProbeCmd (port value : Nat)
  | probeComplete (kind num failed : Nat)
  | suspectStageComplete (die failed : Nat)
  -- pins
  | perstAssert (port : Nat)
  | perstRelease (port : Nat)
  | thermtrip (die : Nat)
  -- late rows
  | epochCatchupComplete (table : Nat)
  | bfwInstallComplete (ok : Bool)
  | atsPriEnable (port : Nat) (ats pasid pri : Bool)
  -- commands without operands, of every family
  | timeSlewComplete
  | ptpHoldoverTimeout
  | refclkLost
  | refclkResume
  | folioLoad
  | folioQuiesceDone
  | folioProgramDone
  | partReconf
  | drainLimitExpiry
  | partitionQuiesced
  | reconfApplyDone
  | folioRepair
  | folioCommit
  | regulatorRefill
  | biasFlipComplete
  | hostBiasFlush
  | xlatFlushComplete
  | queueDestroy
  | htabBind
  | htabUnbind
  | powerOnStart
  | bootFirmwareStart
  | bootLeadTimeout
  | startDone
  | t2ZeroingComplete
  | shutdownQuiesced
  | shutdownFlushed
  | readyForOff
  | heartbeatWrite
  | heartbeatTimeout
  | resetAssert
  | ownerSetComplete
deriving DecidableEq, Repr

end Sys2Proof
end

