-- ==== Sys2Proof/Config.lean ====
section
/-!
DEFINITION. What one part fixes and what the manual leaves open. Every constant here is opaque: no proof can see its
value, so a statement about the machine holds whatever it is. The log entry of each is named in its docstring.
-/
namespace Sys2Proof.Config

/-- The grade fuse: true for grade E, false for grade A (R2, Table 0.2). Log entry 2. -/
opaque gradeE : Bool

/-- The device serial number (R25). Log entry 2. -/
opaque serialBits : BitVec 64

/-- The serial number as a number. -/
def serial : Nat := serialBits.toNat

/-- A free value: the `n`-th open choice of a run (log entry 3). Nothing constrains it. -/
opaque freeValue : Nat → Nat

/-- SHA-384 (FIPS 180-4) of a byte string: uninterpreted (log entry 4). -/
opaque sha384Bits : List Nat → BitVec 384

/-- The digest as a 384-bit number. -/
def sha384 (l : List Nat) : Nat := (sha384Bits l).toNat

/-- ECDSA P-384 verification of a signature over a byte string under the public key whose SHA-384 is `keyId` (R52):
uninterpreted (log entry 4). -/
opaque ecdsaVerify : (keyId : Nat) → (message : List Nat) → (signature : Nat) → Bool

/-- The SHA-384 of the device identity key's public half (R25): uninterpreted (log entry 4). -/
opaque identityKeyBits : BitVec 384

/-- It as a number. -/
def identityKeyId : Nat := identityKeyBits.toNat

/-- An ECDSA P-384 signature by the identity key over a byte string (R446, R451): uninterpreted (log entry 4). -/
opaque identitySignBits : List Nat → BitVec 768

/-- The signature as a number. -/
def identitySign (l : List Nat) : Nat := (identitySignBits l).toNat

/-- Where within two units in the last place the result of a transcendental opcode lies for an FP32 input (R153): a free
value (log entry 25). -/
opaque transUlp : (op input : Nat) → Nat

/-- The running CRC-64 of R468, whose polynomial the manual does not give (log entry 5). -/
opaque crc64 : (running : Nat) → List Nat → Nat

/-- The SHA-384 of the boot key that the fuses hold (R436): uninterpreted (log entry 4). -/
opaque bootKeyId : Nat

/-- The boot firmware with which the board's flash is delivered (log entry 2). -/
opaque bootImage : List Nat

/-- SHA-384 of the ROM code, measurement 1 (log entry 4). -/
opaque romDigest : Nat

/-- The certificate chain of the identity key, in flash (Table 19.1): uninterpreted (log entry 4). -/
opaque certChain : List Nat

/-- CAUSE of a unit retired by a failure entry, BIST_FAIL: the manual gives the code no number (log entry 42). -/
opaque bistFail : Nat

/-- The layers that a compiled image records, in their order: offset in the image and bytes (R266, R267). The manual does not give the
form of that record (log entry 133). -/
opaque imageLayers : List Nat → List (Nat × Nat)

/-- Significant bits, less one, that the checksum slice keeps of a tolerance when it evaluates it with upward rounding, which the
manual does not state (R122). Log entry 210. -/
opaque tauBits : Nat

/-- Bank and row of a DRAM sector, whose geometry the manual does not give (log entry 33). -/
opaque rowOf : (addr : Nat) → Nat × Nat

end Sys2Proof.Config
end

