-- ==== Sys2Proof/Machine/Bits.lean ====
section
/-!
DEFINITION. Bit fields, little-endian byte strings (R5), saturating counters (R13), signed readings, and the CRC-16
of R346.
-/
namespace Sys2Proof.Machine

/-- Bits [hi:lo] of `v`, as a number. -/
def bits (v hi lo : Nat) : Nat := (v >>> lo) % 2 ^ (hi + 1 - lo)

/-- Bit `i` of `v` as a truth value. -/
def bit (v i : Nat) : Bool := v.testBit i

/-- 1 for true, 0 for false. -/
def b2n (b : Bool) : Nat := if b then 1 else 0

/-- The low `w` bits of `v`. -/
def trunc (w v : Nat) : Nat := v % 2 ^ w

/-- `v` with the bits of `mask` replaced by those of `x`. -/
def blend (v x mask : Nat) : Nat := (v &&& (v ^^^ mask)) ||| (x &&& mask)

/-- A mask of ones at [hi:lo]. -/
def ones (hi lo : Nat) : Nat := (2 ^ (hi + 1 - lo) - 1) <<< lo

/-- `v` with field [hi:lo] set to `x` (cut to the field). -/
def setBits (v hi lo x : Nat) : Nat := blend v ((x % 2 ^ (hi + 1 - lo)) <<< lo) (ones hi lo)

/-- `v` with bit `i` set to `b`. -/
def setBit (v i : Nat) (b : Bool) : Nat := setBits v i i (b2n b)

/-- Two's complement reading of the low `w` bits. -/
def signed (w v : Nat) : Int :=
  let x := trunc w v
  if 2 * x < 2 ^ w then (x : Int) else (x : Int) - (2 ^ w : Nat)

/-- The low `w` bits of an integer, two's complement. -/
def ofInt (w : Nat) (z : Int) : Nat := (z % (2 ^ w : Nat)).toNat

/-- A saturating counter of `w` bits (R13). -/
def satAdd (w a n : Nat) : Nat := min (a + n) (2 ^ w - 1)

/-- `k` bytes of `v`, little-endian (R5). -/
def bytesOf : Nat → Nat → List Byte
  | 0, _ => []
  | k + 1, v => BitVec.ofNat 8 v :: bytesOf k (v / 256)

/-- The number a little-endian byte string stands for (R5). -/
def ofBytes : List Byte → Nat
  | [] => 0
  | b :: bs => b.toNat + 256 * ofBytes bs

/-- The numbers 0 … n-1. -/
def upto (n : Nat) : List Nat := List.range n

/-- The indices of the set bits of `v` below `n`, rising. -/
def bitList (n v : Nat) : List Nat := (upto n).filter (fun i => v.testBit i)

/-- Population count of the low `n` bits. -/
def popCount (n v : Nat) : Nat := (bitList n v).length

/-- Sum of a list. -/
def sumN (l : List Nat) : Nat := l.foldl (· + ·) 0

/-- Element `i` of a list, or `d`. -/
def nth {α : Type} (l : List α) (i : Nat) (d : α) : α := l.getD i d

/-- `l` with element `i` replaced by `f` of it. -/
def updAt {α : Type} (l : List α) (i : Nat) (f : α → α) : List α := l.modify i f

/-- One bit of the CRC-16 of R346: polynomial 0x1021, most significant bit first. -/
def crc16Bit (crc : Nat) (b : Bool) : Nat :=
  let top := crc.testBit 15
  let sh := (crc * 2) % 65536
  if top != b then sh ^^^ 0x1021 else sh

/-- One byte of the CRC-16. -/
def crc16Byte (crc : Nat) (b : Byte) : Nat :=
  [7, 6, 5, 4, 3, 2, 1, 0].foldl (fun c i => crc16Bit c (b.toNat.testBit i)) crc

/-- CRC-16 of a byte string: polynomial 0x1021, start value 0xFFFF (R346). -/
def crc16 (l : List Byte) : Nat := l.foldl crc16Byte 0xFFFF

/-- A string of (value, size in bytes) fields packed without padding (R455) and zero-filled to `n` bytes. -/
def packFields (n : Nat) (fs : List (Nat × Nat)) : List Byte :=
  let l := (fs.map (fun f => bytesOf f.2 f.1)).flatten
  (l ++ List.replicate (n - l.length) 0).take n

/-- `v` raised to the next multiple of `a`. -/
def alignUp (v a : Nat) : Nat := (v + a - 1) / a * a

/-- Whether `v` is a multiple of `a`. -/
def aligned (v a : Nat) : Bool := v % a == 0

end Sys2Proof.Machine
end

