-- ==== Sys2Proof/Machine/Num.lean ====
section
/-!
DEFINITION. The number formats of 04_number_formats: encodings (R76-R81), conversions with their flags (R85-R89),
stochastic rounding (R91) and the exact arithmetic that one rounding is applied to.
-/
namespace Sys2Proof.Machine

/-- A number as a unit sees it: a NaN with its sign and its payload left-aligned in 51 bits (the payload is the
mantissa below its most significant bit, R78), an infinity, or the finite value (-1)^sign × mant × 2^exp. -/
inductive NumVal where
  | nan (sign : Bool) (pay : Nat)
  | inf (sign : Bool)
  | fin (sign : Bool) (mant : Nat) (exp : Int)
deriving DecidableEq, Repr

/-- Positive zero. -/
def NumVal.zero : NumVal := .fin false 0 0

/-- The canonical NaN of Table 4.3 (no payload). -/
def NumVal.qnan : NumVal := .nan false 0

/-- Sign of a number. -/
def NumVal.sgn : NumVal → Bool
  | .nan s _ => s
  | .inf s => s
  | .fin s _ _ => s

/-- Whether the number is a NaN. -/
def NumVal.isNan : NumVal → Bool
  | .nan _ _ => true
  | _ => false

/-- Whether the number is zero. -/
def NumVal.isZero : NumVal → Bool
  | .fin _ 0 _ => true
  | _ => false

/-- The number with its sign flipped when `b`. -/
def NumVal.flip (b : Bool) : NumVal → NumVal
  | .nan s p => .nan (s != b) p
  | .inf s => .inf (s != b)
  | .fin s m e => .fin (s != b) m e

/-- Storage bits per element by format code (Table 4.1). -/
def fmtBits (f : Nat) : Nat :=
  nth [64, 32, 16, 16, 8, 8, 6, 6, 4, 16, 8, 8, 4, 32, 8, 128] f 8

/-- Bytes an element takes inside a tile (FP6 takes a whole byte, R75); 4-bit formats are packed two to a byte. -/
def fmtBytes (f : Nat) : Nat := (fmtBits f + 7) / 8

/-- Exponent bits, mantissa bits and bias of a floating-point format (Table 4.2). -/
def fmtParams (f : Nat) : Nat × Nat × Nat :=
  nth [(11, 52, 1023), (8, 23, 127), (5, 10, 15), (8, 7, 127), (4, 3, 7), (5, 2, 15), (3, 2, 3), (2, 3, 1), (2, 1, 1)]
    f (8, 23, 127)

/-- Whether `f` is one of the nine floating-point formats. -/
def isFloatFmt (f : Nat) : Bool := f < 9

/-- Whether the format has infinities (Table 4.2). -/
def fmtHasInf (f : Nat) : Bool := f < 4 || f == 5

/-- Whether the format has NaNs (Table 4.2). -/
def fmtHasNan (f : Nat) : Bool := f < 6

/-- Whether `f` is an integer format (Table 4.4). -/
def isIntFmt (f : Nat) : Bool := f == 9 || f == 10 || f == 11 || f == 12 || f == 13

/-- Number of significant bits of a natural number. -/
def bitLen (m : Nat) : Nat := if m = 0 then 0 else Nat.log2 m + 1

/-- Decoding of a floating-point element (R76, R77). -/
def decodeFloat (f v : Nat) : NumVal :=
  let (eb, mb, bias) := fmtParams f
  let s := v.testBit (eb + mb)
  let e := bits v (eb + mb - 1) mb
  let m := v % 2 ^ mb
  let top := 2 ^ eb - 1
  if fmtHasInf f && e == top then
    if m = 0 then .inf s else .nan s ((m % 2 ^ (mb - 1)) * 2 ^ (52 - mb))
  else if f == 4 && e == top && m == 7 then .nan s ((m % 2 ^ (mb - 1)) * 2 ^ (52 - mb))
  else if e = 0 then .fin s m (1 - (bias : Int) - mb)
  else .fin s (2 ^ mb + m) ((e : Int) - bias - mb)

/-- The integer `z` as a number. -/
def NumVal.ofInt (z : Int) : NumVal := .fin (decide (z < 0)) z.natAbs 0

/-- Decoding of an element of any element format (R76, R80, R81). -/
def decodeNum (f v : Nat) : NumVal :=
  if isFloatFmt f then decodeFloat f v
  else if f == 11 then .fin false (v % 256) 0
  else if f == 14 then (if v % 256 = 255 then NumVal.qnan else .fin false 1 ((v % 256 : Nat) - 127))
  else NumVal.ofInt (signed (fmtBits f) v)

/-- The outcome of a conversion: the encoding, the flags of R89, and whether a saturation is counted. -/
structure Cvt where
  val : Nat
  ovf : Bool := false
  unf : Bool := false
  inv : Bool := false
  sat : Bool := false
deriving DecidableEq, Repr

/-- The flag bits [4:0] of Table 5.11 that a conversion raises. -/
def Cvt.flags (c : Cvt) : Nat := b2n c.ovf + 2 * b2n c.unf + 8 * b2n c.inv

/-- Largest finite magnitude of a floating-point format as (integer, exponent) (Table 4.2). -/
def fmtMax (f : Nat) : Nat × Int :=
  let (eb, mb, bias) := fmtParams f
  if f == 4 then (14, 5)
  else if fmtHasInf f then (2 ^ (mb + 1) - 1, (2 ^ eb : Nat) - 2 - bias - mb)
  else (2 ^ (mb + 1) - 1, (2 ^ eb : Nat) - 1 - bias - mb)

/-- Whether m1 × 2^e1 < m2 × 2^e2. -/
def dyLt (m1 : Nat) (e1 : Int) (m2 : Nat) (e2 : Int) : Bool :=
  if e1 ≤ e2 then decide (m1 < m2 * 2 ^ (e2 - e1).toNat) else decide (m1 * 2 ^ (e1 - e2).toNat < m2)

/-- m / 2^k rounded to nearest, ties to even; the flag says the quotient was inexact. -/
def rneShift (m k : Nat) : Nat × Bool :=
  let q := m / 2 ^ k
  let r := m % 2 ^ k
  let half := 2 ^ k / 2
  if r = 0 then (q, false)
  else if r > half || (r == half && q % 2 == 1) then (q + 1, true)
  else (q, true)

/-- m / 2^k rounded by R91 with the 16-bit number `r`. -/
def stochShift (m k r : Nat) : Nat × Bool :=
  let q := m / 2 ^ k
  let rem := m % 2 ^ k
  if rem = 0 then (q, false)
  else (if rem * 65536 / 2 ^ k + r ≥ 65536 then q + 1 else q, true)

/-- The rounding rule in force: to nearest, or stochastic with the number r of R91. -/
inductive Rnd where
  | rne
  | stoch (r : Nat)
deriving DecidableEq, Repr

/-- Rounding of m × 2^e onto the grid of format `f` with the exponent unbounded above (R86 step 1): the multiple of the
spacing, the spacing's exponent, and whether it was inexact. -/
def roundGrid (f : Nat) (rnd : Rnd) (m : Nat) (e : Int) : Nat × Int × Bool :=
  let (_, mb, bias) := fmtParams f
  let lead : Int := e + bitLen m - 1
  let lsb : Int := max (lead - mb) (1 - (bias : Int) - mb)
  if lsb ≤ e then (m * 2 ^ (e - lsb).toNat, lsb, false)
  else
    let k := (lsb - e).toNat
    let (q, x) := match rnd with
      | .rne => rneShift m k
      | .stoch r => stochShift m k r
    (q, lsb, x)

/-- The encoding of sign, grid multiple and spacing, which must be within range. -/
def packFloat (f : Nat) (s : Bool) (q : Nat) (lsb : Int) : Nat :=
  let (eb, mb, bias) := fmtParams f
  let sb := b2n s * 2 ^ (eb + mb)
  if q = 0 then sb
  else if q < 2 ^ mb then sb + q
  else
    let (q, lsb) := if q < 2 ^ (mb + 1) then (q, lsb) else (q / 2, lsb + 1)
    sb + ((lsb + mb + bias).toNat) * 2 ^ mb + (q - 2 ^ mb)

/-- A NaN in format `f` (R77, R78); formats without NaN give +0 (R88). -/
def packNan (f : Nat) (s : Bool) (pay : Nat) : Nat :=
  let (eb, mb, _) := fmtParams f
  if f == 4 then 0x7F + b2n s * 0x80
  else b2n s * 2 ^ (eb + mb) + (2 ^ eb - 1) * 2 ^ mb + 2 ^ (mb - 1) + pay / 2 ^ (52 - mb)

/-- An infinity in a format that has one. -/
def packInf (f : Nat) (s : Bool) : Nat :=
  let (eb, mb, _) := fmtParams f
  b2n s * 2 ^ (eb + mb) + (2 ^ eb - 1) * 2 ^ mb

/-- The overflow result of Table 4.7 for a floating-point target; `ovfMode` is CVT_CTRL.OVF. -/
def overflowFloat (f : Nat) (ovfMode : Bool) (s : Bool) : Cvt :=
  let (mm, me) := fmtMax f
  let big := packFloat f s mm me
  if ovfMode && fmtHasInf f then { val := packInf f s, ovf := true }
  else if ovfMode && f == 4 then { val := packNan f s 0, ovf := true }
  else { val := big, ovf := true, sat := true }

/-- Range of an integer format (Table 4.4). -/
def intRange (f : Nat) : Int × Int :=
  if f == 11 then (0, 255) else (-(2 ^ (fmtBits f - 1) : Nat), (2 ^ (fmtBits f - 1) : Nat) - 1)

/-- Conversion of a number into a floating-point format (R86-R89, R91). -/
def cvtFloat (f : Nat) (ovfMode : Bool) (rnd : Rnd) : NumVal → Cvt
  | .nan s p => if fmtHasNan f then { val := packNan f s p } else { val := 0, inv := true }
  | .inf s => if fmtHasInf f then { val := packInf f s } else overflowFloat f ovfMode s
  | .fin s m e =>
    if m = 0 then { val := packFloat f s 0 0 }
    else
      let (q, lsb, x) := roundGrid f rnd m e
      let (mm, me) := fmtMax f
      let beyond := dyLt mm me q lsb || (f == 4 && rnd == .rne && !dyLt m e 464 0)
      if beyond then overflowFloat f ovfMode s
      else
        let (_, mb, _) := fmtParams f
        { val := packFloat f s q lsb, unf := q == 0 || (q < 2 ^ mb && x) }

/-- Conversion of a number into an integer format (R86-R89). -/
def cvtInt (f : Nat) : NumVal → Cvt
  | .nan _ _ => { val := 0, inv := true }
  | .inf s =>
    let (lo, hi) := intRange f
    { val := ofInt (fmtBits f) (if s then lo else hi), ovf := true, sat := true }
  | .fin s m e =>
    let mag : Nat := if 0 ≤ e then m * 2 ^ e.toNat else (rneShift m (-e).toNat).1
    let z : Int := if s then -(mag : Int) else mag
    let (lo, hi) := intRange f
    if z < lo then { val := ofInt (fmtBits f) lo, ovf := true, sat := true }
    else if hi < z then { val := ofInt (fmtBits f) hi, ovf := true, sat := true }
    else { val := ofInt (fmtBits f) z }

/-- A conversion into any element format. -/
def cvtNum (f : Nat) (ovfMode : Bool) (rnd : Rnd) (x : NumVal) : Cvt :=
  if isFloatFmt f then cvtFloat f ovfMode rnd x else cvtInt f x

/-- The 16-bit number r of R91 from the seed and the byte address of the destination element. -/
def stochNumber (seed addr : Nat) : Nat :=
  let m := 2 ^ 64
  let z := (seed + addr * 0x9E3779B97F4A7C15) % m
  let z := ((z ^^^ (z >>> 30)) * 0xBF58476D1CE4E5B9) % m
  let z := ((z ^^^ (z >>> 27)) * 0x94D049BB133111EB) % m
  let z := z ^^^ (z >>> 31)
  z % 65536

/-- The rounding rule of CVT_CTRL for a store to `addr` (Table 4.6). -/
def rndOf (cvtCtrl seed addr : Nat) : Rnd := if bit cvtCtrl 1 then .stoch (stochNumber seed addr) else .rne

/-- Exact sum of two finite values. Equal and opposite values give +0, and two zeros of one sign keep it. -/
def finAdd (s1 : Bool) (m1 : Nat) (e1 : Int) (s2 : Bool) (m2 : Nat) (e2 : Int) : NumVal :=
  let e := min e1 e2
  let a := m1 * 2 ^ (e1 - e).toNat
  let b := m2 * 2 ^ (e2 - e).toNat
  if s1 = s2 then .fin s1 (a + b) e
  else if a = b then .fin false 0 e
  else if b < a then .fin s1 (a - b) e
  else .fin s2 (b - a) e

/-- Exact sum, with NaNs and infinities as IEEE 754 and R78 have them; the flag is INVALID. -/
def NumVal.add (x y : NumVal) : NumVal × Bool :=
  match x, y with
  | .nan s p, _ => (.nan s p, false)
  | _, .nan s p => (.nan s p, false)
  | .inf a, .inf b => if a = b then (.inf a, false) else (NumVal.qnan, true)
  | .inf a, _ => (.inf a, false)
  | _, .inf b => (.inf b, false)
  | .fin s1 m1 e1, .fin s2 m2 e2 => (finAdd s1 m1 e1 s2 m2 e2, false)

/-- Exact product, with NaNs and infinities as IEEE 754 and R78 have them; the flag is INVALID. -/
def NumVal.mul (x y : NumVal) : NumVal × Bool :=
  match x, y with
  | .nan s p, _ => (.nan s p, false)
  | _, .nan s p => (.nan s p, false)
  | .inf a, .inf b => (.inf (a != b), false)
  | .inf a, .fin b m _ => if m = 0 then (NumVal.qnan, true) else (.inf (a != b), false)
  | .fin a m _, .inf b => if m = 0 then (NumVal.qnan, true) else (.inf (a != b), false)
  | .fin a m1 e1, .fin b m2 e2 => (.fin (a != b) (m1 * m2) (e1 + e2), false)

/-- Ordering of numbers that are not NaN: whether x < y (zeros of both signs are equal). -/
def NumVal.lt (x y : NumVal) : Bool :=
  match x, y with
  | .nan _ _, _ => false
  | _, .nan _ _ => false
  | .inf a, .inf b => a && !b
  | .inf a, _ => a
  | _, .inf b => !b
  | .fin s1 m1 e1, .fin s2 m2 e2 =>
    if m1 = 0 && m2 = 0 then false
    else if m1 = 0 then !s2
    else if m2 = 0 then s1
    else if s1 && !s2 then true
    else if !s1 && s2 then false
    else if s1 then dyLt m2 e2 m1 e1
    else dyLt m1 e1 m2 e2

/-- Equality of numbers that are not NaN. -/
def NumVal.eqv (x y : NumVal) : Bool := !x.isNan && !y.isNan && !NumVal.lt x y && !NumVal.lt y x

/-- The exact quotient of two finite values cut to 2^-`k` of its leading bit, with a remainder bit kept below it, so that
one later rounding to at most `k - 2` bits is that of the exact quotient. The divisor must not be zero. -/
def finDiv (k : Nat) (m1 : Nat) (e1 : Int) (m2 : Nat) (e2 : Int) : Nat × Int :=
  let sh := k + bitLen m2
  let n := m1 * 2 ^ sh
  (2 * (n / m2) + b2n (n % m2 != 0), e1 - e2 - sh - 1)

/-- Quotient with IEEE 754 special cases; the flag is INVALID. A finite nonzero value over zero is an infinity. -/
def NumVal.div (x y : NumVal) : NumVal × Bool :=
  match x, y with
  | .nan s p, _ => (.nan s p, false)
  | _, .nan s p => (.nan s p, false)
  | .inf _, .inf _ => (NumVal.qnan, true)
  | .inf a, .fin b _ _ => (.inf (a != b), false)
  | .fin a _ _, .inf b => (.fin (a != b) 0 0, false)
  | .fin a m1 e1, .fin b m2 e2 =>
    if m2 = 0 then (if m1 = 0 then (NumVal.qnan, true) else (.inf (a != b), false))
    else
      let (m, e) := finDiv 70 m1 e1 m2 e2
      (.fin (a != b) m e, false)

/-- Square root with IEEE 754 special cases, cut far below FP64 precision with a remainder bit; the flag is INVALID. -/
def NumVal.sqrt (x : NumVal) : NumVal × Bool :=
  match x with
  | .nan s p => (.nan s p, false)
  | .inf false => (.inf false, false)
  | .inf true => (NumVal.qnan, true)
  | .fin s m e =>
    if m = 0 then (.fin s 0 e, false)
    else if s then (NumVal.qnan, true)
    else
      let (m, e) := if e % 2 = 0 then (m, e) else (2 * m, e - 1)
      let n := m * 2 ^ 160
      let r := Nat.sqrt n
      (.fin false (2 * r + b2n (r * r != n)) (e / 2 - 81), false)

/-- One operation of an IEEE unit in format `f` (0 FP64, 1 FP32, 2 FP16, 3 BF16): the exact result rounded once to
nearest with IEEE overflow; the flags are those of Table 6.1. -/
def ieee (f : Nat) (r : NumVal × Bool) : Nat × Nat :=
  let c := cvtNum f true .rne r.1
  (c.val, c.flags ||| (8 * b2n r.2))

end Sys2Proof.Machine
end

