-- ==== Sys2Proof/Machine/Table.lean ====
section
/-!
DEFINITION. Sparse tables: a list of (key, value) pairs with strictly rising keys and no entry equal to what an
unlisted key reads as. Registers, memory bytes, tiles, queues and flows are all held this way.
-/
namespace Sys2Proof.Machine

/-- A sparse table over natural-number keys. -/
abbrev Tbl (α : Type) := List (Nat × α)

variable {α : Type}

/-- What key `k` reads as; `d` is what an unlisted key reads as. -/
def Tbl.get (d : α) : Tbl α → Nat → α
  | [], _ => d
  | (k', v) :: t, k => if k' = k then v else Tbl.get d t k

/-- The table without key `k`. -/
def Tbl.erase (t : Tbl α) (k : Nat) : Tbl α := t.filter (fun e => e.1 != k)

/-- The table with `(k, v)` in its place among rising keys, replacing an entry of `k`. -/
def Tbl.insert : Tbl α → Nat → α → Tbl α
  | [], k, v => [(k, v)]
  | (k', v') :: t, k, v =>
    if k < k' then (k, v) :: (k', v') :: t
    else if k = k' then (k, v) :: t
    else (k', v') :: Tbl.insert t k v

/-- Write `v` at `k`, keeping the canonical form: writing the unlisted value removes the entry. -/
def Tbl.set [DecidableEq α] (d : α) (t : Tbl α) (k : Nat) (v : α) : Tbl α :=
  if v = d then Tbl.erase t k else Tbl.insert t k v

/-- Apply `f` to the value at `k`. -/
def Tbl.upd [DecidableEq α] (d : α) (t : Tbl α) (k : Nat) (f : α → α) : Tbl α :=
  Tbl.set d t k (f (Tbl.get d t k))

/-- Keys strictly rising, all above `lo`. -/
def Tbl.risingFrom : Option Nat → Tbl α → Bool
  | _, [] => true
  | lo, (k, _) :: t => (match lo with | none => true | some l => decide (l < k)) && Tbl.risingFrom (some k) t

/-- The canonical form: rising keys, no entry equal to the unlisted value. -/
def Tbl.wf [DecidableEq α] (d : α) (t : Tbl α) : Bool :=
  Tbl.risingFrom none t && t.all (fun e => decide (e.2 ≠ d))

end Sys2Proof.Machine
end

