-- ==== Sys2Proof/Machine/Acc.lean ====
section
/-!
DEFINITION. The long accumulator (R94-R101), the products of the matrix engines (R92, R93) and the NaN payload of R132
to R134.
-/
namespace Sys2Proof.Machine

/-- The class of an accumulator (R98). -/
inductive AccCls where
  | finite | posInf | negInf | nan
deriving DecidableEq, Repr

/-- One long accumulator: for FINITE the 128-bit integer A; for NaN the 32-bit payload and the sign. -/
structure LAcc where
  cls : AccCls
  val : Int
  sticky : Bool
  pay : Nat
  sign : Bool
deriving DecidableEq, Repr

/-- A cleared accumulator. -/
def LAcc.clear : LAcc := ⟨.finite, 0, false, 0, false⟩

/-- One bank: 16 × 16 accumulators (index 16i + j), its anchor and its flags (R94, R117, R133). -/
structure Bank where
  acc : Tbl LAcc
  anchor : Option Nat
  inexact : Bool
  reanchor : Bool
  kgroup : Nat
deriving DecidableEq, Repr

/-- A cleared bank (R117). -/
def Bank.clear : Bank := ⟨[], none, false, false, 0⟩

/-- Accumulator `i` of a bank. -/
def Bank.get (b : Bank) (i : Nat) : LAcc := Tbl.get LAcc.clear b.acc i

/-- The bank with accumulator `i` replaced. -/
def Bank.put (b : Bank) (i : Nat) (a : LAcc) : Bank := { b with acc := Tbl.set LAcc.clear b.acc i a }

/-- Weight exponent of bit 0 of the window at an anchor (R94). -/
def winExp (anchor : Nat) : Int := 16 * (anchor : Int) - 2112

/-- The anchor of R95 for a largest product whose leading bit has exponent `e`. -/
def anchorOf (e : Int) : Nat := (min 255 (max 0 ((e + 2032) / 16))).toNat

/-- Causes of an invalid accumulation (Table 6.2), highest first in the table. -/
inductive NanCause where
  | zeroInf | nanOperand | oppInf
deriving DecidableEq, Repr

/-- The cause code of Table 6.2. -/
def NanCause.code : NanCause → Nat
  | .zeroInf => 1
  | .nanOperand => 3
  | .oppInf => 2

/-- The payload P of Table 6.3 for a cause and a group count (R134). -/
def nanPayload (c : NanCause) (kgroup : Nat) : Nat :=
  let l := bitLen kgroup
  let f := if l = 0 then 0 else (kgroup - 2 ^ (l - 1)) * 2 ^ (24 - l)
  c.code * 2 ^ 30 + l * 2 ^ 25 + f * 4

/-- What one product group brings to one accumulator: the exact sum of its finite products, which infinities came, and
the first NaN cause with its sign. -/
structure Contrib where
  sumZ : Int := 0
  sumE : Int := 0
  lead : Option Int := none   -- exponent of the leading bit of its largest finite product
  pInf : Bool := false
  nInf : Bool := false
  zeroInf : Option Bool := none
  nanOp : Option Bool := none
deriving DecidableEq, Repr

/-- Add an exact dyadic z × 2^e to a contribution's sum. -/
def Contrib.addDy (c : Contrib) (z : Int) (e : Int) : Contrib :=
  if z = 0 then c
  else if c.sumZ = 0 then { c with sumZ := z, sumE := e }
  else
    let m := min c.sumE e
    { c with sumZ := c.sumZ * 2 ^ (c.sumE - m).toNat + z * 2 ^ (e - m).toNat, sumE := m }

/-- The larger of an optional exponent and another. -/
def maxLead (l : Option Int) (e : Int) : Option Int :=
  match l with | none => some e | some x => some (max x e)

/-- The array's product of two finite elements of formats `fa`, `fb`: exact but for FP32 and FP64, which are cut under
R93 at 2^(L-32) or 2^(L-71), with the constant of Table 4.8 when `comp`. -/
def arrayProduct (fa : Nat) (comp : Bool) (m1 : Nat) (e1 : Int) (m2 : Nat) (e2 : Int) : Nat × Int :=
  if m1 = 0 || m2 = 0 then (0, 0)
  else if fa == 0 || fa == 1 then
    let cut : Int := if fa == 1 then 32 else 71
    let L : Int := (e1 + bitLen m1 - 1) + (e2 + bitLen m2 - 1)
    let w := L - cut
    let p := m1 * m2
    let e := e1 + e2
    let q := if w ≤ e then p * 2 ^ (e - w).toNat else p / 2 ^ (w - e).toNat
    if comp then (2 * q + 1, w - 1) else (2 * q, w - 1)
  else (m1 * m2, e1 + e2)

/-- One term a × b of a product group added to a contribution (R98, R132). A NaN made by a scale has sign 0
(`scaleNum`). -/
def Contrib.term (c : Contrib) (fa : Nat) (comp : Bool) (a b : NumVal) : Contrib :=
  match a, b with
  | .nan s _, _ => { c with nanOp := c.nanOp.or (some s) }
  | _, .nan s _ => { c with nanOp := c.nanOp.or (some s) }
  | .inf sa, .inf sb => if sa = sb then { c with pInf := true } else { c with nInf := true }
  | .inf sa, .fin sb m _ =>
    if m = 0 then { c with zeroInf := c.zeroInf.or (some (sa != sb)) }
    else if sa = sb then { c with pInf := true } else { c with nInf := true }
  | .fin sa m _, .inf sb =>
    if m = 0 then { c with zeroInf := c.zeroInf.or (some (sa != sb)) }
    else if sa = sb then { c with pInf := true } else { c with nInf := true }
  | .fin sa m1 e1, .fin sb m2 e2 =>
    let (m, e) := arrayProduct fa comp m1 e1 m2 e2
    if m = 0 then c
    else
      let c := c.addDy (if sa = sb then (m : Int) else -(m : Int)) e
      { c with lead := maxLead c.lead (e + bitLen m - 1) }

/-- Whether a column with this contribution is skipped by the checksum (R123). -/
def Contrib.nonfinite (c : Contrib) : Bool := c.pInf || c.nInf || c.zeroInf.isSome || c.nanOp.isSome

/-- The exact sum cut to the window at `anchor`, magnitude toward zero, and whether a nonzero part was dropped (R96). -/
def cutToWindow (z : Int) (e : Int) (anchor : Nat) : Int × Bool :=
  let w := winExp anchor
  if w ≤ e then (z * 2 ^ (e - w).toNat, false)
  else
    let k := 2 ^ (w - e).toNat
    let q : Int := z.tdiv k
    (q, decide (q * k ≠ z))

/-- Whether an integer fits the window: bits 0 to 126 and the sign. -/
def fitsWindow (z : Int) : Bool := decide (-(2 ^ 127 : Int) ≤ z ∧ z < 2 ^ 127)

/-- Shift one accumulator right by 16 bits toward zero (R97 steps 2 and 3). -/
def LAcc.shift (a : LAcc) : LAcc :=
  if a.cls = .finite then
    let q : Int := a.val.tdiv 65536
    { a with val := q, sticky := a.sticky || decide (q * 65536 ≠ a.val) }
  else a

/-- The bank re-anchored by one (R97). -/
def Bank.reAnchor (b : Bank) (anchor : Nat) : Bank :=
  { b with anchor := some (anchor + 1), acc := (b.acc.map (fun e => (e.1, e.2.shift))).filter (fun e => decide (e.2 ≠ LAcc.clear)),
           inexact := true, reanchor := true }

/-- The class changes of one accumulator under a contribution (R98, R132); `some` when it becomes or stays not finite. -/
def LAcc.special (a : LAcc) (c : Contrib) (kgroup : Nat) : Option (LAcc × Option NanCause) :=
  let p := a.cls = .posInf || c.pInf
  let n := a.cls = .negInf || c.nInf
  let mk (k : NanCause) (s : Bool) : LAcc := ⟨.nan, 0, a.sticky, nanPayload k kgroup, s⟩
  if a.cls = .nan then some (a, none)
  else match c.zeroInf, c.nanOp with
    | some s, _ => some (mk .zeroInf s, some .zeroInf)
    | none, some s => some (mk .nanOperand s, some .nanOperand)
    | none, none =>
      if p && n then some (mk .oppInf false, some .oppInf)
      else if p then some ({ a with cls := .posInf, val := 0 }, none)
      else if n then some ({ a with cls := .negInf, val := 0 }, none)
      else none

/-- The result of adding one product group to a bank: the bank, the engine flags raised (bits of Table 5.11), and the
first accumulator that moved to NaN with its cause. -/
structure GroupSum where
  bank : Bank
  flags : Nat
  firstNan : Option (Nat × NanCause)
deriving DecidableEq, Repr

/-- One finite accumulator under its contribution at an anchor: the new accumulator and whether the sum fits. -/
def LAcc.addAt (a : LAcc) (c : Contrib) (anchor : Nat) : LAcc × Bool :=
  let (z, dropped) := cutToWindow c.sumZ c.sumE anchor
  let v := a.val + z
  ({ a with val := v, sticky := a.sticky || dropped }, fitsWindow v)

/-- The finite additions of a group, re-anchoring until every sum fits (R96, R97). At ANCHOR 255 a sum that does not fit
becomes an infinity and raises OVERFLOW. -/
def addFinite : Nat → Bank → Nat → List (Nat × Contrib) → Bank × Nat
  | 0, b, _, _ => (b, 0)
  | fuel + 1, b, anchor, cs =>
    let adds := cs.map (fun ic => (ic.1, (b.get ic.1).addAt ic.2 anchor, (b.get ic.1).sticky))
    if adds.all (fun x => x.2.1.2) || anchor ≥ 255 then
      let inex := cs.any (fun ic => (cutToWindow ic.2.sumZ ic.2.sumE anchor).2)
      let beyond := adds.any (fun x => !x.2.1.2)
      let b := adds.foldl (fun b x =>
        if x.2.1.2 then b.put x.1 x.2.1.1
        else b.put x.1 { x.2.1.1 with val := 0, cls := if 0 ≤ x.2.1.1.val then .posInf else .negInf }) b
      ({ b with inexact := b.inexact || inex }, 4 * b2n inex ||| b2n beyond)
    else
      let (b', fl) := addFinite fuel (b.reAnchor anchor) (anchor + 1) cs
      (b', fl ||| 20)

/-- One step into a bank (R95-R98). `cs` lists the accumulators with their contributions. -/
def Bank.addStep (b : Bank) (cs : List (Nat × Contrib)) : GroupSum :=
  let lead := cs.foldl (fun l ic => match ic.2.lead with | none => l | some e => maxLead l e) none
  let brings := cs.any (fun ic => !ic.2.nonfinite && ic.2.sumZ != 0)
  let b := match b.anchor, lead with
    | none, some e => if brings then { b with anchor := some (anchorOf e) } else b
    | _, _ => b
  let sp := cs.filterMap (fun ic => ((b.get ic.1).special ic.2 b.kgroup).map (fun r => (ic.1, r)))
  let fin := cs.filter (fun ic => ((b.get ic.1).special ic.2 b.kgroup).isNone && ic.2.sumZ != 0)
  let nans := sp.filterMap (fun x => x.2.2.map (fun k => (x.1, k)))
  let first := nans.foldl (fun (m : Option (Nat × NanCause)) x =>
    match m with | none => some x | some y => if x.1 < y.1 then some x else m) none
  let b1 := sp.foldl (fun b x => b.put x.1 x.2.1) b
  let (b2, fl) := match b1.anchor with
    | none => (b1, 0)
    | some a => addFinite 257 b1 a fin
  ⟨b2, fl ||| (8 * b2n (nans.length != 0)), first⟩

/-- The steps of one product group entered in their order. -/
def Bank.addSteps (b : Bank) : List (List (Nat × Contrib)) → GroupSum
  | [] => ⟨b, 0, none⟩
  | cs :: more =>
    let r := b.addStep cs
    let q := r.bank.addSteps more
    ⟨q.bank, r.flags ||| q.flags, r.firstNan.or q.firstNan⟩

/-- One product group into a bank, in `n` steps of 16/n rows each (R103); KGROUP grows by 1 (R133). -/
def Bank.addGroup (b : Bank) (n : Nat) (cs : List (Nat × Contrib)) : GroupSum :=
  let r := b.addSteps (if n = 1 then [cs] else (upto n).map (fun q => cs.filter (fun c => c.1 / (256 / n) == q)))
  { r with bank := { r.bank with kgroup := satAdd 24 r.bank.kgroup 1 } }

/-- The number an accumulator converts from (R99): a set sticky bit is a nonzero remainder below bit 0. -/
def LAcc.toNum (a : LAcc) (anchor : Option Nat) : NumVal :=
  match a.cls with
  | .posInf => .inf false
  | .negInf => .inf true
  | .nan => .nan a.sign (a.pay * 2 ^ 19)
  | .finite =>
    match anchor with
    | none => NumVal.zero
    | some an =>
      if a.val = 0 then (if a.sticky then .fin false 1 (-8192) else NumVal.zero)
      else if a.sticky then .fin (decide (a.val < 0)) (a.val.natAbs * 2 ^ 64 + 1) (winExp an - 64)
      else .fin (decide (a.val < 0)) a.val.natAbs (winExp an)

/-- The 128 bits of VALUES for one accumulator (Table 4.9). -/
def LAcc.valueBits (a : LAcc) : Nat :=
  match a.cls with
  | .finite => ofInt 128 a.val
  | .nan => a.pay + b2n a.sign * 2 ^ 127
  | _ => 0

/-- The class code of Table 4.9. -/
def AccCls.code : AccCls → Nat
  | .finite => 0
  | .posInf => 1
  | .negInf => 2
  | .nan => 3

/-- The class of a code of Table 4.9. -/
def AccCls.ofCode (n : Nat) : AccCls := nth [.finite, .posInf, .negInf] n .nan

/-- A bank image (Table 4.9, 4,224 bytes). -/
def Bank.image (b : Bank) : List Byte :=
  let vals := ((upto 256).map (fun i => bytesOf 16 (b.get i).valueBits)).flatten
  let st := b2n b.anchor.isSome + 2 * b2n b.inexact + 4 * b2n b.reanchor
  let sticky := (upto 256).foldl (fun n i => n + b2n (b.get i).sticky * 2 ^ i) 0
  let cls := (upto 256).foldl (fun n i => n + (b.get i).cls.code * 4 ^ i) 0
  vals ++ bytesOf 1 (b.anchor.getD 0) ++ bytesOf 1 st ++ bytesOf 6 0 ++ bytesOf 32 sticky ++ bytesOf 64 cls ++ bytesOf 24 0

/-- A field of a byte string. -/
def byteField (l : List Byte) (off size : Nat) : Nat := ofBytes ((l.drop off).take size)

/-- The accumulator an image gives at index `i`. -/
def imageAcc (l : List Byte) (i : Nat) : LAcc :=
  let v := byteField l (16 * i) 16
  let st := bit (byteField l 4104 32) i
  match AccCls.ofCode (bits (byteField l 4136 64) (2 * i + 1) (2 * i)) with
  | .finite => ⟨.finite, signed 128 v, st, 0, false⟩
  | .nan => ⟨.nan, 0, st, v % 2 ^ 32, bit v 127⟩
  | c => ⟨c, 0, st, 0, false⟩

/-- The conditions of R101 on a bank image. -/
def imageOk (l : List Byte) : Bool :=
  let st := byteField l 4097 1
  l.length == 4224 && st < 8 && byteField l 4098 6 == 0 && byteField l 4200 24 == 0
  && (upto 256).all (fun i =>
      let v := byteField l (16 * i) 16
      match AccCls.ofCode (bits (byteField l 4136 64) (2 * i + 1) (2 * i)) with
      | .finite => bit st 0 || v == 0
      | .nan => bits v 126 32 == 0
      | _ => v == 0)
  && (bit st 0 || (st == 0 && byteField l 4104 32 == 0))

/-- The bank a whole image restores (R100); KGROUP starts at 0 (R133). -/
def bankOfImage (l : List Byte) : Bank :=
  let st := byteField l 4097 1
  { acc := ((upto 256).map (fun i => (i, imageAcc l i))).filter (fun e => decide (e.2 ≠ LAcc.clear)),
    anchor := if bit st 0 then some (byteField l 4096 1) else none,
    inexact := bit st 1, reanchor := bit st 2, kgroup := 0 }

/-- The class of width (0: 4-bit, 1: 8-bit, 2: 16-bit, 3: FP32, 4: FP64) of a matrix operand format (R92, Table 5.1). -/
def widthClass (f : Nat) : Nat :=
  nth [4, 3, 2, 2, 1, 1, 1, 1, 0, 2, 1, 1, 0] f 5

/-- k indices per product group (Table 5.1). -/
def kappa (cls : Nat) : Nat := nth [16, 8, 2, 1, 1] cls 1

/-- Steps per product group (Table 5.1). -/
def stepsPerGroup (cls : Nat) : Nat := nth [1, 1, 1, 2, 8] cls 1

/-- Bytes of an operand line (Table 5.3). -/
def lineBytes (cls : Nat) : Nat := nth [128, 128, 64, 64, 128] cls 128

/-- Element (r, k) of a line as R106 lays it out: `r` is the row of operand A or the column of operand B. -/
def lineElem (cls f : Nat) (line : List Nat) (r k : Nat) : Nat :=
  let q := lineBytes cls / 4 * (r / 4)
  let i := r % 4
  let by' (o n : Nat) : Nat := (upto n).foldl (fun a j => a + (nth line (q + o + j) 0) * 256 ^ j) 0
  match cls with
  | 0 => let b := by' (8 * i + (k % 16) / 2) 1; if k % 2 = 0 then b % 16 else b / 16
  | 1 => by' (8 * i + k % 8) 1 % 2 ^ fmtBits f
  | 2 => by' (4 * i + 2 * (k % 2)) 2
  | 3 => by' (4 * i) 4
  | _ => by' (8 * i) 8

/-- An element under its group scale (R83): `gs` is GSCALE, `scale` the E8M0 byte. -/
def scaleNum (gs scale : Nat) (x : NumVal) : NumVal :=
  if bits gs 1 0 = 0 then x
  else if scale = 255 then .nan false 0
  else match x with
    | .fin s m e => .fin s m (e + scale - (if bit gs 2 then 133 else 127))
    | y => y

/-- The GSCALE field rule of R83 for an operand format. -/
def gscaleOk (f gs : Nat) : Bool :=
  if f == 4 || f == 5 || f == 6 || f == 7 || f == 8 || f == 10 || f == 12 then
    gs < 8 && (!bit gs 2 || (f == 10 && gs % 4 == 1))
  else gs == 0

/-! ## The checksum slice (R121, R122) -/

/-- An exact number z × 2^e. -/
abbrev Dy := Int × Int

/-- The finite number as an exact one; zero for any other. -/
def NumVal.dy : NumVal → Dy
  | .fin s m e => (if s then -(m : Int) else m, e)
  | _ => (0, 0)

/-- Exact sum. -/
def Dy.add (a b : Dy) : Dy :=
  if a.1 = 0 then b else if b.1 = 0 then a
  else
    let m := min a.2 b.2
    (a.1 * 2 ^ (a.2 - m).toNat + b.1 * 2 ^ (b.2 - m).toNat, m)

/-- Exact product. -/
def Dy.mul (a b : Dy) : Dy := (a.1 * b.1, a.2 + b.2)

/-- Magnitude. -/
def Dy.abs (a : Dy) : Dy := (a.1.natAbs, a.2)

/-- Exact sum of a list. -/
def Dy.sum (xs : List Dy) : Dy := xs.foldl Dy.add (0, 0)

/-- Whether `a` lies below `b`. -/
def Dy.lt (a b : Dy) : Bool := decide (0 < (Dy.add b (-a.1, a.2)).1)

/-- The lowest weight that the 96-bit form of a column sum holds, below the leading bit of its largest term; none when every term is
zero (R121). -/
def colLow (xs : List NumVal) : Option Int :=
  (xs.foldl (fun (t : Option Int) x => if x.dy.1 = 0 then t else maxLead t (x.dy.2 + bitLen x.dy.1.natAbs - 1)) none).map (· - 95)

/-- Whether s[k], the signed column sum of 16 values, is exact in 96 bits (R122). -/
def colSumExact (xs : List NumVal) : Bool :=
  match colLow xs with
  | none => true
  | some low => xs.all (fun x => if low ≤ x.dy.2 then true else x.dy.1 % 2 ^ (low - x.dy.2).toNat == 0)

/-- s[k]: the signed column sum, truncated toward zero when it is not exact (R121, R122). -/
def colSum (xs : List NumVal) : Dy :=
  let t := Dy.sum (xs.map NumVal.dy)
  match colLow xs with
  | none => t
  | some low => if colSumExact xs || decide (low ≤ t.2) then t else (t.1.tdiv (2 ^ (low - t.2).toNat), low)

/-- u[k]: the sum of magnitudes. -/
def colMag (xs : List NumVal) : Dy := Dy.sum (xs.map (fun x => x.dy.abs))

/-- ε of a group (Table 5.6): `approx` when some s[k] of it is truncated. -/
def chkEps (cls : Nat) (comp approx : Bool) : Dy :=
  if cls = 3 then (2 ^ (if comp then 61 else 62) + 1, -94)
  else if cls = 4 then (2 ^ (if comp then 22 else 23) + 1, -94)
  else if approx then (1, -94) else (0, 0)

/-- A tolerance rounded up to the bits that the slice keeps (R122, log entry 210). -/
def roundTau (t : Dy) : Dy :=
  if t.1 ≤ 0 then (0, 0)
  else
    let n := bitLen t.1.natAbs - (Sys2Proof.Config.tauBits + 1)
    (-(-t.1 / (2 ^ n : Nat)) * (2 ^ n : Nat), t.2)

/-- Y_j and τ_j of a column whose B elements are `b`, from the columns `a` of A (R121, R122). -/
def chkColumn (cls : Nat) (comp : Bool) (a : List (List NumVal)) (b : List NumVal) : Dy × Dy :=
  let y := Dy.sum ((a.zip b).map (fun p => Dy.mul (colSum p.1) p.2.dy))
  let eps := chkEps cls comp (a.any (fun xs => !colSumExact xs))
  (y, if eps.1 = 0 then (0, 0) else roundTau (Dy.mul eps (Dy.sum ((a.zip b).map (fun p => Dy.mul (colMag p.1) p.2.dy.abs)))))

/-- X_j: the exact sum of the contributions about to enter column `j` (R121). -/
def chkX (cs : List (Nat × Contrib)) (j : Nat) : Dy :=
  Dy.sum ((cs.filter (fun c => c.1 % 16 == j)).map (fun c => (c.2.sumZ, c.2.sumE)))

/-- |X_j − Y_j| > τ_j (R121). -/
def chkMismatch (cls : Nat) (comp : Bool) (a b : List (List NumVal)) (cs : List (Nat × Contrib)) (j : Nat) : Bool :=
  let r := chkColumn cls comp ((upto (kappa cls)).map (fun k => a.map (fun row => nth row k NumVal.zero))) (nth b j [])
  Dy.lt r.2 (Dy.add (chkX cs j) (-r.1.1, r.1.2)).abs

/-- A contribution that the array got wrong by z × 2^e. -/
def Contrib.wrongBy (c : Contrib) (z e : Int) : Contrib :=
  if z = 0 then c else { c.addDy z e with lead := maxLead c.lead (e + bitLen z.natAbs - 1) }

end Sys2Proof.Machine
end

