-- ==== Sys2Proof/Machine/RegMap.lean ====
section
/-!
DEFINITION. The BAR0 register map (21_register_map, R478-R483): one row per register of Tables 21.2 to 21.9, with its
width, its reset value and the masks of its RW, RW1C and RC fields. A row covers an indexed register as two nested
index ranges (R478). Log entries 6 and 7 say what is presumed for the MSI-X tables and the CXL component registers.
-/
namespace Sys2Proof.Machine

/-- One register row: instances at `base + stride*i + stride2*j`, `i < n`, `j < n2`. -/
structure RegRow where
  base : Nat
  n : Nat
  stride : Nat
  n2 : Nat
  stride2 : Nat
  width : Nat
  reset : Nat
  rw : Nat
  w1c : Nat
  rc : Nat
  wo : Bool
deriving DecidableEq, Repr

/-- Whether `off` is an instance of the row. -/
def RegRow.hit (r : RegRow) (off : Nat) : Bool :=
  let x := off - r.base
  let y := x % r.stride
  r.base ≤ off && x / r.stride < r.n && y % r.stride2 == 0 && y / r.stride2 < r.n2

/-- A single read-only register. -/
def ro (base width : Nat) (reset : Nat := 0) : RegRow :=
  ⟨base, 1, 1, 1, 1, width, reset, 0, 0, 0, false⟩

/-- A single register with the RW bits of `mask`. -/
def rw (base width mask : Nat) (reset : Nat := 0) : RegRow :=
  ⟨base, 1, 1, 1, 1, width, reset, mask, 0, 0, false⟩

/-- A single write-only register. -/
def wo (base width : Nat) : RegRow := ⟨base, 1, 1, 1, 1, width, 0, 0, 0, 0, true⟩

/-- The row repeated `n` times, `stride` apart. -/
def RegRow.times (r : RegRow) (n stride : Nat) : RegRow := { r with n := n, stride := stride }

/-- The row repeated over an outer and an inner index. -/
def RegRow.times2 (r : RegRow) (n stride n2 stride2 : Nat) : RegRow :=
  { r with n := n, stride := stride, n2 := n2, stride2 := stride2 }

/-- The row with RC bits. -/
def RegRow.clearOnRead (r : RegRow) : RegRow := { r with rc := 2 ^ r.width - 1 }

/-- The row with RW1C bits. -/
def RegRow.oneClears (r : RegRow) (mask : Nat) : RegRow := { r with w1c := mask }

/-- Table 21.2: GLB and PACE. -/
def regRowsGlb : List RegRow :=
  [ ro 0x0 32 (if Config.gradeE then 0x7384E210 else 0x7384A210)
  , rw 0x100 64 (ones 63 6), rw 0x108 64 (ones 63 6), rw 0x110 32 (ones 11 8 ||| 1) 0x600
  , (ro 0x1000 64).times 8 0x40, ((ro 0x1008 32).clearOnRead).times 8 0x40
  , (ro 0x2000 64).times2 32 0x20 3 8, ((ro 0x2018 32).clearOnRead).times 32 0x20, (ro 0x201C 32).times 32 0x20
  , (ro 0x10000 32).oneClears (ones 15 8), ro 0x10008 64, rw 0x10010 32 0xF, rw 0x10014 32 (ones 31 0)
  , wo 0x10018 64, ro 0x10020 32
  , (ro 0x10100 32).times2 8 0x40 3 4, (ro 0x10110 64).times2 8 0x40 2 8 ]

/-- Table 21.3: PART, FLT and ACCT. -/
def regRowsPart : List RegRow :=
  [ ro 0x20000 32, ro 0x20008 64, ro 0x20010 32, ro 0x20014 32
  , rw 0x20020 32 (ones 31 28 ||| ones 23 0), rw 0x20028 64 (ones 63 0), rw 0x20030 64 (ones 63 0)
  , (ro 0x20100 32).times2 16 0x20 3 4, (ro 0x20110 64).times 16 0x20
  , (rw 0x20118 32 (ones 31 31 ||| ones 23 0)).times 16 0x20, (ro 0x2011C 32).times 16 0x20
  , rw 0x30000 64 (ones 63 0), (rw 0x30100 64 (ones 63 0)).times 16 0x20
  , rw 0x30008 32 1, (rw 0x30108 32 1).times 16 0x20
  , rw 0x3000C 32 (ones 11 0), (rw 0x3010C 32 (ones 11 0)).times 16 0x20
  , (ro 0x30010 32).oneClears 1, ((ro 0x30110 32).oneClears 1).times 16 0x20
  , ro 0x30014 32, (ro 0x30114 32).times 16 0x20
  , rw 0x30400 32 (ones 20 0) 0x100000, ro 0x30408 64, wo 0x30410 32, (ro 0x30440 64).times 16 8
  , rw 0x30800 32 0x1F1 0x181, wo 0x30804 32, ro 0x30808 32, ro 0x30810 64, ro 0x30818 32
  , (rw 0x30900 32 0x1F 0x10).times 16 0x20, (ro 0x30908 64).times2 16 0x20 2 8, (ro 0x30918 32).times2 16 0x20 2 4
  , rw 0x30C00 32 0x1F 0x7, (ro 0x30C40 32).times2 8 0x10 2 4
  , rw 0x40000 32 (ones 11 0), (ro 0x40008 64).times 2 8, (ro 0x40018 32).times 2 4, ro 0x40020 64, wo 0x40028 32
  , (ro 0x40040 32).times 16 4, rw 0x40100 64 (ones 35 0), (ro 0x40108 32).times 2 4, ro 0x40110 64, ro 0x40118 32
  , (ro 0x41000 32).times2 16 0x100 4 4, (ro 0x41010 64).times 16 0x100, (ro 0x41018 32).times2 16 0x100 2 4
  , ((ro 0x41020 32).clearOnRead).times2 16 0x100 2 4 ]

/-- Table 21.4: TILE. -/
def regRowsTile : List RegRow :=
  [ (ro 0x80000 64 0x40000000).times2 128 0x1000 2 0x100, (ro 0x80008 32).times2 128 0x1000 2 0x100
  , (ro 0x8000C 32).times2 128 0x1000 2 0x100, (ro 0x80010 64).times2 128 0x1000 2 0x100
  , ((ro 0x80018 64).oneClears 1).times2 128 0x1000 2 0x100, (ro 0x80020 64).times2 128 0x1000 2 0x100
  , (ro 0x80028 32).times2 128 0x1000 2 0x100, (ro 0x8002C 32).times2 128 0x1000 2 0x100
  , (ro 0x80030 32).times2 128 0x1000 2 0x100
  , ((ro 0x80038 64).oneClears 1).times2 128 0x1000 2 0x100, (wo 0x80040 32).times2 128 0x1000 2 0x100
  , (ro 0x80200 32).times2 128 0x1000 2 4, (ro 0x80208 64).times 128 0x1000
  , (ro 0x80210 32).times 128 0x1000, (ro 0x80214 32).times 128 0x1000, (ro 0x80218 32).times 128 0x1000
  , (ro 0x80300 64).times 128 0x1000, (ro 0x80308 32).times 128 0x1000, (ro 0x80310 32).times 128 0x1000
  , (ro 0x80400 32).times2 128 0x1000 16 0x40, (ro 0x80404 32).times2 128 0x1000 16 0x40
  , (ro 0x80408 64).times2 128 0x1000 16 0x40, (ro 0x80410 64).times2 128 0x1000 16 0x40
  , (ro 0x80418 64).times2 128 0x1000 16 0x40, (ro 0x80420 64).times2 128 0x1000 16 0x40
  , (ro 0x80428 64).times2 128 0x1000 16 0x40
  , (ro 0x80800 64).times2 128 0x1000 40 8, (ro 0x80A00 32).times2 128 0x1000 40 4
  , (ro 0x80B00 64).times2 128 0x1000 2 8 ]

/-- Table 21.5: MEM. -/
def regRowsMem : List RegRow :=
  [ (ro 0x100000 32).times2 16 0x400 26 0x20, (ro 0x100004 32).times2 16 0x400 26 0x20
  , (ro 0x100008 32).times2 16 0x400 26 0x20, (ro 0x10000C 32).times2 16 0x400 26 0x20
  , (ro 0x100010 64).times2 16 0x400 26 0x20, (ro 0x100018 64).times2 16 0x400 26 0x20
  , (ro 0x104000 32).times 16 0x40, (ro 0x104008 64).times 16 0x40, (ro 0x104010 32).times 16 0x40
  , (rw 0x106000 32 (ones 13 0)).times 8 0x40, (rw 0x106008 64 (ones 63 30)).times 8 0x40
  , (ro 0x106010 32).times2 8 0x40 2 4
  , (rw 0x108000 32 0x3F 0x21).times 8 0x100, (ro 0x108004 32).times 8 0x100, (ro 0x108008 64).times2 8 0x100 2 8
  , (ro 0x108018 32).times2 8 0x100 3 4
  , ro 0x109000 32, rw 0x109004 32 (ones 13 0), ro 0x109008 64
  , (ro 0x10A000 64).times2 8 0x100 1 1, (ro 0x10A010 64).times 8 0x100, (ro 0x10A008 32).times2 8 0x100 2 4
  , (ro 0x10A018 32).times2 8 0x100 6 4, (ro 0x10A030 64).times 8 0x100
  , (rw 0x10A038 32 0x1FF 0x31).times 8 0x100, (ro 0x10A03C 32).times2 8 0x100 2 4, (ro 0x10A048 64).times2 8 0x100 2 8 ]

/-- Table 21.6: TE, SES and XLAT. -/
def regRowsTe : List RegRow :=
  [ rw 0x200000 32 3 3, wo 0x200004 32, rw 0x200008 32 (ones 15 0), (ro 0x200010 64).times 4 8
  , (ro 0x200030 32).times 4 4, ro 0x200040 64, (ro 0x200048 32).times 5 4, (ro 0x200060 32).times 2 4
  , (ro 0x201000 32).times 16 0x100, (ro 0x201008 64).times2 16 0x100 2 8
  , ((ro 0x201018 32).clearOnRead).times2 16 0x100 2 4
  , (ro 0x202000 64).times2 8 0x100 2 8, (ro 0x202040 32).times2 8 0x100 16 4
  , rw 0x300000 32 1 1, ro 0x300004 32, rw 0x300008 32 (ones 31 0) 0x3E8
  , (ro 0x300040 32).times2 8 0x10 2 4, (ro 0x300048 64).times 8 0x10
  , (ro 0x300100 32).times 16 0x40, (rw 0x300104 32 (ones 31 0) 0x36EE80).times 16 0x40
  , (ro 0x300108 64).times2 16 0x40 3 8, (ro 0x300120 32).times2 16 0x40 3 4
  , rw 0x310000 32 1 1, wo 0x310008 64, ro 0x310010 32, (ro 0x310018 32).oneClears 1, (ro 0x310020 64).times 2 8
  , (ro 0x310100 64).times2 8 0x40 3 8, (ro 0x310118 32).times 8 0x40, ((ro 0x31011C 32).clearOnRead).times 8 0x40
  , (ro 0x310120 32).times2 8 0x40 2 4
  , (ro 0x310400 64).times 2 0x40, (ro 0x310408 32).times2 2 0x40 2 4 ]

/-- Table 21.7: HOST. -/
def regRowsHost : List RegRow :=
  [ (ro 0x320000 32).times2 2 0x100 3 4, (ro 0x320010 64).times2 2 0x100 2 8
  , (ro 0x321000 64).times2 8 0x40 5 8, (ro 0x321028 32).times 8 0x40
  , (rw 0x322000 64 (ones 63 34 ||| 1)).times 4 8, rw 0x322040 64 (ones 63 12), wo 0x322048 32
  , (ro 0x32204C 32).oneClears 2
  , (rw 0x330000 32 (ones 31 2)).times2 2 0x8000 2048 16, (rw 0x330004 32 (ones 31 0)).times2 2 0x8000 2048 16
  , (rw 0x330008 32 (ones 31 0)).times2 2 0x8000 2048 16, (rw 0x33000C 32 1 1).times2 2 0x8000 2048 16
  , (rw 0x340000 32 (ones 31 0)).times2 2 0x10000 16384 4
  , (ro 0x360000 64).times2 2 0x100 32 8 ]

/-- Table 21.8: FAB. -/
def regRowsFab : List RegRow :=
  [ rw 0x400000 32 (ones 31 16 ||| 1) 0x4C370000, rw 0x400004 32 (ones 14 0), (ro 0x400008 64).times 3 8
  , (ro 0x400020 32).times 4 4, ro 0x400030 64, ro 0x400038 32 0x08000000
  , rw 0x400100 32 (ones 15 0), wo 0x400104 32, ro 0x400108 32, (rw 0x400110 64 (ones 63 0)).times 16 8
  , (wo 0x400190 64).times 12 8, ro 0x4001F0 64, (ro 0x4001F8 32).times 4 4
  , rw 0x400300 32 (ones 9 0), rw 0x400308 64 (ones 63 28 ||| 3), rw 0x400310 64 (ones 63 0), ro 0x400318 32
  , (rw 0x401000 32 0xF9 0xF8).times 8 0x200, (ro 0x401004 32).times 8 0x200, (rw 0x401008 64 (ones 47 0)).times 8 0x200
  , (ro 0x401010 64).times2 8 0x200 5 8
  , (rw 0x401040 64 (ones 63 0)).times2 8 0x200 8 0x20, (rw 0x401048 64 (ones 63 0)).times2 8 0x200 8 0x20
  , (rw 0x401050 32 (ones 31 0)).times2 8 0x200 8 0x20, (rw 0x401054 32 (ones 12 0)).times2 8 0x200 8 0x20 ]

/-- Table 21.9: NIB and QDB. -/
def regRowsNib : List RegRow :=
  [ ro 0x800000 32, ro 0x800008 64, wo 0x800010 32, ro 0x800014 32, ro 0x800018 64
  , rw 0x800020 64 (ones 63 6), rw 0x800030 64 (ones 63 6), wo 0x800028 32, wo 0x800038 32
  , ro 0x80002C 32, ro 0x80003C 32, rw 0x800040 32 0xF 1, (ro 0x800048 64).times 6 8
  , (rw 0x1000000 32 (ones 15 0)).times 4096 0x1000, (rw 0x1000008 32 (ones 15 0)).times 4096 0x1000
  , (ro 0x1000010 32).times2 4096 0x1000 2 4, (ro 0x1000018 32).times2 4096 0x1000 3 4
  , (ro 0x1000028 64).times2 4096 0x1000 4 8, ((ro 0x1000048 32).oneClears 1).times 4096 0x1000 ]

/-- The rows of the block that `off` lies in (Table 21.1). -/
def regRowsAt (off : Nat) : List RegRow :=
  if off < 0x20000 then regRowsGlb
  else if off < 0x80000 then regRowsPart
  else if off < 0x100000 then regRowsTile
  else if off < 0x200000 then regRowsMem
  else if off < 0x320000 then regRowsTe
  else if off < 0x400000 then regRowsHost
  else if off < 0x800000 then regRowsFab
  else if off < 0x2000000 then regRowsNib
  else []

/-- The register at `off`, if one begins there (R479). -/
def regRow? (off : Nat) : Option RegRow := (regRowsAt off).find? (fun r => r.hit off)

/-- Offset of a selected copy: item `i` of the registers read through a selector (R481). -/
def selKey (off i : Nat) : Nat := off + 0x4000000 * (i + 1)

/-- The reset value that key `k` of the register store reads as when unlisted. -/
def regReset (k : Nat) : Nat :=
  if k < 0x4000000 then (match regRow? k with | some r => r.reset | none => 0) else 0

/-- Base of the registers of tile `t`. -/
def tileBase (t : Nat) : Nat := 0x80000 + 0x1000 * t

/-- Base of the registers of engine `e` of tile `t`. -/
def engBase (t e : Nat) : Nat := tileBase t + 0x100 * e

/-- Base of the registers of channel `c` of tile `t`. -/
def strBase (t c : Nat) : Nat := tileBase t + 0x400 + 0x40 * c

/-- Base of the registers of queue `q`. -/
def qdbBase (q : Nat) : Nat := 0x1000000 + 0x1000 * q

end Sys2Proof.Machine
end

