-- ==== Sys2Proof/Machine/State.lean ====
section
/-!
DEFINITION. The state of the block as plain data. Every BAR0 register of 21_register_map is in `regs`, but for the
status registers that only mirror a field of this state: those are computed when they are read (Machine/Regs.lean).
-/
namespace Sys2Proof.Machine

/-- Why the block stops with a fault. -/
inductive Fault where
  /-- Raised by a command that names a unit, register number or form the device does not have (Table 0.4, R478). Safe:
  the manual gives such a command no meaning. -/
  | noSuchUnit
deriving DecidableEq, Repr

/-- Why the model refuses a command. -/
inductive Refusal where
  /-- Raised by the dispatcher for a row without a meaning yet. Safe: nothing is claimed of it. -/
  | notModelled (mnemonic : String)
deriving DecidableEq, Repr

/-- SOURCE of a blot record (Table 20.1): kind and number. -/
structure Src where
  kind : Nat
  num : Nat
deriving DecidableEq, Repr

/-- A blot record (Table 20.1). `detail` lists (value, size in bytes) packed from byte 32 (R455). -/
structure Blot where
  seq : Nat := 0
  phase : Bool := false
  cls : Nat
  held : Bool := false
  copy : Bool := false
  part : Option Nat := none
  time : Nat := 0
  cmd : Option (Nat × Nat) := none   -- QUEUE_ID and CMD_SEQ
  src : Src := ⟨0, 0⟩
  addr : Nat := 0
  detail : List (Nat × Nat) := []
deriving DecidableEq, Repr

/-- A completion record (Table 16.8). -/
structure CRec where
  seq : Nat
  phase : Bool
  status : Nat
  pace : Bool
  replayed : Bool
  child : Bool
  numsum : Nat
  waitNs : Nat
  preempts : Nat
  detail : Nat
  tStart : Nat
  tEnd : Nat
deriving DecidableEq, Repr

/-- A Quill packet as the block sends it (Table 18.2), before it is sealed: flow at the receiver, devices, type, flags, PSN,
OPID, TXSEQ, pace notice (cause, pace), the fields of the type's own table in their order, data bytes. -/
structure Packet where
  flow : Nat
  src : Nat
  dst : Nat
  kind : Nat
  flags : Nat := 0
  psn : Nat := 0
  opid : Nat := 0
  txseq : Nat := 0
  pace : Nat × Nat := (0, 0)
  ip : Nat := 0
  fields : List Nat := []
  data : List Nat := []
deriving DecidableEq, Repr

/-- What the block emits, in the order in which it emits it: everything the outside can see besides registers and memory. -/
inductive Out where
  | blot (ring slot addr : Nat) (b : Blot)                       -- a record written into a ring of host memory
  | record (queue slot addr : Nat) (r : CRec)                    -- a completion record written into a ring
  | msix (port vector : Nat)
  | hostWrite (die addr : Nat) (pasid : Option Nat) (data : List Nat)
  | hostRead (die addr : Nat) (pasid : Option Nat) (len : Nat)   -- a read request to host memory
  | readData (port off size : Nat) (value : Nat)                 -- the answer to a BAR0 read
  | memData (port : Nat) (path : Nat) (addr : Nat) (data : List Nat) (poison : Bool)  -- answer to CXL.mem (0) or BAR4 (1)
  | memDone (port : Nat) (addr : Nat)                            -- completion of a host write
  | snoopInv (port : Nat) (addr : Nat)                           -- BISnpInv
  | snoopAns (port : Nat) (addr : Nat) (data : List (Nat × Nat)) -- answer to a host snoop, with merged bytes
  | dirtyEvict (port : Nat) (addr : Nat) (data : List (Nat × Nat))
  | zeroRead (port : Nat)
  | atsRequest (port die : Nat) (pasid : Option Nat) (page : Nat)
  | pageRequest (port : Nat) (pasid : Option Nat) (page : Nat) (write : Bool)
  | invComplete (port tag : Nat)
  | cxlTake (die addr : Nat)                                     -- RdOwnNoData of a bias flip
  | packet (port sub : Nat) (p : Packet)
  | frame (port sub kind : Nat) (fields : List Nat)              -- ARP, Neighbor Discovery, Echo and PTP answers
  | t3 (port : Nat) (path : Nat) (write : Bool) (addr : Nat) (data : List Nat)  -- a request to Type-3 memory (R275)
  | ident (port serial keyId : Nat)                              -- the identity that a port reports as it comes up (R25)
  | spdm (code : Nat) (fields : List Nat)
  | rail (die mv : Nat)                                          -- AVSBus voltage command
  | pin (name : Nat) (high : Bool)
deriving DecidableEq, Repr

/-! ## Pace and TIME (02) -/

/-- The internal pace state of one die (R31-R36). -/
structure DiePace where
  good : Nat            -- consecutive windows in which every condition held, up to 100
  ever : Bool           -- the die has gained the guarantee since the start
  lost : Bool           -- a lost interval is open
  lostFrom : Nat        -- TIME at which it began
  vcore : Nat           -- commanded VCORE in mV
  meas : Nat            -- PACE_MEAS of the last window
  windows : Nat         -- completed windows of this die
  base : Nat            -- commanded VCORE at the last grid point
  eff : Bool            -- the die was in efficiency mode at some time in the present window
deriving DecidableEq, Repr

/-- Pace and TIME. Fractions of TIME are held in 10⁻⁶ ns. The copies of TIME of the eight dies are one (log entry 193). -/
structure PaceSt where
  dies : List DiePace
  time : Nat
  frac : Int
  winStart : Nat        -- TIME at the last grid point
  windows : Nat         -- windows completed since the power-on start
  slew : Nat            -- negative offset not yet consumed, in 10⁻⁶ ns
  slewing : Bool
  refRun : Bool
  refLost : Bool
  syncs : Nat           -- consecutive Sync messages within 50 ns, up to 16
  holdover : Bool
deriving DecidableEq, Repr

/-! ## Faults (20) -/

/-- The internal state of one blot ring (R456-R460). -/
structure Ring where
  k : Nat := 0              -- records written since the ring was enabled
  released : Nat := 0       -- records released since then
  held : List Blot := []
  lostN : Nat := 0          -- records lost since the last BLOTS_LOST
  lostFirst : Nat := 0
  lostLast : Nat := 0
deriving DecidableEq, Repr

/-- The overflow counter of one ring and class with the records kept (R459). -/
structure Ovf where
  count : Nat := 0
  first : Option Blot := none
  last : Option Blot := none
deriving DecidableEq, Repr

/-- A unit under the suspect procedure: KIND (1 tile, 2 cluster, 3 table engine), number, the class that started it. -/
structure Suspect where
  kind : Nat
  num : Nat
  cls : Nat
  stage : Nat
  running : Bool
deriving DecidableEq, Repr

/-- The suspect history of one unit (R470-R473). -/
structure SusUnit where
  events : List Nat := []       -- TIME of suspect events
  kept : Option Nat := none     -- kept stage
  last : Option Nat := none     -- TIME at which its last procedure began
  pending : Bool := false       -- RETIRE_PENDING
deriving DecidableEq, Repr

/-- A probe run in progress or waiting for its unit: unit kind (as in SOURCE) and number, set mask, and who asked (0 sample, 1 idle,
2 command). -/
structure Probe where
  kind : Nat
  num : Nat
  sets : Nat
  why : Nat
deriving DecidableEq, Repr

/-- A shadowed launch: its command and the write digests by (task, channel), primary and shadow. -/
structure Shadow where
  cid : Nat
  prim : List ((Nat × Nat) × Nat)
  shad : List ((Nat × Nat) × Nat)
deriving DecidableEq, Repr

structure FltSt where
  rings : Tbl Ring := []
  ovf : Tbl Ovf := []           -- key: ring × 65,536 + class
  probes : List Probe := []
  launches : Tbl Nat := []      -- launches ended on a tile since its last sampled probe
  suspects : List Suspect := []
  units : Tbl SusUnit := []     -- key: kind × 4,096 + number
  retiring : List (Nat × Nat × Nat) := []  -- unit, number, cause of retirements in progress (R70)
  shadows : List Shadow := []
  beatAt : Nat := 0             -- TIME of the lead die nib's last heartbeat
deriving DecidableEq, Repr

/-! ## Host link and translation (14, 15) -/

/-- A line of a host-line cache: host address, Modified bytes (offset, value) and the commands whose writes it holds. -/
structure HLine where
  addr : Nat
  dirty : List (Nat × Nat)
  owners : List Nat
deriving DecidableEq, Repr

/-- An entry of the back-invalidation tracking: the sector and the host copies as (port, address as named). -/
structure Track where
  sector : Nat
  copies : List (Nat × Nat)
deriving DecidableEq, Repr

/-- A device write waiting for the host: the snoops not yet answered as (port, address), or in a host-bias page the
(die, port) whose GO it needs; the write, and its command. A shared unit waits without its data: its command writes once the host has
answered (log entry 196), in a host-bias page under the GO that stands here until then. -/
structure BiWait where
  snoops : List (Nat × Nat)
  go : Option (Nat × Nat) := none
  addr : Nat
  data : List Nat
  cid : Option Nat
  src : Option (Nat × Nat) := none   -- tile and channel
deriving DecidableEq, Repr

/-- A host write of the LN7 not yet answered with GO: die, port, line, the commands whose writes it carries. -/
structure GoWait where
  die : Nat
  port : Nat
  addr : Nat
  cids : List Nat
  src : Option (Nat × Nat) := none   -- tile and channel
  op : Nat := 0                      -- Quill operation whose received data it is
  out : Option (List (Nat × Nat)) := none   -- a DirtyEvict that its regulator has not admitted yet: the bytes it is to carry
  bad : Option Nat := none            -- its bytes could not be read from the cache: the word (R282)
deriving DecidableEq, Repr

structure HostSt where
  via : List (Option Nat) := List.replicate 8 none  -- port each die uses (R24)
  lines : List (List HLine) := List.replicate 8 []  -- host-line caches, most recently used first
  track : List (List Track) := List.replicate 8 []  -- tracking tables, most recently used first
  biWait : List BiWait := []
  needs : List (Option Nat × Nat) := []             -- sectors that the command under way writes and the host must release; empty between commands
  goWait : List GoWait := []
  hdm : List (List (Option Nat)) := [[none, none], [none, none]]  -- committed decoder bases by port
  hdmErr : List (List Bool) := [[false, false], [false, false]]   -- Error Not Committed
  hostBias : List Nat := []                         -- 4 KiB pages (page numbers, rising) in host bias
  flip : Option (Nat × Nat) := none                 -- bias flip in progress: first page, pages
  msixPend : List (Nat × Nat) := []                 -- (port, vector) pending
  msixDue : List (Nat × Nat) := []                  -- (port, vector) to be sent
deriving DecidableEq, Repr

/-- One context slot (Table 15.2) as resolved under R325. -/
structure CtxSlot where
  en : Bool
  seg : Nat
  perm : Nat
  base : Nat
  limit : Nat
  tier : Nat
  view : Nat
  lost : Bool
deriving DecidableEq, Repr

/-- A queue's context (R324). -/
structure Ctx where
  pasid : Nat := 0
  pasidEn : Bool := false
  priEn : Bool := false
  slots : List CtxSlot := []
deriving DecidableEq, Repr

/-- A translation cache entry (R330). -/
structure XEnt where
  port : Nat
  pasid : Option Nat
  global : Bool
  vpage : Nat
  size : Nat
  ppage : Nat
  rd : Bool
  wr : Bool
  untrans : Bool
deriving DecidableEq, Repr

/-- An outstanding Translation Request. `stale` says an invalidation covered it (R335). -/
structure XReq where
  die : Nat
  port : Nat
  pasid : Option Nat
  page : Nat
  prefetch : Bool
  stale : Bool
  held : Bool      -- stale and answered, to be issued again when the invalidation has ended
  under : List (Nat × Nat) -- ranges (page, bytes) invalidated on its port and PASID since it was issued
deriving DecidableEq, Repr

/-- An outstanding page request. -/
structure PReq where
  port : Nat
  die : Nat
  pasid : Option Nat
  page : Nat
  write : Bool
deriving DecidableEq, Repr

/-- An invalidation in progress on a port. -/
structure InvReq where
  port : Nat
  tag : Nat
  pasid : Option Nat    -- none: Global
  page : Nat
  size : Nat
  start : Nat           -- TIME of receipt
deriving DecidableEq, Repr

structure XlatSt where
  cache : List (List XEnt) := List.replicate 8 []   -- by die, most recently used first
  reqs : List XReq := []
  prs : List PReq := []
  invs : List InvReq := []
  flush : Option (Option Nat) := none               -- flush in progress: a PASID, or all
  ats : List Bool := [false, false]                 -- ATS enabled, by function
  pasidEn : List Bool := [false, false]
  pri : List Bool := [false, false]
  absent : List Nat := []                           -- pages without PASID whose last answer granted no write (log entry 12)
deriving DecidableEq, Repr

/-! ## Queues, commands and scheduling (16, 17) -/

/-- Where a command stands. -/
inductive CmdSt where
  | none | fetched | ready | placed | running | saving | saved | restoring | ending | fencing | fenced
deriving DecidableEq, Repr

/-- The scheduling header of an image (Table 17.1). -/
structure Hdr where
  tiles : Nat := 0
  flags : Nat := 0
  preNs : Nat := 0
  wcetNs : Nat := 0
  semMask : Nat := 0
  saveMax : Nat := 0
  yieldNs : Nat := 0
deriving DecidableEq, Repr

/-- One command from its fetch to its record. -/
structure Cmd where
  st : CmdSt := .none
  queue : Nat := 0
  seq : Nat := 0
  part : Option Nat := none
  client : Nat := 0
  prio : Nat := 0
  opcode : Nat := 0
  flags : Nat := 0
  entry : List Nat := []            -- the 56 payload bytes of the first entry
  cb : List Nat := []               -- the constant buffer as 64-bit words, relocated
  rawCb : List Nat := []            -- the constant buffer as fetched
  model : Nat := 0
  hdr : Hdr := {}
  budgets : List (Nat × Nat) := []  -- regulator slot, bytes per µs (R185)
  order : Nat := 0                  -- readiness order
  posts : List (Nat × Nat × Nat) := []   -- post rings of its tasks: base, m, post word (R420)
  preNs : Nat := 0                  -- time preempted so far, in ns
  checked : Nat := 0                -- TIME of the stamp check
  firstStep : Option Nat := none    -- TIME of the first step of the last run
  firstEver : Option Nat := none    -- TIME of the command's first step
  tEnd : Nat := 0
  cause : Option (Nat × Nat) := none   -- STATUS and DETAIL of the first cause
  numsum : Nat := 0                 -- flags and bits gathered so far
  sats : Nat := 0                   -- saturations counted (R141)
  preempts : Nat := 0
  preemptAt : Option Nat := none    -- TIME of the open preemption
  preemptReq : Bool := false
  sliceEnd : Bool := false
  depth : Nat := 0
  parent : Option Nat := none
  tiles : List Nat := []
  shadow : List Nat := []
  reserved : List Nat := []         -- tiles reserved for it (R382)
  named : Bool := false             -- a REPAIR asked it to leave named tiles (R70)
  dies : Nat := 0                   -- dies concerned, one bit each (R35)
  lost : Nat := 0                   -- dies that lacked the guarantee in a window the execution overlaps
  placedAt : Nat := 0               -- TIME of the placement or the last resumption
  sliceAt : Nat := 0                -- TIME at which the slice expires
  victims : List Nat := []          -- launches asked to give way to it (R382)
  fenceWin : Nat := 0               -- windows completed when the fence ended
  replayed : Bool := false
  replay : Bool := false            -- a replay is to follow its fence
  holds : List (Nat × Nat × Bool) := []   -- session holds: die, slot, WRITE right
  sessErr : Bool := false
  post : Option (Nat × Nat) := none -- post word of a ring
  regZero : Bool := false           -- REGULATOR_ZERO written
  saveFrom : Nat := 0               -- TIME at which its last task reached the yield point of a save
  sess : Bool := false              -- its session list is resolved (R252)
  look : Bool := false              -- its lookup request has run (R204)
  lookSum : Nat := 0                -- flags that the lookup request raised, and
  lookSats : Nat := 0               -- its saturations: a replay does not run it again (R131, R141, R284)
  lookup : Option Nat := none       -- address of its image's lookup request
  winDone : Nat := 0                -- layers of its window released (R267)
  img : Nat × Nat := (0, 0)         -- its image as resolved at its fetch: device address and bytes (R265)
  stale : Bool := false             -- its model's image handle was stale then, or no record names the model
  lays : List (Nat × Nat) := []     -- the layers its image records (R267)
deriving DecidableEq, Repr

/-- One queue (16). -/
structure Queue where
  st : Nat := 0
  log2 : Nat := 0
  sq : Nat := 0
  cq : Nat := 0
  ctx : Ctx := {}
  vector : Nat := 0xFFFF
  device : Bool := false
  dbAddr : Nat := 0
  part : Option Nat := none
  client : Nat := 0
  prio : Nat := 0
  sliceUs : Nat := 0
  j : Nat := 0                 -- entries taken: index of the entry expected next
  pend : Nat := 0              -- entries made pending since creation
  k : Nat := 0                 -- records written
  released : Nat := 0          -- records released
  rereads : Nat := 0           -- re-reads issued for the stale slot (R349)
  retrying : Bool := false
  entries : List (Nat × List Nat) := []   -- current entries of a launch not yet whole, with the TIME of each check
  rung : List (Nat × Nat × Nat × Nat) := []   -- device doorbells: entries below the index belong to the launch, of depth and client
  discarded : Nat := 0
  drainSeq : Option Nat := none     -- SEQ of the QUEUE_DESTROY that waits
deriving DecidableEq, Repr

/-- One semaphore of a partition (R391). -/
structure Sem where
  holder : Option Nat := none
  since : Nat := 0
  holdNs : Nat := 0
  passed : Nat := 0            -- SEM_REL marks passed by the holder's tasks
  waiters : List Nat := []     -- commands waiting, in order of request
deriving DecidableEq, Repr

/-- A model of a partition in the model cache (R393-R395). -/
structure ModelSt where
  resident : Nat := 0          -- clusters where it is resident
  loading : Nat := 0
  pinned : Nat := 0            -- clusters where it was loaded under PIN
  bad : Bool := false
  degraded : List Nat := []    -- poisoned sectors of its image
  started : Nat := 0           -- order of its last start
  layers : Tbl Nat := []       -- layers pinned so far of a load in progress, by cluster
  img : Nat × Nat := (0, 0)    -- the image it is loaded from: device address and bytes
  lays : List (Nat × Nat) := []   -- its layers in order: offset in the image and bytes
deriving DecidableEq, Repr

/-- The window of a launch in a cluster (R267): the layer being filled, and the bytes of it whose fills have been issued. -/
structure Win where
  cid : Nat
  cl : Nat
  layer : Nat := 0
  pos : Nat := 0
deriving DecidableEq, Repr

structure SchedSt where
  queues : Tbl Queue := []
  cmds : Tbl Cmd := []
  order : Nat := 0
  kids : Tbl Nat := []         -- children enqueued so far, by parent command
  sems : Tbl Sem := []         -- key: partition × 32 + semaphore
  models : Tbl ModelSt := []   -- key: partition × 2³² + MODEL_ID
  bound : Tbl Nat := []        -- bound handle segment + 1, by partition
  wins : List Win := []        -- windows in use
  turns : Tbl Nat := []        -- priority token of a die's merge stage: the tile of the die that has it (R47)
deriving DecidableEq, Repr

/-! ## The folio (03) -/

/-- One record of a configuration: its section type and its bytes. -/
structure Rec where
  typ : Nat
  data : List Nat
deriving DecidableEq, Repr

/-- A folio operation in progress (R64). -/
structure FolioOp where
  op : Nat                     -- 1 load, 2 reconfigure, 3 repair, 4 commit
  phase : Nat                  -- 0 fetching, 1 quiescing, 2 programming
  cid : Nat := 0               -- its command
  addr : Nat := 0
  size : Nat := 0
  part : Nat := 0
  mode : Nat := 0              -- 0 DRAIN, 1 ABORT
  limitUs : Nat := 0
  start : Nat := 0             -- TIME of acceptance
  since : Nat := 0             -- TIME of QUIESCING
  config : List Rec := []      -- the configuration it would put in force
  image : List Nat := []       -- the folio as staged
  patches : List (List Nat) := []   -- at a start: the patches stored with it
  pkg : Nat := 0               -- PKG_STATE before it
  slot : Option Nat := none    -- at a start: the flash slot it comes from
  fail : Bool := false         -- a hand-over of the lead die nib makes it fail (R476)
deriving DecidableEq, Repr

/-- A folio slot of flash: the full folio, its patches in order and the window settings stored with it (R71, R277). -/
structure FolioSlot where
  full : List Nat := []
  patches : List (List Nat) := []
  t3 : List (Nat × Nat) := []
deriving DecidableEq, Repr

structure FolioSt where
  active : List Rec := []
  full : List Nat := []            -- bytes of the active full folio
  patches : List (List Nat) := []  -- patches applied since its load
  op : Option FolioOp := none
  zeroing : List (Nat × Nat) := [] -- physical ranges not yet zero (R68): base and size
  retired : List (Nat × Nat × Nat) := []   -- the retirement list, in flash: UNIT, NUMBER, CAUSE
deriving DecidableEq, Repr

/-! ## Flash, fuses and the start (19) -/

/-- What flash (Table 19.1) and the fuses (R436) hold, besides the retirement lists. -/
structure FlashSt where
  bootSlot : Nat := 0                        -- active boot slot
  boot : List (List Nat) := [Config.bootImage, []]   -- boot firmware images
  committed : Option Nat := none             -- committed folio slot
  slots : List FolioSlot := [{}, {}]
  bistSeq : Nat := 0                         -- NIB_BIST_SEQ
  record : List Nat := []                    -- self-test record with its failure entries
  owners : List Nat := []                    -- owner slots programmed
  folioRows : List Nat := []                 -- rows of the folio counter
  bootRows : List Nat := []                  -- rows of the boot-firmware counter
deriving DecidableEq, Repr

/-- What the die nibs hold. -/
structure NibSt where
  bootRun : List Nat := []                   -- boot firmware image running
  fw : List Nat := [0, 0, 0]                 -- digests of the cluster, memory and die nib firmware
  chain : Nat := 0                           -- measurement 7
  recDig : Nat := 0                          -- measurement 8
  install : Option (List Nat) := none        -- boot firmware being installed
  owner : Option Nat := none                 -- owner digest being programmed
  fatal : List FailEntry := []               -- fatal failure entries applied (R444)
  lanes : List Nat := []                     -- Ethernet lanes found failing: port × 8 + lane
  down : Bool := false                       -- a shutdown has been asked for
  ddrTest : Bool := false                    -- the shutdown's DDR bit
  test : Bool := false                       -- the shutdown's mode is TEST
  from' : Nat := 0                           -- TIME at which TESTING began
  vmin : Nat := 0                            -- what the record reports: lowest VCORE, hottest junction, duration
  tjMax : Int := 0
  lasted : Nat := 0
  fails : List FailEntry := []
  complete : Bool := false
deriving DecidableEq, Repr

/-! ## Tiles (05-08) -/

/-- One matrix engine's internal state. -/
structure Eng where
  banks : List Bank := [Bank.clear, Bank.clear]
  owners : List Nat := [0, 0]         -- 0 idle, 1 steps, 2 drain, 3 vector unit
  inject : Option (Nat × Nat) := none -- armed injection (row, column)
  group : Nat := 0                    -- product groups since the launch started
  busy : Bool := false
  stall : Option (Nat × Nat) := none   -- a step waits: since TIME, with a cause of Table 8.6
  dstall : Option (Nat × Nat) := none  -- a drain waits
deriving DecidableEq, Repr

/-- An item on its way to a collect channel: bytes, or values to be rounded where they are placed (R155). -/
structure OutItem where
  data : List Nat
  fmt : Nat := 0
  vals : List NumVal := []    -- not empty: stochastic conversion at the TAKE
  ovf : Bool := false
  seed : Nat := 0
deriving DecidableEq, Repr

/-- An active loop: counter, first instruction, instruction after the body, iterations left. -/
structure LoopSt where
  n : Nat
  first : Nat
  after : Nat
  left : Nat
deriving DecidableEq, Repr

/-- Where a memory request stands. -/
inductive ReqSt where
  | new | xlat | page | credit | zero | bucket | place | model | window | fill | sent | bi | go   -- bucket: itself or its fill
deriving DecidableEq, Repr

/-- One memory request of a channel (at most 64 bytes, R323), with the scratch side of its piece. -/
structure Req where
  st : ReqSt
  write : Bool
  addr : Nat
  len : Nat
  scr : Nat            -- scratch address of its first byte; for F6, of its piece
  piece : Nat          -- F6: piece bytes on the scratch side; 0 otherwise
  pieceMem : Nat       -- F6: memory address of the piece
  last : Bool          -- last request of its piece
  tok : Nat            -- number of the request in its channel
  since : Nat          -- TIME at which it began to wait in its present state
  worst : Nat × Nat := (0, 0)   -- reason of Table 8.6 that held it longest so far, and how long
  tgt : Nat := 0                -- translated address: device physical, or the host's
  port : Option Nat := none     -- port of a translated host request
  untrans : Bool := false       -- sent untranslated (R331)
  after : Bool := false         -- its page request was answered with Success (R338)
deriving DecidableEq, Repr

/-- A SIGT not yet in effect: token, count, the requests and the lines it waits for. -/
structure Sig where
  token : Nat
  count : Nat
  reqs : Nat
  lines : Nat
deriving DecidableEq, Repr

/-- A presented line (R175, R176): its address and A3 at its EMIT, whether it is skewed, its four quarters as read so far,
and the scale bytes of each quarter. -/
structure PLine where
  addr : Nat
  a3 : Nat
  skew : Bool
  quarters : List (Option (List Nat))
  scales : List (List Nat)
deriving DecidableEq, Repr

/-- What a channel waits for. -/
inductive ChWait where
  | no | token (t n : Nat) | data | sink
deriving DecidableEq, Repr

/-- One channel with its stroke (R169-R179). -/
structure Chan where
  active : Bool := false
  flags : Nat := 0
  swz : Nat := 0
  lineBytes : Nat := 0
  pitch : Nat := 0
  btab : Nat := 0
  prog : List Nat := []
  base : List Nat := [0, 0, 0, 0]
  pc : Nat := 0
  a : List Nat := [0, 0, 0, 0]
  loops : List LoopSt := []
  phase : Bool := false
  rearms : Nat := 0
  wait : ChWait := .no
  reqs : List Req := []
  issued : Nat := 0
  done : Nat := 0
  sigs : List Sig := []
  lines : List PLine := []
  emits : Nat := 0         -- EMITs since the stroke was armed
  items : List OutItem := []        -- collect channels: rows or lines waiting for a TAKE
  f6 : List Nat := []               -- memory-side bytes of an F6 piece fetched so far
deriving DecidableEq, Repr

/-- A REP in force: body length, position in the body, iterations left (R151). -/
structure RepSt where
  len : Nat
  pos : Nat
  left : Nat
deriving DecidableEq, Repr

/-- The vector unit of a tile (R148). -/
structure Vec where
  v : Tbl Nat := []        -- V0-V30 by number, 2,048 bits each
  m : List Nat := List.replicate 8 0
  s : List Nat := List.replicate 16 0
  claims : Nat := 0
  claimWait : Option Nat := none   -- 2e + b of a waiting ACLAIM
  reps : List RepSt := []
  outFull : Bool := false
  inEmpty : Bool := false
  aload : List Nat := []           -- bytes an ALOAD has taken from IN so far
  stall : Option (Nat × Nat) := none   -- an instruction waits on IN, OUT or a bank: since TIME, with its cause
deriving DecidableEq, Repr

/-- The selection unit of a tile (R158): list in rank order. -/
structure Sel where
  init : Bool := false
  k : Nat := 0
  ord : Bool := false
  list : List (Nat × Nat) := []    -- FP32 score, INT32 id
  merging : Bool := false
deriving DecidableEq, Repr

/-- How far a task is. -/
inductive TaskSt where
  | loaded | run | semWait (n hold : Nat) | saving | restoring | done
deriving DecidableEq, Repr

/-- The task on a tile. -/
structure Task where
  cid : Nat
  idx : Nat
  shadow : Bool
  st : TaskSt
  yieldAt : Nat := 0       -- TIME of its last yield point
  passedSem : List Nat := []
  was : TaskSt := .run            -- where a saved task resumes
  miss : Option Nat := none       -- TIME at which it began to wait for a model load (R394)
  live : List (Nat × Nat) := []   -- scratch locations live at the yield point it is at, as (first, length)
deriving DecidableEq, Repr

/-- One tile. -/
structure Tile where
  eng : List Eng := [{}, {}]
  vec : Vec := {}
  sel : Sel := {}
  chans : Tbl Chan := []
  tokens : List Nat := List.replicate 16 0
  scratch : Tbl Nat := []      -- by location in the banks (R166): byte + 1; an unlisted location reads as `undef` says
  undef : Option Nat := none   -- none: 0; else the first of the free values that unlisted locations read as (R385)
  task : Option Task := none
  frame : List Nat := []       -- of a saved tile: control words and sticky flags (R120, R385)
  reprobe : Bool := false      -- barred under R124 until re-probed
deriving DecidableEq, Repr

/-- A tile in reset. -/
def Tile.reset : Tile := {}

/-- An in-flight entry of a cluster cache: the line and its waiting requests (tile, channel, request number). -/
structure Fill where
  line : Nat
  alloc : Bool
  admitted : Bool
  wait : List (Nat × Nat × Nat)
  pin : Option Nat := none -- the command whose window it fills (R267)
  heal : Bool := false     -- it has read and waits for the recovery of a sector (R286)
deriving DecidableEq, Repr

/-- A cluster cache: 128-byte lines held, most recently used first, besides those the model cache pins; in-flight entries. -/
structure Cache where
  lines : List Nat := []
  fills : List Fill := []
  queue : List (Nat × Nat × Nat) := []   -- requests that wait for a place, in order of arrival (R182)
deriving DecidableEq, Repr

/-- A die merge (R161): launch, lists wanted, members so far, collector, and whether a merge unit has it. -/
structure Merge where
  die : Nat
  cid : Nat
  shadow : Bool
  lists : Nat
  members : List Nat
  collector : Option Nat
  full : Option Nat := none    -- TIME of the last SMERGE
  unit : Bool := false
  read : List (Nat × Nat) := []  -- every list, as its merge unit read it
deriving DecidableEq, Repr

/-! ## Shared units (09-11) -/

/-- A pool of a shard (Table 9.3). -/
structure TPool where
  base : Nat
  slots : Nat
  cls : Nat
deriving DecidableEq, Repr

/-- A shard entry (Table 9.3). -/
structure ShardEnt where
  die : Nat
  copy : Nat
  dir : Nat
  count : Nat
  pools : List TPool
deriving DecidableEq, Repr

/-- A shard map as a table engine keeps it (R193). -/
structure TeMap where
  eng : Nat
  table : Nat
  ents : List ShardEnt
  upto : Option Nat := none   -- passes that start from then on read the map again: count of writes to TE_MAP_INVAL (Table 9.14)
deriving DecidableEq, Repr

/-- Where one distinct row of a pass stands. -/
inductive RowSt where
  | waiting | gettingDir | gettingRow | done
deriving DecidableEq, Repr

/-- One distinct row of a lookup pass: its owning engine and sub-pass, the index and its place, and the occurrences that use it: bag, weight,
place in the bag. -/
structure TeRow where
  eng : Nat
  sub : Nat
  idx : Nat
  die : Nat
  row : Nat
  remote : Option (Nat × Nat) := none   -- rank and flow
  dflt : Bool := false                  -- the default row, for invalid indices
  occ : List (Nat × Nat × Nat)
  st : RowSt := .waiting
  op : Nat := 0                         -- the get in flight for it
  entry : Nat := 0                      -- its directory entry
deriving DecidableEq, Repr

/-- The partial pool of one bag at one engine: accumulators, or the FP32 maxima so far. -/
structure TePool where
  eng : Nat
  bag : Nat
  bank : Bank := Bank.clear
  mx : List Nat := []
  nan : List (Nat × Nat × Bool) := []   -- of an element with NaN operands: element, least place of one in the bag, its sign (R139)
deriving DecidableEq, Repr

/-- One pass of a lookup request. -/
structure TePass where
  entry : List Nat          -- the pass entry of Table 9.8
  home : Nat := 0           -- home engine
  started : Bool := false
  done : Bool := false
  since : Option Nat := none -- when it first found no engine to take it (R213)
  epoch : Nat := 0          -- the epoch latched at its start (R206)
  gen : Nat := 0            -- writes to TE_MAP_INVAL before its start
  lens : List Nat := []     -- N of each bag
  rows : List TeRow := []
  pools : List TePool := []
  flags : Nat := 0
deriving DecidableEq, Repr

/-- A lookup request in progress, of a LOOKUP command or of a launch. -/
structure TeCmd where
  passes : List TePass := []
  die : Nat := 0            -- home die
  launch : Bool := false
deriving DecidableEq, Repr

/-- One distinct row of an update pass with its combined gradient in FP32. -/
structure UpdRow where
  eng : Nat
  die : Nat
  row : Nat
  idx : Nat
  n : Nat                   -- gradient rows combined in it
  g : List Nat
  done : Bool := false
deriving DecidableEq, Repr

/-- Where an update pass stands: waiting for its start, applying rows, waiting for its step advance, for its epoch flip, or
done. -/
inductive UpdSt where
  | waiting | running | advance | flip | done
deriving DecidableEq, Repr

/-- One pass of an update request. -/
structure UpdPass where
  entry : List Nat          -- the pass entry of Table 10.2
  home : Nat := 0           -- home engine
  st : UpdSt := .waiting
  since : Option Nat := none -- when it first found no engine to take it (R213)
  gen : Nat := 0            -- writes to TE_MAP_INVAL before its start
  hyper : List Nat := []    -- the FP32 values of Table 10.3
  smap : List Nat := []     -- the state map
  rows : List UpdRow := []
deriving DecidableEq, Repr

/-- An update request in progress. -/
structure UpdCmd where
  passes : List UpdPass := []
  die : Nat := 0
  seed : Nat := 0
deriving DecidableEq, Repr

/-- One entry of a reduction request, with its operands as read: operand, compare value, operand scale, destination. -/
structure RedEnt where
  entry : List Nat
  dst : List Nat
  src : List Nat
  cmp : List Nat
  sscale : List Nat
  done : List Nat := []     -- elements applied or held
deriving DecidableEq, Repr

/-- A reduction request in progress. -/
structure RedCmd where
  ents : List RedEnt := []
  rank : Nat := 0
  ordered : Bool := false
  close : Bool := false
  epoch : Nat := 0
deriving DecidableEq, Repr

/-- One held contribution (R236). -/
structure HeldRed where
  part : Nat
  epoch : Nat
  rank : Nat
  entry : Nat
  elem : Nat
  die : Nat
  addr : Nat
  op : Nat
  typ : Nat
  src : Nat
  sscale : Nat
  dscale : Nat              -- address of the destination's scale, plus one; 0: none
deriving DecidableEq, Repr

/-- A session request in progress: its entries and which are applied. -/
structure SesCmd where
  ents : List (List Nat) := []
  done : List Bool := []
  result : Nat := 0
deriving DecidableEq, Repr

/-- A sector in a hot-row cache, with the table and the partition it is counted against. -/
structure HotEnt where
  sector : Nat
  table : Nat
  part : Nat
deriving DecidableEq, Repr

/-- What the stores of one update command have put into CUR of a scaling record since its last step advance (R147): the record, the command
and the TIME of its stamp check, the largest exponent byte. -/
structure CurNote where
  record : Nat
  cid : Nat
  at' : Nat
  val : Nat
deriving DecidableEq, Repr

/-- A migration in progress (R231, R232). -/
structure Mig where
  die : Nat
  table : Nat
  row : Nat
  oldPool : Nat
  oldSlot : Nat
  newPool : Nat
  newSlot : Nat
  delta : List Nat := []                -- FP32 values of the delta buffer
  flipped : Bool := false
  since : Nat                           -- TIME of MIGRATING
  readers : List (Nat × Nat) := []      -- passes that read the entry before the flip: command, pass
deriving DecidableEq, Repr

/-- A table in use (R228, R229). -/
structure TabSt where
  epoch : Nat := 0
  catching : Bool := false              -- catch-up of the last flip not complete
  copying : Bool := false               -- every pass of the old epoch is done and the copy runs
  dirty : List (Nat × Nat) := []        -- dirty log of the epoch: die, local row
  ovf : List Nat := []                  -- dies whose log overflowed in the epoch
  copy : List (Nat × Nat) := []         -- rows still to be caught up
  copyAll : List Nat := []              -- dies whose whole shard is still to be caught up
  copied : List (Nat × Nat) := []       -- rows of those shards caught up already
deriving DecidableEq, Repr

structure UnitSt where
  te : Tbl TeCmd := []
  upd : Tbl UpdCmd := []
  red : Tbl RedCmd := []
  ses : Tbl SesCmd := []
  maps : List TeMap := []
  mapGen : Nat := 0                     -- writes to TE_MAP_INVAL
  hot : List (List HotEnt) := List.replicate 8 []   -- most recently used first
  tabs : Tbl TabSt := []
  migs : List Mig := []
  offers : List (Nat × Nat × Nat) := []   -- die, table, local row
  curs : List CurNote := []
  sweeping : List Nat := []               -- dies whose sweep of the session store is in progress (Table 11.11)
  held : List HeldRed := []
deriving DecidableEq, Repr

/-! ## Quill (18) -/

/-- A Quill packet of a flow, waiting to be sent or sent and not acknowledged. -/
structure TxPkt where
  kind : Nat
  opid : Nat
  op : Nat := 0             -- own operation; 0: a response or an ABORT
  cid : Option Nat := none
  psn : Nat := 0
  flags : Nat := 0
  fields : List Nat := []
  data : List Nat := []
  off : Nat := 0            -- offset of its data in its operation
  die : Option Nat := none  -- the die whose task or engine sends it; none: that of the port it leaves through
  sends : Nat := 0
  sentAt : Nat := 0
  txseq : Nat := 0
  via : Nat × Nat := (0, 0)
  refused : Option Nat := none   -- TIME of a NAK with NOT_READY, after which it is sent again
  again : Option Bool := none    -- its next sending waits for the regulator (R270), and whether it counts as a retransmission
deriving DecidableEq, Repr

/-- One flow (R405-R419). PSNs are counted without wrapping. -/
structure Flow where
  st : Nat := 0
  err : Nat := 0
  keys : List Nat := List.replicate 12 0   -- as written
  keySet : Nat := 0                        -- which have been written since the flow was last FREE
  tx : List Nat := []                      -- sending key in use
  rx : List Nat := []                      -- receiving key
  rxNext : Option (List Nat) := none       -- receiving key of the next epoch
  epoch : Bool := false
  rxEpoch : Bool := false
  retireAt : Option Nat := none            -- TIME at which the old receiving key is retired
  psn : Nat := 0                           -- PSN of the next packet
  cum : Nat := 0                           -- packets cumulatively acknowledged
  held : Nat := 8
  txseq : Nat := 0
  cwnd : Nat := 4096
  srtt : Nat := 0
  rtts : List (Nat × Nat) := []            -- TIME and RTT of the samples of the last 10 ms
  lastCut : Nat := 0
  queue : List TxPkt := []
  sent : List TxPkt := []
  advance : Nat := 0                       -- TIME at which an acknowledgement last advanced, or packets became outstanding
  ip : Nat := 0
  active : Option Nat := none
  rcum : Nat := 0                          -- packets received without a gap
  rgot : List Nat := []
  limit : Nat := 8                         -- PSNs below this are granted
  granted : Nat := 8
  owed : Nat := 0                          -- sequenced packets that no ACK covers, and TIME of the first
  owedAt : Nat := 0
  ece : Bool := false
  echo : Nat := 0
  high : List Nat := [0, 0]                -- highest TXSEQ seen plus one, by epoch
  seen : List (List Nat) := [[], []]
  viols : List Nat := []
  viol : Nat := 0
  unreported : Nat := 0
  nakAt : Option Nat := none
  blotAt : Option Nat := none
  retx : Nat := 0
  ackDue : Bool := false                   -- an ACK waits for its regulator (R270)
  nakDue : List (Nat × Nat × Nat) := []    -- NAKs that wait for their regulator: PSN, REASON, ECHO
deriving DecidableEq, Repr

/-- One Quill operation of this device. -/
structure QOp where
  id : Nat
  kind : Nat                -- Table 18.9; 8 a get of a lookup, 9 its count update
  fence : Bool := false
  cid : Nat
  task : Nat := 0
  tile : Nat := 0
  token : Option Nat := none
  group : Option Nat := none
  flows : List Nat := []    -- by rank for a group; the flow otherwise
  my : Nat := 0
  dtype : Nat := 0
  rop : Nat := 0
  loc : Nat := 0
  rem : Nat := 0
  len : Nat := 0
  seq : Nat := 0
  stage : Nat := 0
  got : List (Nat × Nat × Nat × Nat) := []  -- received parts: step, rank, offset, bytes
  data : List Nat := []     -- what a get of a lookup received
  src : List Nat := []      -- a collective's local data
  combined : Bool := false
  fan : Nat := 0            -- bytes of a multicast sent to the fan-out
  ejected : List Nat := []
deriving DecidableEq, Repr

/-- A group (R426): its flows in rank order as read when it was defined, and its collectives that are complete or aborted. -/
structure GrpSt where
  flows : List Nat := []
  ended : List Nat := []
deriving DecidableEq, Repr

/-- A task's post ring (R420): descriptors taken, and the tail last posted. -/
structure PostSt where
  head : Nat := 0
  tail : Nat := 0
deriving DecidableEq, Repr

structure FabSt where
  flows : Tbl Flow := []
  groups : Tbl GrpSt := []
  ops : List QOp := []
  nextOp : Nat := 1
  rings : Tbl PostSt := []   -- key: command × 32 + task
  naks : List Nat := []      -- TIMEs of the NAKs of the last second
  devSet : Bool := false     -- FAB_DEV_ADDR has been written
deriving DecidableEq, Repr

/-! ## Memory (12, 13) -/

/-- What a 64-byte sector carries besides its bytes. -/
structure Sector where
  crc : Bool := false      -- written under DETECT_CRC
  poison : Bool := false
  recover : Bool := false  -- recovery from a replica in progress
  lost : Bool := false     -- its replica failed too (R287)
  told : Bool := false     -- LINE_POISONED has been written for it since it was last written whole (R287)
  joined : List (Nat × Nat × Nat) := []   -- readers that wait for the recovery: SOURCE kind and number, command plus one
  served : List (Nat × Nat × Nat) := []   -- in a retired page: readers to which its replica's data is to be delivered (R290)
deriving DecidableEq, Repr

/-- What waits for admission: a request of a tile's channel, a fill of a cluster cache, the DirtyEvict of a host line, or the
traffic of a shared unit. -/
inductive Adm where
  | unit
  | req (t c tok : Nat)
  | fill (cluster line : Nat)
  | evict (die addr : Nat)
deriving DecidableEq, Repr

/-- A waiting request with the command it is charged to. -/
structure BWait where
  cid : Nat
  bytes : Nat
  tgt : Adm
deriving DecidableEq, Repr

/-- A bucket's tokens, waiting requests and rotation (R269, R271). -/
structure Bucket where
  tokens : Int := 0
  waits : List BWait := []
  spent : List (Nat × Nat) := []    -- command, bytes admitted in the interval
  lastQ : Nat := 0
  waitFrom : Option Nat := none
  grants : List (Nat × Nat) := []   -- command, bytes admitted for a shared unit's traffic that has not moved yet
deriving DecidableEq, Repr

/-- Traffic that the command under way has moved and not yet paid for (R270): partition, command, bucket, bytes, and the unit. -/
structure Due where
  part : Nat
  cid : Nat
  slot : Nat
  bytes : Nat
  src : Src
deriving DecidableEq, Repr

/-- A DRAM bank's sparing (R289): spares used; and failing rows. -/
structure MemSt where
  sectors : Tbl Sector := []
  due : List Due := []                 -- empty between commands
  med : Sectors := []                  -- how the sectors turn out that the command under way reaches; empty between commands
  sramCe : Nat := 0                    -- SRAM errors of one bit corrected and counted (R282)
  buckets : Tbl Bucket := []           -- key: partition × 32 + slot; inbound HOST buckets at slots 26 and 27
  spares : Tbl Nat := []               -- spares used, by stack bank
  remaps : List (Nat × Nat × Nat) := []  -- stack bank, row, number of the spare it was directed to
  failing : List Nat := []             -- sectors poisoned since their row was last remapped (R289)
  corrected : List (Nat × Nat) := []   -- sector, TIME of corrected errors
  pages : List Nat := []               -- page-retirement list
  pageSer : Tbl Nat := []              -- serial of the module of its T2 entries, plus one
  modSer : Tbl Nat := []               -- serial of the module of each DDR channel, plus one
  lostPages : List Nat := []           -- retired while the list was full
  ppr : Tbl Nat := []                  -- DDR rows repaired, by channel
  hppr : List (Nat × Nat × Nat) := []  -- DDR channel, bank and row recorded for hard repair
  refresh : List Bool := List.replicate 8 false
  cap : List (Option Nat) := List.replicate 8 none   -- capped pace
  capDue : List Bool := List.replicate 8 false
  halt : List Bool := List.replicate 8 false
  drainT2 : Bool := false              -- T2 still being zeroed after STAGE 6
deriving DecidableEq, Repr

/-- The pins (22). True is high. -/
structure Pins where
  resetN : Bool
  perst : List Bool
  hotN : Bool
  thermtripN : Bool
deriving DecidableEq, Repr

/-! ## The block -/

/-- The state of the block. -/
structure State where
  pending : List Instr          -- commands waiting, first in first out
  regs : Tbl Word               -- BAR0 registers; unlisted keys read their reset value
  latch : Tbl Nat               -- upper halves latched by a lower-half read; key: port × 2²⁶ + register (R12, R482)
  held : Tbl Nat                -- lower halves held by a write, plus one; same keys
  mem : List Host.Cell          -- device memory by slice address; an unlisted byte reads 0
  pace : PaceSt
  flt : FltSt
  host : HostSt
  xlat : XlatSt
  sched : SchedSt
  folio : FolioSt
  tiles : Tbl Tile
  saved : Tbl Tile              -- save frames: key command × 32 + task (R385)
  units : UnitSt                -- shared units' work
  fab : FabSt                   -- Quill
  caches : Tbl Cache            -- cluster caches
  merges : List Merge
  memc : MemSt
  flash : FlashSt
  nib : NibSt
  pins : Pins
  free : Nat                    -- free values used so far
  out : List Out                -- everything emitted, oldest first
deriving DecidableEq, Repr

/-- Pace state of a die at the power-on start (R36, R484). -/
def DiePace.reset : DiePace := ⟨0, false, false, 0, 800, 0, 0, 800, false⟩

/-- Pace and TIME at the power-on start (R40). -/
def PaceSt.reset : PaceSt := ⟨List.replicate 8 DiePace.reset, 0, 0, 0, 0, 0, false, true, false, 0, false⟩

/-- The block held in reset, before its first power-on start: every register at the value of its table, flash and fuses
as the log entry says (R488). -/
def State.reset : State :=
  { pending := [], regs := [], latch := [], held := [], mem := [], pace := PaceSt.reset, flt := {}, host := {}, xlat := {},
    sched := {}, folio := {}, tiles := [], saved := [], units := {}, fab := {}, caches := [], merges := [], memc := {}, flash := {}, nib := {}, pins := ⟨false, [false, false], true, true⟩,
    free := 0, out := [] }

end Sys2Proof.Machine
end

