-- ==== Sys2Proof/Machine/Ops.lean ====
section
/-!
DEFINITION. The named operations over registers, memory, the folio's records, commands, tiles and blot rings that every
meaning is written with.
-/
namespace Sys2Proof.Machine

/-! ## Registers -/

/-- The value register key `k` holds (R9): what was last written, or its reset value. -/
def State.reg (s : State) (k : Nat) : Nat := (Tbl.get (BitVec.ofNat 64 (regReset k)) s.regs k).toNat

/-- Register key `k` set to `v`. -/
def State.setReg (s : State) (k v : Nat) : State :=
  { s with regs := Tbl.set (BitVec.ofNat 64 (regReset k)) s.regs k (BitVec.ofNat 64 v) }

/-- Field [hi:lo] of register `k`. -/
def State.field (s : State) (k hi lo : Nat) : Nat := bits (s.reg k) hi lo

/-- Field [hi:lo] of register `k` set to `x`. -/
def State.setField (s : State) (k hi lo x : Nat) : State := s.setReg k (setBits (s.reg k) hi lo x)

/-- Counter `k` of `w` bits raised by `n`, saturating (R13). -/
def State.bump (s : State) (k w n : Nat) : State := s.setReg k (satAdd w (s.reg k) n)

/-- Key of the latch and hold of a function for a register (R12, R482). -/
def halfKey (port k : Nat) : Nat := port * 2 ^ 26 + k

/-- A held value, plus one; 0: none. -/
def State.setHeld (s : State) (key v : Nat) : State := { s with held := Tbl.set 0 s.held key v }

/-- A latched upper half, plus one; 0: none. -/
def State.setLatch (s : State) (key v : Nat) : State := { s with latch := Tbl.set 0 s.latch key v }

/-- A 64-bit access to the register at `k`: a held lower half and a latched upper half of it are discarded (R12). -/
def State.whole64 (s : State) (port k : Nat) : State := (s.setHeld (halfKey port k) 0).setLatch (halfKey port k) 0

/-- Register `k` raised to at least `n`, within `w` bits: a longest-time or most-in-use register. -/
def State.maxReg (s : State) (k w n : Nat) : State := s.setReg k (max (s.reg k) (min n (2 ^ w - 1)))

/-! ## Output and free values -/

/-- `o` emitted. -/
def State.emit (s : State) (o : Out) : State := { s with out := s.out ++ [o] }

/-- The next free value (log entry 3). -/
def State.freeVal (s : State) : Nat := Config.freeValue s.free

/-- One free value used. -/
def State.useFree (s : State) : State := { s with free := s.free + 1 }

/-- TIME kept within its 64 bits: it never decreases, so it stays at its largest value (R40, log entry 189). -/
def timeTop (n : Nat) : Nat := min n (2 ^ 64 - 1)

/-- TIME (R40). -/
def State.time (s : State) : Nat := s.pace.time

/-- The block acts on commands: RESET_N is high and THERMTRIP_N has not been driven low (R488, R493). -/
def State.alive (s : State) : Bool := s.pins.resetN && s.pins.thermtripN

/-! ## Tiles, channels, queues and commands -/

/-- Tile `t`. -/
def State.tile (s : State) (t : Nat) : Tile := Tbl.get Tile.reset s.tiles t

/-- Tile `t` replaced. -/
def State.setTile (s : State) (t : Nat) (x : Tile) : State := { s with tiles := Tbl.set Tile.reset s.tiles t x }

/-- Tile `t` changed by `f`. -/
def State.updTile (s : State) (t : Nat) (f : Tile → Tile) : State := s.setTile t (f (s.tile t))

/-- Channel `c` of a tile. -/
def Tile.chan (x : Tile) (c : Nat) : Chan := Tbl.get {} x.chans c

/-- Channel `c` of a tile replaced. -/
def Tile.setChan (x : Tile) (c : Nat) (ch : Chan) : Tile := { x with chans := Tbl.set {} x.chans c ch }

/-- Channel `c` of tile `t`. -/
def State.chan (s : State) (t c : Nat) : Chan := (s.tile t).chan c

/-- Channel `c` of tile `t` changed by `f`. -/
def State.updChan (s : State) (t c : Nat) (f : Chan → Chan) : State :=
  s.updTile t (fun x => x.setChan c (f (x.chan c)))

/-- Engine `e` of a tile. -/
def Tile.engine (x : Tile) (e : Nat) : Eng := nth x.eng e {}

/-- Engine `e` of tile `t` changed by `f`. -/
def State.updEng (s : State) (t e : Nat) (f : Eng → Eng) : State :=
  s.updTile t (fun x => { x with eng := updAt x.eng e f })

/-- Queue `q`. -/
def State.queue (s : State) (q : Nat) : Queue := Tbl.get {} s.sched.queues q

/-- Queue `q` changed by `f`. -/
def State.updQueue (s : State) (q : Nat) (f : Queue → Queue) : State :=
  { s with sched := { s.sched with queues := Tbl.upd {} s.sched.queues q f } }

/-- The key of the command of queue `q` with stamp sequence `seq`. -/
def cidOf (q seq : Nat) : Nat := q * 2 ^ 23 + seq

/-- Command `cid`. -/
def State.cmd (s : State) (cid : Nat) : Cmd := Tbl.get {} s.sched.cmds cid

/-- Command `cid` replaced. -/
def State.setCmd (s : State) (cid : Nat) (c : Cmd) : State :=
  { s with sched := { s.sched with cmds := Tbl.set {} s.sched.cmds cid c } }

/-- Command `cid` changed by `f`. -/
def State.updCmd (s : State) (cid : Nat) (f : Cmd → Cmd) : State := s.setCmd cid (f (s.cmd cid))

/-- Whether command `cid` exists. -/
def State.hasCmd (s : State) (cid : Nat) : Bool := (s.cmd cid).st != .none

/-- Die of tile `t` (Table 0.4). -/
def dieOfTile (t : Nat) : Nat := t / 16

/-- Cluster (die × 4 + cluster) of tile `t`. -/
def clusterOfTile (t : Nat) : Nat := t / 4

/-! ## The folio's records (03) -/

/-- A little-endian field of a record. -/
def Rec.f (r : Rec) (off size : Nat) : Nat :=
  ((r.data.drop off).take size).foldr (fun b a => b % 256 + 256 * a) 0

/-- Section types (Table 3.3). -/
def secPackage : Nat := 1
def secPartition : Nat := 2
def secSegment : Nat := 3
def secRegulator : Nat := 4
def secQueue : Nat := 5
def secModel : Nat := 6
def secTable : Nat := 7
def secReplica : Nat := 8
def secFirmware : Nat := 9
def secRetire : Nat := 10

/-- The records of one type in a configuration. -/
def recsOf (cfg : List Rec) (typ : Nat) : List Rec := cfg.filter (fun r => r.typ == typ)

/-- An element put before the first one it may precede. -/
def insertBy {α : Type} (le : α → α → Bool) (x : α) : List α → List α
  | [] => [x]
  | y :: l => if le x y then x :: y :: l else y :: insertBy le x l

/-- A list in rising order; equals keep their order. -/
def sortBy {α : Type} (le : α → α → Bool) (l : List α) : List α := l.foldr (insertBy le) []

/-- PART_ID of a record that has one at byte `off`. -/
def Rec.part (r : Rec) (off : Nat) : Nat := bits (r.f off 1) 3 0

/-- The PARTITION record of `p` (Table 3.5). -/
def cfgPart (cfg : List Rec) (p : Nat) : Option Rec := (recsOf cfg secPartition).find? (fun r => r.part 0 == p)

/-- The SEGMENT records of `p` (Table 3.6). -/
def cfgSegs (cfg : List Rec) (p : Nat) : List Rec := (recsOf cfg secSegment).filter (fun r => r.part 0 == p)

/-- The SEGMENT record of `p` with SEG_ID `i`. -/
def cfgSeg (cfg : List Rec) (p i : Nat) : Option Rec := (cfgSegs cfg p).find? (fun r => r.f 4 2 == i)

/-- The QUEUE record of QUEUE_ID `q` (Table 3.8). -/
def cfgQueue (cfg : List Rec) (q : Nat) : Option Rec := (recsOf cfg secQueue).find? (fun r => r.f 0 2 == q)

/-- The MODEL record of partition `p` and MODEL_ID `m` (Table 3.9). -/
def cfgModel (cfg : List Rec) (p m : Nat) : Option Rec :=
  (recsOf cfg secModel).find? (fun r => r.f 0 4 == m && r.part 4 == p)

/-- The PACKAGE record (Table 3.4), all zero without one. -/
def cfgPackage (cfg : List Rec) : Rec := ((recsOf cfg secPackage).head?).getD ⟨secPackage, []⟩

/-- The TABLE record of TABLE_ID `t` (Table 3.10). -/
def cfgTable (cfg : List Rec) (t : Nat) : Option Rec := (recsOf cfg secTable).find? (fun r => r.f 4 4 == t)

/-- The REGULATOR record of `p` for a resource slot (12 R278): STACK d at d, DDR d at 8 + d, HOST i at 16 + i, FABRIC n at 18 + n. -/
def cfgReg (cfg : List Rec) (p slot : Nat) : Option Rec :=
  (recsOf cfg secRegulator).find? (fun r => r.part 0 == p && r.f 2 1 + nth [0, 8, 16, 18] (r.f 1 1) 0 == slot)

/-- Whether a unit (UNIT 0 tile, 1 cluster, 2 table engine) is retired (R69). -/
def State.retired (s : State) (unit num : Nat) : Bool := s.folio.retired.any (fun u => u.1 == unit && u.2.1 == num)

/-- Whether tile `t` is retired, itself or with its cluster. -/
def State.tileRetired (s : State) (t : Nat) : Bool := s.retired 0 t || s.retired 1 (clusterOfTile t)

/-- The clusters of partition `p` that are not retired, as a mask (PART_p_CLUSTERS). -/
def State.clusters (s : State) (p : Nat) : Nat :=
  match cfgPart s.folio.active p with
  | none => 0
  | some r => (bitList 32 (r.f 4 4)).foldl (fun a c => if s.retired 1 c then a else a + 2 ^ c) 0

/-- The home die of partition `p`: the die of its lowest cluster that is not retired (R344). -/
def State.homeDie (s : State) (p : Nat) : Option Nat := ((bitList 32 (s.clusters p)).head?).map (· / 4)

/-- The partitions of the folio in force. -/
def State.parts (s : State) : List Nat := (upto 16).filter (fun p => (cfgPart s.folio.active p).isSome)

/-- The partitions that own a cluster on die `d`. -/
def State.dieOwners (s : State) (d : Nat) : List Nat :=
  s.parts.filter (fun p => bits (s.clusters p) (4 * d + 3) (4 * d) != 0)

/-- The tiles of partition `p` that are not retired, rising. -/
def State.partTiles (s : State) (p : Nat) : List Nat :=
  (upto 128).filter (fun t => bit (s.clusters p) (clusterOfTile t) && !s.tileRetired t)

/-- State of partition `p` (Table 3.16). -/
def State.partState (s : State) (p : Nat) : Nat := s.field (0x20100 + 0x20 * p) 2 0

/-- Partition `p` serves. -/
def State.serving (s : State) (p : Nat) : Bool := s.partState p == 1

/-- PKG_STATE (Table 3.18). -/
def State.pkgState (s : State) : Nat := s.field 0x20000 11 8

/-- The start stage in NIB_BOOT_STATUS. -/
def State.stage (s : State) : Nat := s.field 0x800000 3 0

/-- Whether registers outside the NIB block and GLB_ID take writes: not while STAGE reads 0xF (R440). -/
def State.regsOpen (s : State) : Bool := s.stage != 15

/-- The die whose nib leads the package (R475). -/
def State.leadDie (s : State) : Nat := if s.field 0x800000 5 5 = 1 then 4 else 0

/-! ## Addresses and memory (12, 15) -/

/-- Bytes of one GiB. -/
def giB : Nat := 2 ^ 30

/-- Size of one T1 slice. -/
def sliceSize : Nat := 0xC00000000

/-- Mapped bytes of the T2 region of die `d` (R261, R274): twice one module's capacity, none for a disabled pair. -/
def State.t2Size (s : State) (d : Nat) : Nat :=
  let st := s.reg (0x104000 + 0x40 * (2 * d))
  if bit st 0 && bit st 2 && !bit st 1 then 2 * bits st 31 22 * giB else 0

/-- Window `w` is defined (R262, R275). -/
def State.t3Defined (s : State) (w : Nat) : Bool :=
  let c := s.reg (0x106000 + 0x40 * w)
  let st := s.reg (0x320000 + 0x100 * (w % 2))
  w < (cfgPackage s.folio.active).f 6 1 && bit c 0 && (bit c 1 || bits st 3 1 == 3 || !bit st 0)

/-- The physical byte a device address reaches (R258-R262): the slice address for either view of T1, the address itself in
T2 and T3; none where nothing is mapped. -/
def State.phys (s : State) (a : Nat) : Option Nat :=
  if a < 8 * sliceSize then some a
  else if 0x8000000000 ≤ a && a < 0xE000000000 then
    let o := a - 0x8000000000
    let g := o / 4096
    some (g % 8 * sliceSize + g / 8 * 4096 + o % 4096)
  else if 0x10000000000 ≤ a && a < 0x50000000000 then
    let o := a - 0x10000000000
    if o % 0x8000000000 < s.t2Size (o / 0x8000000000) then some a else none
  else if 0x80000000000 ≤ a && a < 0x180000000000 then
    let o := a - 0x80000000000
    let w := o / 0x20000000000
    if s.t3Defined w && o % 0x20000000000 < s.field (0x106000 + 0x40 * w) 13 2 * giB then some a else none
  else none

/-- The tier of a physical address: 1, 2 or 3. -/
def tierOf (a : Nat) : Nat := if a < 0x10000000000 then 1 else if a < 0x80000000000 then 2 else 3

/-- The die that is the point of coherence of a physical address (R23). -/
def dieOfPhys (a : Nat) : Nat :=
  if a < 0x10000000000 then a / sliceSize
  else if a < 0x80000000000 then (a - 0x10000000000) / 0x8000000000
  else if (a - 0x80000000000) / 0x20000000000 % 2 = 0 then 0 else 4

/-- The DDR channel of a T2 address (R261). -/
def chanOfT2 (a : Nat) : Nat :=
  let o := (a - 0x10000000000) % 0x8000000000
  2 * ((a - 0x10000000000) / 0x8000000000) + o / 256 % 2

/-- The window of a T3 address. -/
def windowOf (a : Nat) : Nat := (a - 0x80000000000) / 0x20000000000

/-- The port of window `w` is up and supports its path (R275, R277). -/
def State.t3LinkOk (s : State) (w : Nat) : Bool :=
  let st := s.reg (0x320000 + 0x100 * (w % 2))
  bit st 0 && (if bit (s.reg (0x106000 + 0x40 * w)) 1 then decide (2 ≤ bits st 3 1) else bits st 3 1 == 3)

/-- The address that a T3 byte has at the window's target (R275). -/
def State.t3Target (s : State) (a : Nat) : Nat := s.reg (0x106008 + 0x40 * windowOf a) + (a - 0x80000000000) % 0x20000000000

/-- The key under which the memory keeps a physical byte: the byte itself in T1 and T2; in T3 the target's byte, by path (R275,
log entry 195). -/
def State.cellOf (s : State) (a : Nat) : Nat :=
  if tierOf a = 3 then (2 + bits (s.reg (0x106000 + 0x40 * windowOf a)) 1 1) * 2 ^ 64 + s.t3Target a else a

/-- A request to T3 as its port carries it (R275). -/
def State.t3Emit (s : State) (a : Nat) (write : Bool) (data : List Nat) : State :=
  if tierOf a = 3 then s.emit (.t3 (windowOf a % 2) (bits (s.reg (0x106000 + 0x40 * windowOf a)) 1 1) write (s.t3Target a) data) else s

/-- The bucket that a read or write of a physical address is charged to (Table 12.4): for T3 the inbound or the outbound HOST bucket of
its window's port. -/
def slotOfPhys (a : Nat) (write : Bool) : Nat :=
  if tierOf a = 1 then dieOfPhys a else if tierOf a = 2 then 8 + dieOfPhys a
  else (if write then 16 else 26) + (if dieOfPhys a = 0 then 0 else 1)

/-- The byte of device memory at a physical address; a byte nothing has written reads 0 (log entry 10). -/
def memByte (m : List Host.Cell) (a : Nat) : Byte := Tbl.get 0 m a

/-- `n` bytes of device memory from physical address `a`. -/
def State.readMem (s : State) (a : Nat) : Nat → List Nat
  | 0 => []
  | n + 1 => (memByte s.mem (s.cellOf a)).toNat :: s.readMem (a + 1) n

/-- Bytes written from physical address `a` upward. -/
def memWrite (m : List Host.Cell) (a : Nat) : List Nat → List Host.Cell
  | [] => m
  | b :: bs => memWrite (Tbl.set 0 m a (BitVec.ofNat 8 b)) (a + 1) bs

/-- The canonical form of memory: addresses strictly rising, no byte that reads as an unlisted one. -/
def Memory.wf (m : List Host.Cell) : Bool := Tbl.wf (0 : Byte) m

/-- Sector bookkeeping of the sector that holds physical address `a`. -/
def State.sector (s : State) (a : Nat) : Sector := Tbl.get {} s.memc.sectors (a / 64)

/-- The sector of `a` changed by `f`. -/
def State.updSector (s : State) (a : Nat) (f : Sector → Sector) : State :=
  { s with memc := { s.memc with sectors := Tbl.upd {} s.memc.sectors (a / 64) f } }

/-- The segment of a configuration that covers a physical address, with its partition (R260 judges physical bytes). -/
def State.segAt (s : State) (a : Nat) : Option Rec :=
  (recsOf s.folio.active secSegment).find? (fun r =>
    let b := r.f 8 8
    let l := r.f 16 8
    if r.f 6 1 = 1 then
      let o := a % sliceSize
      (b - 0x8000000000) / 8 ≤ o && o < (l + 1 - 0x8000000000) / 8 && a < 8 * sliceSize
    else b ≤ a && a ≤ l)

/-- SAFFRON_SLOTS of the folio in force is 1,048,576, so the Saffron regions are reserved (R239). -/
def State.saffronOn (s : State) : Bool := (cfgPackage s.folio.active).f 8 4 == 1048576

/-- SAFFRON_BASE(d) (R239). -/
def saffronBase (d : Nat) : Nat := if d = 0 then 0xBC0000000 else d * sliceSize + 0xBE0000000

/-- Whether a physical address lies in a Saffron region that is reserved. -/
def State.saffronByte (s : State) (a : Nat) : Bool :=
  s.saffronOn && a < 8 * sliceSize && saffronBase (a / sliceSize) ≤ a && a < saffronBase (a / sliceSize) + 0x20000000

/-- Whether a physical address lies in a region of Table 12.2. -/
def State.packageByte (s : State) (a : Nat) : Bool :=
  (decide (0xBE0000000 ≤ a) && decide (a < 0xC00000000)) || s.saffronByte a

/-- Whether the page of a physical address is retired (R290). -/
def State.pageRetired (s : State) (a : Nat) : Bool :=
  s.memc.pages.contains (a / 4096) || s.memc.lostPages.contains (a / 4096)

/-- Class of a 64-bit address (Table 15.1): 0 device physical, 1 host virtual, 2 reserved. -/
def addrClass (a : Nat) : Nat :=
  if bits a 63 62 = 0 then (if bits a 61 45 = 0 then 0 else 2)
  else if bits a 63 62 = 1 then (if bits a 61 57 = 0 then 1 else 2)
  else 2

/-- An HV address of the domain without a PASID, as registers and administration commands must give it (R329). -/
def hvOk (a : Nat) : Bool := addrClass a == 1

/-- The virtual address of an HV address. -/
def hvAddr (a : Nat) : Nat := a % 2 ^ 57

/-- The check of a DP request under R326: 0 when allowed, else the cause of Table 15.4. -/
def State.dpCheck (s : State) (ctx : Ctx) (a len : Nat) (rd wr : Bool) : Nat :=
  let inside := ctx.slots.filter (fun x => x.en && !x.lost && x.base ≤ a && a + len - 1 ≤ x.limit)
  if inside.isEmpty then 9
  else if !(inside.any (fun x => (!rd || bit x.perm 0) && (!wr || bit x.perm 1))) then 0xA
  else if (s.phys a).isNone then 0xB
  else 0

/-! ## Host ports -/

/-- Port `p` is up. -/
def State.portUp (s : State) (p : Nat) : Bool := bit (s.reg (0x320000 + 0x100 * p)) 0

/-- MODE of port `p` (Table 14.10): 0 DOWN, 1 PCIE, 2 CXL2, 3 CXL3. -/
def State.portMode (s : State) (p : Nat) : Nat := s.field (0x320000 + 0x100 * p) 3 1

/-- The port die `d` uses (R24). -/
def State.diePort (s : State) (d : Nat) : Option Nat := nth s.host.via d none

/-- The MSI-X table entry of a vector on a port: whether it is masked. -/
def State.msixMasked (s : State) (port v : Nat) : Bool := bit (s.reg (0x33000C + 0x8000 * port + 16 * v)) 0

/-- An MSI-X message made due on the port of die `d` (R320): it joins one that is already due or pending. -/
def State.msixDue (s : State) (d v : Nat) : State :=
  match s.diePort d with
  | none => s
  | some p =>
    if s.host.msixDue.contains (p, v) || s.host.msixPend.contains (p, v) then s
    else { s with host := { s.host with msixDue := s.host.msixDue ++ [(p, v)] } }

/-! ## Blot records (20) -/

/-- The number of the global ring; partition rings have the partition's number. -/
def ringG : Nat := 16

/-- Offset of the registers of ring `r`. -/
def ringReg (r : Nat) : Nat := if r = ringG then 0x30000 else 0x30100 + 0x20 * r

/-- Records a ring holds (R456). -/
def ringSize (r : Nat) : Nat := if r = ringG then 4096 else 1024

/-- Ring state. -/
def State.ring (s : State) (r : Nat) : Ring := Tbl.get {} s.flt.rings r

/-- Ring state changed. -/
def State.updRing (s : State) (r : Nat) (f : Ring → Ring) : State :=
  { s with flt := { s.flt with rings := Tbl.upd {} s.flt.rings r f } }

/-- Whether ring `r` is enabled. -/
def State.ringOn (s : State) (r : Nat) : Bool := bit (s.reg (ringReg r + 8)) 0

/-- Whether ring `r` is full (R459). -/
def State.ringFull (s : State) (r : Nat) : Bool := ringSize r ≤ (s.ring r).k - (s.ring r).released

/-- The die that writes ring `r` (R457). -/
def State.ringDie (s : State) (r : Nat) : Nat :=
  if r = ringG then s.leadDie else (s.homeDie r).getD s.leadDie

/-- Whether a write to ring `r` would fail (R459): no CXL port up, or its page does not translate for writing (log entry 12). -/
def State.ringBroken (s : State) (r : Nat) : Bool :=
  (s.diePort (s.ringDie r)).isNone
  || s.xlat.absent.contains (hvAddr (s.reg (ringReg r) + 64 * ((s.ring r).k % ringSize r)) / 4096)

/-- MSI-X vector of a ring (Table 14.8). -/
def ringVector (r : Nat) : Nat := if r = ringG then 1 else 3 + r

/-- A record written into the next slot of ring `r` (R456). -/
def State.ringPut (s : State) (r : Nat) (b : Blot) : State :=
  let g := s.ring r
  let n := ringSize r
  let b := { b with seq := g.k % 2 ^ 23, phase := g.k / n % 2 == 0 }
  let s := s.emit (.blot r (g.k % n) (s.reg (ringReg r) + 64 * (g.k % n)) b)
  let s := match s.diePort (s.ringDie r) with | some p => s.bump (0x320018 + 0x100 * p) 64 64 | none => s
  (s.updRing r (fun g => { g with k := g.k + 1 })).msixDue (s.ringDie r) (ringVector r)

/-- A record of ring `r` lost (R459). -/
def State.ringLose (s : State) (r : Nat) (b : Blot) : State :=
  let s := s.bump (ringReg r + 0x14) 32 1
  let key := r * 65536 + b.cls
  let s := { s with flt := { s.flt with ovf := Tbl.upd {} s.flt.ovf key (fun o =>
    { count := satAdd 64 o.count 1, first := o.first.or (some b), last := some b }) } }
  let s := s.updRing r (fun g =>
    { g with lostN := satAdd 32 g.lostN 1, lostFirst := if g.lostN = 0 then b.time else g.lostFirst, lostLast := b.time })
  if s.ringOn r && !bit (s.reg (ringReg r + 0x10)) 0 then
    (s.setField (ringReg r + 0x10) 0 0 1).msixDue (s.ringDie r) 2
  else s

/-- What a ring does with a new record. -/
inductive RingFate where
  | put | hold | lose
deriving DecidableEq, Repr

/-- The held records of ring `r` written while it has room, then its BLOTS_LOST record (R460). -/
def State.ringFlush : Nat → State → Nat → State
  | 0, s, _ => s
  | fuel + 1, s, r =>
    if !s.ringOn r || s.ringFull r || s.ringBroken r then s
    else match (s.ring r).held with
      | b :: rest => State.ringFlush fuel ((s.updRing r (fun g => { g with held := rest })).ringPut r b) r
      | [] =>
        let g := s.ring r
        if g.lostN = 0 then s
        else
          (s.updRing r (fun g => { g with lostN := 0, lostFirst := 0, lostLast := 0 })).ringPut r
            { cls := 0x0706, time := s.time, src := ⟨5, s.ringDie r⟩,
              detail := [(g.lostN, 4), (g.lostFirst, 8), (g.lostLast, 8)] }

/-- The fate of a record at ring `r`; `hold` says that its class is marked H and that it names a command (R458, R459). -/
def State.ringFate (s : State) (r : Nat) (hold : Bool) : RingFate :=
  if !s.ringOn r || s.ringBroken r then .lose
  else if s.ringFull r then (if hold then .hold else .lose)
  else .put

/-- The classes marked H (Table 20.3). -/
def holdClass (c : Nat) : Bool := [0x0301, 0x0302, 0x0303, 0x0401, 0x0504, 0x0702].contains c

/-- A record for rings `rs` (R458-R460): written, held or lost in each; COPY when it goes to more than one ring. -/
def State.blot (s : State) (b : Blot) (rs : List Nat) : State :=
  let rs := rs.eraseDups
  let s := rs.foldl (fun s r => s.ringFlush 4200 r) s
  let hold := holdClass b.cls && b.cmd.isSome
  let fates := rs.map (fun r => (r, s.ringFate r hold))
  let b := { b with time := s.time, copy := decide (2 ≤ rs.length), held := fates.any (fun f => f.2 == .hold) }
  fates.foldl (fun s f =>
    match f.2 with
    | .put => s.ringPut f.1 b
    | .hold => s.updRing f.1 (fun g => { g with held := g.held ++ [b] })
    | .lose => s.ringLose f.1 b) s

/-- Rings G and P of a class (R458). -/
def ringsGP (p : Option Nat) : List Nat := match p with | none => [ringG] | some p => [ringG, p]

/-- Ring P alone. -/
def ringsP (p : Option Nat) : List Nat := match p with | none => [] | some p => [p]

/-- Rings G and those of the owners of die `d` (Pd of R458). -/
def State.ringsGPd (s : State) (d : Nat) : List Nat := ringG :: s.dieOwners d

/-- BAR_ACCESS_ERROR (R11, R454): access bytes, write, data; ADDR is the BAR0 offset; the source is the port. -/
def State.barError (s : State) (port off size : Nat) (data : Nat) : State :=
  s.blot { cls := 0x0109, src := ⟨6, port⟩, addr := off, detail := [(size, 1), (1, 1), (data, 8)] } [ringG]

/-- The bytes of a blot record as written to its ring (Table 20.1). -/
def Blot.bytes (b : Blot) : List Byte :=
  let flags := b2n b.held + 2 * b2n b.part.isSome + 4 * b2n b.cmd.isSome + 8 * b2n b.copy
  let body := bytesOf 4 (b.seq + b2n b.phase * 2 ^ 23) ++ bytesOf 2 b.cls ++ bytesOf 1 flags ++ bytesOf 1 (b.part.getD 0)
    ++ bytesOf 8 b.time ++ bytesOf 2 ((b.cmd.map (·.1)).getD 0) ++ bytesOf 2 (b.src.kind * 4096 + b.src.num)
    ++ bytesOf 4 ((b.cmd.map (·.2)).getD 0) ++ bytesOf 8 b.addr ++ packFields 24 b.detail ++ bytesOf 6 0
  body ++ bytesOf 2 (crc16 body)

/-- The bytes of a completion record (Table 16.8). -/
def CRec.bytes (r : CRec) : List Byte :=
  bytesOf 4 (r.seq + b2n r.phase * 2 ^ 23) ++ bytesOf 1 r.status
    ++ bytesOf 1 (b2n r.pace + 2 * b2n r.replayed + 4 * b2n r.child) ++ bytesOf 2 r.numsum ++ bytesOf 4 r.waitNs
    ++ bytesOf 2 r.preempts ++ bytesOf 2 r.detail ++ bytesOf 8 r.tStart ++ bytesOf 8 r.tEnd

/-! ## The form of a meaning -/

/-- What a command does: a command that names a unit the device does not have stops with a fault; while the block is held in
reset or has tripped, nothing acts (R488, R493); otherwise `f`. No meaning touches the queue. -/
def run (ok : Bool) (s : State) (f : State → State) : Host.Outcome State Fault Refusal :=
  if ok then (if s.alive then .next { f s with pending := s.pending } else .next s) else .fault .noSuchUnit

end Sys2Proof.Machine
end

