-- ==== Sys2Proof/Machine/Mem.lean ====
section
/-!
DEFINITION. Reads and writes as they reach their targets: a sector of device memory under its check (13), a device write
at the point of coherence (14), a host line through the host-line cache (14), and handles (16).
-/
namespace Sys2Proof.Machine

/-! ## Device addresses -/

/-- Memory at physical address `a` is not zero yet: released memory, or T2 after a start (R68, R438). -/
def State.unzeroed (s : State) (a n : Nat) : Bool := (s.memc.drainT2 && tierOf a == 2) || s.folio.zeroing.any (fun z => decide (z.1 < a + n) && decide (a < z.1 + z.2))

/-- `n` bytes from device address `a`, byte by byte through the map of R258; an unmapped byte reads 0, and so does one that is to become
zero, which reaches its owner as nothing else (R65). -/
def State.readDP (s : State) (a : Nat) : Nat → List Nat
  | 0 => []
  | n + 1 => (match s.phys a with | some x => if s.unzeroed x 1 then 0 else (memByte s.mem (s.cellOf x)).toNat | none => 0) :: s.readDP (a + 1) n

/-- A little-endian number of `n` bytes at device address `a`. -/
def State.numDP (s : State) (a n : Nat) : Nat := (s.readDP a n).foldr (fun b x => b + 256 * x) 0

/-- A little-endian field of a byte list. -/
def fieldOf (l : List Nat) (off size : Nat) : Nat := ((l.drop off).take size).foldr (fun b x => b % 256 + 256 * x) 0

/-- The bytes of a number, as naturals. -/
def natBytes (n v : Nat) : List Nat := (bytesOf n v).map (·.toNat)

/-- Whether the bytes [a, a + n) lie in a segment. -/
def Rec.covers (r : Rec) (a n : Nat) : Bool := r.f 8 8 ≤ a && a + n ≤ r.f 16 8 + 1

/-- The segment of partition `p` that covers [a, a + n) as named. -/
def State.segOf (s : State) (p a n : Nat) : Option Rec := (cfgSegs s.folio.active p).find? (fun r => r.covers a n)

/-- The handle table of partition `p`: the base of its bound segment (R357). -/
def State.handleBase (s : State) (p : Nat) : Option Nat :=
  match Tbl.get 0 s.sched.bound p with
  | 0 => none
  | i + 1 => (cfgSeg s.folio.active p i).map (fun r => r.f 8 8)

/-- What a handle of partition `p` resolves to (R355): address, LENGTH and the segment's record. -/
def State.handle (s : State) (p h : Nat) : Option (Nat × Nat × Rec) :=
  let idx := bits h 31 8
  match s.handleBase p, cfgPart s.folio.active p with
  | some b, some r =>
    let e := s.readDP (b + 16 * idx) 16
    if idx != 0 && decide (idx < r.f 16 4) && bit (fieldOf e 14 1) 7 && fieldOf e 15 1 == bits h 7 0 then
      (cfgSeg s.folio.active p (bits (fieldOf e 14 1) 5 0)).map (fun g => (bits (fieldOf e 0 8) 47 0 + g.f 8 8, fieldOf e 8 6, g))
    else none
  | _, _ => none

/-- A handle names an object that does not lie wholly within its segment (R264). -/
def State.stray (s : State) (p h : Nat) : Bool :=
  match s.handle p h with | some x => decide (x.2.2.f 16 8 + 1 < x.1 + x.2.1) | none => false

/-! ## Reads of a sector (R280-R287) -/

/-- The name of a command in a record. -/
def cmdName (cid : Nat) : Nat × Nat := (cid / 2 ^ 23, cid % 2 ^ 23)

/-- A blot that names command `cid`, to rings G and P (`gOnly` false) or P alone. -/
def State.blotCmd (s : State) (cid cls : Nat) (src : Src) (addr : Nat) (detail : List (Nat × Nat)) (g : Bool) : State :=
  let p := (s.cmd cid).part
  s.blot { cls := cls, part := p, cmd := some (cmdName cid), src := src, addr := addr, detail := detail }
    (if g then ringsGP p else ringsP p)

/-- The replica sector that a REPLICA record gives for physical sector `a` (R286): of partition `p`, or of any partition. -/
def State.replicaOf (s : State) (p : Option Nat) (a : Nat) : Option (Nat × Rec) :=
  let rs := (recsOf s.folio.active secReplica).filter (fun r => match p with | none => true | some p => r.part 0 == p)
  rs.findSome? (fun r =>
    match cfgSeg s.folio.active (r.part 0) (r.f 2 2), cfgSeg s.folio.active (r.part 0) (r.f 4 2) with
    | some g, some h =>
      -- the sector's offset in the primary segment, whichever view names it
      let off : Option Nat :=
        if g.f 6 1 = 1 then
          if a < 8 * sliceSize then
            let o := a % sliceSize
            let x := (o / 4096 * 8 + a / sliceSize) * 4096 + o % 4096 + 0x8000000000
            if g.f 8 8 ≤ x then some (x - g.f 8 8) else none
          else none
        else if g.f 8 8 ≤ a then some (a - g.f 8 8) else none
      match off with
      | some o => if r.f 8 8 ≤ o && o < r.f 8 8 + r.f 16 8 then some (h.f 8 8 + o, r) else none
      | none => none
    | _, _ => none)

/-- The models of a configuration whose image covers physical sector `a`, with the offset of the sector in the image. -/
def State.modelsAt (s : State) (a : Nat) : List (Nat × Nat × Nat) :=
  (recsOf s.folio.active secModel).filterMap (fun m =>
    match s.handle (m.part 4) (m.f 8 4) with
    | some (base, len, _) =>
      ((upto ((len + 127) / 64)).find? (fun k => s.phys ((base / 64 + k) * 64) == some a)).map
        (fun k => (m.part 4, m.f 0 4, (base / 64 + k) * 64 - base))
    | none => none)

/-- Key of a model in the model cache. -/
def modelKey (p m : Nat) : Nat := p * 2 ^ 32 + m

/-- The layers that an image records; the whole image is one layer where it records none (log entry 133). -/
def layersOf (img : List Nat) : List (Nat × Nat) :=
  let l := Config.imageLayers img
  if l.isEmpty then [(0, img.length)] else l

/-- Model state changed. -/
def State.updModel (s : State) (p m : Nat) (f : ModelSt → ModelSt) : State :=
  { s with sched := { s.sched with models := Tbl.upd {} s.sched.models (modelKey p m) f } }

/-- LINE_POISONED for a sector that cannot be recovered, and its models marked DEGRADED (R287). -/
def State.linePoisoned (s : State) (a : Nat) (cause : Nat) (cid : Option Nat) (src : Src) : State :=
  let seg := s.segAt a
  let part := seg.map (fun r => r.part 0)
  let s := s.blot { cls := 0x0401, part := part, cmd := cid.map cmdName, src := src, addr := a,
                    detail := [((seg.map (fun r => r.f 4 2)).getD 0xFF, 1), (tierOf a, 1), (cause, 1)] } (ringsGP part)
  (s.modelsAt a).foldl (fun s m =>
    let s := s.updModel m.1 m.2.1 (fun x => { x with degraded := if x.degraded.contains a then x.degraded else a :: x.degraded })
    s.blot { cls := 0x0309, part := some m.1, src := src, addr := a, detail := [(m.2.1, 4), (m.2.2, 8)] } (ringsGP (some m.1))) s

/-- Base of the integrity registers of die `d`. -/
def eccBase (d : Nat) : Nat := 0x10A000 + 0x100 * d

/-- An uncorrectable read of sector `a`: counted and poisoned (R285). -/
def State.poison (s : State) (a : Nat) : State :=
  let d := dieOfPhys a
  let was := (s.sector a).poison
  let s := if tierOf a = 1 then s.bump (eccBase d + 8) 32 1 else if tierOf a = 2 then s.bump (eccBase d + 0x18) 32 1 else s
  let s := if tierOf a = 3 then s else s.setReg (eccBase d + 0x30) a
  let s := if was || tierOf a = 3 then s else s.bump (eccBase d + 0x1C) 32 1
  let s := if was || tierOf a = 3 then s else { s with memc := { s.memc with failing := s.memc.failing ++ [a] } }
  s.updSector a (fun x => { x with poison := true })

/-! ## What the medium answers (R273, R280-R283) -/

/-- How the sector at `a` turns out for the command under way: as its operand says; a T3 request fails while its port is not up (R273,
R277). -/
def State.outcome (s : State) (a : Nat) : MemRes :=
  if tierOf a = 3 && !s.t3LinkOk (windowOf a) then .failed 3
  else ((s.memc.med.find? (fun o => o.1 == a)).map (·.2)).getD .ok

/-- The outcomes a command brings. -/
def State.setMed (s : State) (o : Sectors) : State := { s with memc := { s.memc with med := o } }

/-- A corrected error of sector `a` counted (R283). -/
def State.corrected (s : State) (a : Nat) : State :=
  let d := dieOfPhys a
  let s := if tierOf a = 1 then s.bump (eccBase d) 64 1 else if tierOf a = 2 then s.bump (eccBase d + 0x10) 64 1 else s
  { s with memc := { s.memc with corrected := s.memc.corrected ++ [(a, s.time)] } }

/-- Link-level retries of a DDR request counted (R278). -/
def State.ddrRetries (s : State) (a n : Nat) : State := if tierOf a = 2 then s.bump (0x104008 + 0x40 * chanOfT2 a) 64 n else s

/-- An error that the check does not see (R280): the sector reads a free value from now on; it may count as a corrected one. -/
def State.wrongData (s : State) (a : Nat) (counted : Bool) : State :=
  let s := { s with mem := memWrite s.mem (s.cellOf a) (natBytes 64 (s.freeVal % 2 ^ 512)) }.useFree
  if counted then s.corrected a else s

/-- The old bytes of a sector as the memory controller reads them before it merges new ones into it (R281): an error it cannot correct
poisons the sector. -/
def State.oldSector (s : State) (a : Nat) : State :=
  match s.outcome a with
  | .corrected => s.corrected a
  | .retried n => s.ddrRetries a n
  | .wrong c => s.wrongData a c
  | .uncorrectable | .crc => s.poison a
  | _ => s

/-- Bytes written within one sector at the point of coherence (R280, R281, R285, R290): a whole sector clears poison; part of a sector
is merged into its old bytes, and where they are poisoned or fail their check the sector stays poisoned and the write has failed; a
write to a retired page is discarded and has failed, and so has a request that fails under R273. The sector takes the class of its
segment. The flag says whether the write succeeded. -/
def State.commit (s : State) (a : Nat) (data : List Nat) : State × Bool :=
  let sec := a / 64 * 64
  let dead := tierOf a != 1 && (match s.outcome sec with | .failed _ => true | _ => false)
  if s.pageRetired a then (s, false)
  else if dead then (s.ddrRetries sec 8, false)
  else
    let whole := data.length == 64 && a % 64 == 0
    let s := if whole then (match s.outcome sec with | .retried n => s.ddrRetries sec n | _ => s) else s.oldSector sec
    let was := (s.sector a).poison
    let cls := match s.segAt a with | some r => r.f 2 1 == 1 | none => false
    let s := { s with mem := memWrite s.mem (s.cellOf a) data }.t3Emit a true data
    let s := s.updSector a (fun x => if whole then { x with poison := false, lost := false, told := false, crc := cls } else { x with crc := cls })
    (if whole && was && tierOf a != 3 then s.setReg (eccBase (dieOfPhys a) + 0x1C) (s.reg (eccBase (dieOfPhys a) + 0x1C) - 1) else s, whole || !was)

/-- The cause with which a write to `a` failed (R273): that of its request, or 0. -/
def State.writeCause (s : State) (a : Nat) : Nat := match s.outcome (a / 64 * 64) with | .failed c => c | _ => 0

/-- A tier request that failed (R273): counted by its channel or window, with TIER_ACCESS_FAILED. -/
def State.tierFailed (s : State) (a : Nat) (cause : Nat) (write : Bool) (part : Option Nat) (cid : Option Nat) (src : Src) : State :=
  let t := tierOf a
  let n := if t = 2 then chanOfT2 a else if t = 3 then windowOf a else dieOfPhys a
  let s := if t = 2 then s.bump (0x104010 + 0x40 * n) 32 1 else if t = 3 then s.bump (0x106014 + 0x40 * n) 32 1 else s
  s.blot { cls := 0x0406, part := part, cmd := cid.map cmdName, src := src, addr := a,
           detail := [(t, 1), (n, 1), (cause, 1), (b2n write, 1)] } (ringsGP part)

/-- What a read of a sector answers. -/
inductive ReadOut where
  | data                            -- the sector's bytes
  | replica                         -- the reader waits for a recovery from a replica (R286)
  | crcFail                         -- a DETECT_CRC failure: replay or DATA_ERROR (R284)
  | fail (status detail : Nat)
deriving DecidableEq, Repr

/-- A command that finds a recovery from a replica under way, at `t`, waits: nothing has changed but what the media and the blot rings hold. -/
def State.waits (s t : State) : State :=
  { s with memc := { t.memc with due := s.memc.due }, mem := t.mem, regs := t.regs, flt := t.flt, out := t.out, free := t.free }

/-- How a reader is told from others while it waits for a recovery. -/
def readerKey (cid : Option Nat) (src : Src) : Nat × Nat × Nat := (src.kind, src.num, match cid with | some c => c + 1 | none => 0)

/-- LINE_POISONED for a sector that cannot be recovered, once until it is written whole (R287). -/
def State.lineLost (s : State) (a cause : Nat) (cid : Option Nat) (src : Src) : State :=
  if (s.sector a).told then s else (s.linePoisoned a cause cid src).updSector a (fun x => { x with told := true })

/-- A read of a poisoned sector or of a retired page (Table 13.2, R290): a replica of the reader's partition is read, or the read fails.
A reader that waited for the replica's data of a retired page takes it. -/
def State.readPoisoned (s : State) (a cause : Nat) (part : Option Nat) (cid : Option Nat) (src : Src) : State × ReadOut :=
  let k := readerKey cid src
  let join (s : State) : State := s.updSector a (fun x => { x with recover := true, joined := if x.joined.contains k then x.joined else x.joined ++ [k] })
  if (s.sector a).served.contains k then (s.updSector a (fun x => { x with served := x.served.filter (· != k) }), .data)
  else if (s.sector a).recover then (join s, .replica)
  else match s.replicaOf part a with
    | some _ => if (s.sector a).lost then (s, .fail 2 (a / 64 % 65536)) else (join s, .replica)
    | none => (s.lineLost a cause cid src, .fail 2 (a / 64 % 65536))

/-- The outcomes of some sectors are taken: what the command reaches of them next is the same access. -/
def State.heard (s : State) (as : List Nat) : State := s.setMed (s.memc.med.filter (fun o => !as.contains o.1))

/-- A read of the sector at physical address `a` (a multiple of 64), as the medium answers (R273, R280-R287). -/
def State.readSector (s : State) (a : Nat) (part : Option Nat) (cid : Option Nat) (src : Src) : State × ReadOut :=
  if s.pageRetired a || (s.sector a).poison then s.readPoisoned a 0 part cid src
  else
    let bad (s : State) : State × ReadOut :=
      if tierOf a = 1 && (s.sector a).crc then (s.bump (eccBase (dieOfPhys a) + 0xC) 32 1, .crcFail)
      else (s.poison a).readPoisoned a 0 part cid src
    let s := s.t3Emit a false []
    match s.outcome a with
    | .corrected => (s.corrected a, .data)
    | .retried n => (s.ddrRetries a n, .data)
    | .wrong c => (s.wrongData a c, .data)
    | .crc | .uncorrectable => bad s
    | .failed c =>
      if tierOf a = 1 then bad s
      else (((s.ddrRetries a 8).tierFailed a c false part cid src).poison a).readPoisoned a 1 part cid src
    | .ok | .held _ | .sramFixed | .sramClean | .sramDirty _ | .host _ => (s, .data)

/-- Bytes within the sector at physical address `a` as a reader gets them: those of the replica for a sector of a retired page (R290). -/
def State.readThrough (s : State) (part : Option Nat) (a n : Nat) : List Nat :=
  let sec := a / 64 * 64
  if s.pageRetired a then
    match (s.replicaOf part sec).or (s.replicaOf none sec) with
    | some r => s.readDP (r.1 + a % 64) n
    | none => s.readMem a n
  else s.readMem a n

/-! ## Pieces -/

/-- Pieces of [a, a + n) within one sector each: address and length. -/
def sectorCuts : Nat → Nat → Nat → List (Nat × Nat)
  | 0, _, _ => []
  | fuel + 1, a, n => if n = 0 then [] else (let k := min n (64 - a % 64); (a, k) :: sectorCuts fuel (a + k) (n - k))

/-- The sectors of a range as pieces. -/
def pieces (a n : Nat) : List (Nat × Nat) := sectorCuts (n / 64 + 2) a n

/-- The sectors (by number) that [a, a + n) touches. -/
def sectorsOf (a n : Nat) : List Nat := (upto ((a + n + 63) / 64 - a / 64)).map (fun i => a / 64 + i)

/-! ## Device writes (R304, R305, R312) -/

/-- The copies of the sector of `a` that the host holds, as the tracking table has them. -/
def State.tracked (s : State) (a : Nat) : List (Nat × Nat) :=
  (((nth s.host.track (dieOfPhys a) []).find? (fun e => e.sector == a / 64)).map (·.copies)).getD []

/-- The tracking entry of the sector of `a` removed and its copies back-invalidated: BISnpInv for every alias (R304). -/
def State.snoop (s : State) (a : Nat) : State :=
  let cs := s.tracked a
  let d := dieOfPhys a
  let s := cs.foldl (fun s c => s.emit (.snoopInv c.1 c.2)) s
  let s := s.bump (0x321020 + 0x40 * d) 64 cs.length
  { s with host := { s.host with track := updAt s.host.track d (fun l => l.filter (fun e => e.sector != a / 64)) } }

/-- The page of `a` is in host bias. -/
def State.inHostBias (s : State) (a : Nat) : Bool := tierOf a != 3 && s.host.hostBias.contains (a / 4096)

/-- Whether a write to `a` must first reach the host: a tracked copy, or a host-bias page. -/
def State.hostFirst (s : State) (a : Nat) : Bool := !(s.tracked a).isEmpty || s.inHostBias a

/-- A write to the sector of `x` waits for the host (R304, R305). -/
def State.biHeld (s : State) (x : Nat) : Bool :=
  s.host.biWait.any (fun w => w.addr / 64 == x / 64 && !(w.data.isEmpty && w.snoops.isEmpty && w.go.isNone))

/-- The GO under which a shared unit may write the sector of `x` in a host-bias page. -/
def BiWait.token (w : BiWait) (x : Nat) : Bool := w.addr / 64 == x / 64 && w.data.isEmpty && w.snoops.isEmpty && w.go.isNone

/-- A shared unit may write the sector of `x` now: it is not to be zeroed (R68), the host holds no copy of it, no write to it waits for the
host, and in a host-bias page the host has given GO. -/
def State.hostClear (s : State) (x : Nat) : Bool :=
  !s.unzeroed (x / 64 * 64) 64 && !s.biHeld x && (s.tracked x).isEmpty && (!s.inHostBias x || s.host.biWait.any (·.token x))

/-- The port through which a device access to a host-bias page reaches the host: that of the die that owns the page, H0 while it has
none (log entry 194). -/
def State.biasPort (s : State) (a : Nat) : Nat := (s.diePort (dieOfPhys a)).getD 0

/-- What a write to the sector of `x` needs of the host: BISnpInv for its tracked copies, or GO in a host-bias page (R304, R305, R312);
`w` waits for it. -/
def State.askHost (s : State) (x : Nat) (w : BiWait) : State :=
  let cs := s.tracked x
  let w := if cs.isEmpty then { w with go := some (dieOfPhys x, s.biasPort x) } else { w with snoops := cs }
  let s := if cs.isEmpty then s else s.snoop x
  { s with host := { s.host with biWait := s.host.biWait ++ [w] } }

/-- A write of one sector's bytes by a shared unit for command `cid` (R304, R305, R312); where the host must release the sector first, or it
is still to be zeroed (R68), the command needs that. The flag is false when the write failed (R281, R290). -/
def State.devWrite (s : State) (cid : Option Nat) (a : Nat) (data : List Nat) : State × Bool :=
  let s := if s.hostFirst a || s.biHeld a || s.unzeroed (a / 64 * 64) 64 then { s with host := { s.host with needs := s.host.needs ++ [(cid, a)] } } else s
  s.commit a data

/-- What a command needs of the host asked for, once a sector. -/
def State.claim (s : State) (ns : List (Option Nat × Nat)) : State :=
  ns.foldl (fun s n => if !s.hostFirst n.2 || s.hostClear n.2 || s.biHeld n.2 then s
    else s.askHost n.2 { snoops := [], addr := n.2 / 64 * 64, data := [], cid := n.1 }) s

/-- The host has released every sector. -/
def State.hostClaimed (s : State) (ns : List (Option Nat × Nat)) : Bool := ns.all (fun n => s.hostClear n.2)

/-- The GOs under which a command's sectors were written are used up. -/
def State.useTokens (s : State) : State :=
  { s with host := { s.host with needs := [], biWait := s.host.biWait.filter (fun w => !s.host.needs.any (fun n => w.token n.2)) } }

/-- Bytes written by a shared unit from device address `a`, cut at 64-byte boundaries (R323). `fuel` bounds the pieces. -/
def State.devWriteAll : Nat → State → Option Nat → Nat → List Nat → State × Bool
  | 0, s, _, _, _ => (s, true)
  | fuel + 1, s, cid, a, data =>
    if data.isEmpty then (s, true)
    else
      let n := 64 - a % 64
      let (s1, ok1) := match s.phys a with
        | some x => s.devWrite cid x (data.take n)
        | none => (s, false)
      let (s2, ok2) := State.devWriteAll fuel s1 cid (a + n) (data.drop n)
      (s2, ok1 && ok2)

/-- Bytes written by a shared unit, as many pieces as they need. -/
def State.devPut (s : State) (cid : Option Nat) (a : Nat) (data : List Nat) : State × Bool :=
  State.devWriteAll (data.length / 64 + 2) s cid a data

end Sys2Proof.Machine
end

