-- ==== Sys2Proof/Machine/Operands.lean ====
section
/-!
DEFINITION. Operand forms: engine control words (R126, R127), stroke headers and instructions with the checks of R172,
scratch through the swizzle (R166), and the vector instruction's registers and lanes (R148-R151).
-/
namespace Sys2Proof.Machine

/-! ## Engine control words -/

/-- The faults of R127 in an engine control word. -/
def ctlOk (w : Nat) : Bool :=
  let fa := bits w 3 0
  let fb := bits w 7 4
  let out := bits w 27 24
  decide (w < 2 ^ 32) && decide (fa < 13) && decide (fb < 13) && widthClass fa == widthClass fb
  && (!(widthClass fa == 3 || widthClass fa == 4) || fa == fb)
  && gscaleOk fa (bits w 15 8) && gscaleOk fb (bits w 23 16)
  && out != 0xB && out != 0xE && out != 0xF && !bit w 29

/-! ## Strokes -/

/-- A stroke instruction (Table 8.4). -/
inductive SIns where
  | fin
  | seta (a b : Nat) (pp : Bool) (imm : Int)
  | adda (a : Nat) (imm : Int)
  | loop (n len count : Nat)
  | move (s d : Nat) (tr sk f6 : Bool) (rows pieces plog pitch : Nat)
  | emit (a : Nat) (sk : Bool) (inc : Int)
  | take (a : Nat) (packed : Bool) (inc : Int)
  | waitt (tok count : Nat)
  | sigt (tok count : Nat)
  | flip
deriving DecidableEq, Repr

/-- Decoding of a stroke instruction: none for a reserved opcode, field or encoding (R170). -/
def decodeStroke (w : Nat) : Option SIns :=
  let clear (mask : Nat) : Bool := w &&& mask == 0
  match bits w 63 59 with
  | 0 => if w % 2 ^ 59 = 0 then some .fin else none
  | 1 => if clear (ones 53 32) then some (.seta (bits w 58 57) (bits w 56 55) (bit w 54) (signed 32 w)) else none
  | 2 => if clear (ones 56 32) then some (.adda (bits w 58 57) (signed 32 w)) else none
  | 3 => if clear (ones 50 24) && bits w 58 56 < 6 && bits w 55 51 != 0 then some (.loop (bits w 58 56) (bits w 55 51) (bits w 23 0 + 1)) else none
  | 4 =>
    if clear (ones 40 32) && bits w 43 41 < 7 && (!bit w 52 || 2 ≤ bits w 43 41) then
      some (.move (bits w 58 57) (bits w 56 55) (bit w 54) (bit w 53) (bit w 52) (bits w 51 48 + 1) (bits w 47 44 + 1) (bits w 43 41) (bits w 31 0))
    else none
  | 5 => if clear (ones 55 32) then some (.emit (bits w 58 57) (bit w 56) (signed 32 w)) else none
  | 6 => if clear (ones 55 32) then some (.take (bits w 58 57) (bit w 56) (signed 32 w)) else none
  | 7 => if clear (ones 54 8) && bits w 7 0 != 0 then some (.waitt (bits w 58 55) (bits w 7 0)) else none
  | 8 => if clear (ones 54 8) && bits w 7 0 != 0 then some (.sigt (bits w 58 55) (bits w 7 0)) else none
  | 9 => if w % 2 ^ 59 = 0 then some .flip else none
  | _ => none

/-- Role of a channel (Table 8.1): 0 fetch, 1 present, 2 collect, 3 write. -/
def chanRole (c : Nat) : Nat :=
  if c < 12 then nth [0, 1, 0, 1, 2, 3] (c % 6) 0 else nth [0, 1, 2, 3] (c - 12) 0

/-- Whether a channel accepts an instruction (Table 8.1). -/
def chanAllows (c : Nat) : SIns → Bool
  | .move .. => chanRole c == 0 || chanRole c == 3
  | .emit .. => chanRole c == 1
  | .take .. => chanRole c == 2
  | _ => true

/-- The loop rules of R171 over a program: `open'` lists the counters in use with the ends of their bodies. -/
def loopsOk (len : Nat) : List (Nat × Nat) → Nat → List SIns → Bool
  | _, _, [] => true
  | st, i, x :: xs =>
    let st := st.filter (fun e => i < e.2)
    match x with
    | .loop n l _ =>
      let stop := i + 1 + l
      decide (stop ≤ len) && st.all (fun e => decide (stop ≤ e.2)) && decide (st.length < 6) && st.all (fun e => e.1 != n)
        && loopsOk len ((n, stop) :: st) (i + 1) xs
    | _ => loopsOk len st (i + 1) xs

/-- The checks of R172 on one stroke: 64 header bytes and its instructions. -/
def strokeOk (hdr : List Nat) (prog : List Nat) : Bool :=
  let c := fieldOf hdr 0 1
  let len := fieldOf hdr 1 1
  let fl := fieldOf hdr 2 1
  let lb := fieldOf hdr 6 2
  let pitch := fieldOf hdr 8 2
  let bt := fieldOf hdr 12 4
  let ins := prog.map decodeStroke
  let is := ins.filterMap id
  decide (c < 16) && decide (1 ≤ len) && decide (len ≤ 32) && prog.length == len && decide (fl < 8) && decide (fieldOf hdr 3 1 < 3)
  && decide (fieldOf hdr 4 1 < 16) && fieldOf hdr 5 1 == 0 && fieldOf hdr 10 2 == 0 && fieldOf hdr 48 16 == 0
  && (if chanRole c = 1 then (if c = 13 then lb == 256 else lb == 64 || lb == 128) else lb == 0 || lb == 64 || lb == 128)
  && (if bit fl 1 then pitch % 16 == 0 && pitch != 0 else pitch == 0)
  && (if bit fl 0 then bt % 32 == 0 else bt == 0)
  && ins.all (·.isSome) && is.all (chanAllows c) && loopsOk len [] 0 is
  && is.all (fun x => match x with
      | .seta _ b pp _ => !pp || decide (b < 2)
      | .move _ _ _ sk _ rows _ _ _ => !sk || (rows == 16 && lb != 0)
      | _ => true)

/-- The instruction at the PC of a channel; running past the last one is END (log entry 22). -/
def Chan.ins (c : Chan) : SIns :=
  match c.prog[c.pc]? with | some w => (decodeStroke w).getD .fin | none => .fin

/-! ## Scratch (R166, R167) -/

/-- Bytes of scratch. -/
def scratchSize : Nat := 0x180000

/-- The location of scratch byte `x` under a swizzle mode: bank × 32,768 + row × 64 + byte. -/
def scratchLoc (swz x : Nat) : Nat :=
  let g := x / 64
  let stripe := x / 3072
  let rot := nth [0, 1, 5] swz 0
  (g + rot * stripe) % 48 * 32768 + stripe * 64 + x % 64

/-- Scratch byte `x` of a tile under a swizzle mode; a location not written reads as `undef` says (R385, log entry 23). -/
def Tile.scr (x : Tile) (swz a : Nat) : Nat :=
  let l := scratchLoc swz a
  match Tbl.get 0 x.scratch l with
  | 0 => (match x.undef with | none => 0 | some u => Config.freeValue (u + l) % 256)
  | v + 1 => v

/-- `n` scratch bytes from `a`. -/
def Tile.scrRead (x : Tile) (swz a n : Nat) : List Nat := (upto n).map (fun i => x.scr swz (a + i))

/-- Scratch bytes written from `a`. -/
def Tile.scrWrite (x : Tile) (swz a : Nat) (data : List Nat) : Tile :=
  { x with scratch := (data.zipIdx).foldl (fun m p => Tbl.set 0 m (scratchLoc swz (a + p.2)) (p.1 % 256 + 1)) x.scratch }

/-! ## The vector instruction's registers and lanes (R148-R151) -/

/-- Elements of a 2,048-bit register in a format: 64-bit 32, 32-bit 64, 16-bit 128 (R149). -/
def elemBits (fmt : Nat) : Nat := if fmt = 0 then 64 else if fmt = 1 || fmt = 13 then 32 else 16

/-- Number of elements. -/
def elemCount (fmt : Nat) : Nat := 2048 / elemBits fmt

/-- Element `i` of register value `v`. -/
def elemOf (fmt v i : Nat) : Nat := bits v (elemBits fmt * (i + 1) - 1) (elemBits fmt * i)

/-- A register value from its elements, lowest first. -/
def packElems (w : Nat) (xs : List Nat) : Nat := xs.foldr (fun x a => x % 2 ^ w + 2 ^ w * a) 0

/-- The elements of a register value. -/
def elemsOf (fmt v : Nat) : List Nat := (upto (elemCount fmt)).map (elemOf fmt v)

/-- A mask register: M0 always reads as all ones (R148). -/
def Vec.mask (v : Vec) (i : Nat) : Nat := if i = 0 then 2 ^ 128 - 1 else nth v.m i 0

/-- A mask register written; writes to M0 are ignored. -/
def Vec.setMask (v : Vec) (i x : Nat) : Vec := if i = 0 then v else { v with m := updAt v.m i (fun _ => x % 2 ^ 128) }

/-- A vector register V0 to V30. -/
def Vec.reg (v : Vec) (i : Nat) : Nat := Tbl.get 0 v.v i

/-- A vector register V0 to V30 written. -/
def Vec.setReg (v : Vec) (i x : Nat) : Vec := { v with v := Tbl.set 0 v.v i (x % 2 ^ 2048) }

/-- A scalar register. -/
def Vec.scalar (v : Vec) (i : Nat) : Nat := nth v.s i 0

/-- A scalar register written. -/
def Vec.setScalar (v : Vec) (i x : Nat) : Vec := { v with s := updAt v.s i (fun _ => x % 2 ^ 32) }

/-- A list of bytes as a register value. -/
def regOfBytes (l : List Nat) : Nat := l.foldr (fun b x => b % 256 + 256 * x) 0

end Sys2Proof.Machine
end

