-- ==== Sys2Proof/Machine/Bucket.lean ====
section
/-!
DEFINITION. Regulators (12): buckets, admission and its order, and the traffic of shared units; the reasons for which a request waits
(08); and host memory through the host-line cache (14), whose write-backs are admitted too.
-/
namespace Sys2Proof.Machine

/-! ## What a request waits for (R187) -/

/-- The tier a request is charged to (Table 8.6): T1 to T3, or 4 for host memory. -/
def Req.tier (s : State) (r : Req) : Nat :=
  if addrClass r.addr = 1 then 4 else match s.phys r.addr with | some a => tierOf a | none => 1

/-- MODEL_MISS among the reasons of a request: a local cause (Table 8.6). -/
def modelReason : Nat := 15

/-- The reason for which a request waits in its present state; a sector under recovery is POISON, a wait for the host's BIRsp is
FAR_LINK (R318), one for a line of a window that of its fill (R267), and one for a layer of a model MODEL_MISS (R266). -/
def Req.reason (s : State) (r : Req) : Nat :=
  match r.st with
  | .xlat | .page | .credit => 6
  | .zero | .bucket | .window => 1
  | .model => modelReason
  | .bi => 4
  | .sent | .fill => (match s.phys r.addr with | some a => if (s.sector a).recover then 5 else 0 | none => 0)
  | _ => 0

/-- A request moves to state `st`; the reason that held it longest is kept. -/
def Req.move (s : State) (r : Req) (st : ReqSt) : Req :=
  let d := s.time - r.since
  { r with st := st, since := s.time, worst := if r.worst.2 < d then (r.reason s, d) else r.worst }

/-- The reason that has held a request longest up to now. -/
def Req.longest (s : State) (r : Req) : Nat := if r.worst.2 ≤ s.time - r.since then r.reason s else r.worst.1

/-- The cause of Table 8.6 of a request's wait for a reason. -/
def Req.causeOf (s : State) (r : Req) (reason : Nat) : Nat := if reason = modelReason then 7 else 8 * r.tier s + reason

/-- State of one request of a channel changed. -/
def State.setReq (s : State) (t c tok : Nat) (f : Req → Req) : State :=
  s.updChan t c (fun ch => { ch with reqs := ch.reqs.map (fun r => if r.tok = tok then f r else r) })

/-! ## Buckets (R269, R271) -/

/-- Key of a bucket: slots of Table 12.6, and 26 + INDEX for the inbound HOST bucket. -/
def bucketKey (p slot : Nat) : Nat := p * 32 + slot

/-- A bucket. -/
def State.bucket (s : State) (p slot : Nat) : Bucket := Tbl.get {} s.memc.buckets (bucketKey p slot)

/-- A bucket changed. -/
def State.updBucket (s : State) (p slot : Nat) (f : Bucket → Bucket) : State :=
  { s with memc := { s.memc with buckets := Tbl.upd {} s.memc.buckets (bucketKey p slot) f } }

/-- The resource slot of a bucket: an inbound HOST bucket is of its HOST slot. -/
def resourceSlot (slot : Nat) : Nat := if 26 ≤ slot then slot - 10 else slot

/-- RATE and BURST of a bucket, if its partition has a record for the resource (Table 3.7). -/
def State.rateBurst (s : State) (p slot : Nat) : Option (Nat × Nat) :=
  (cfgReg s.folio.active p (resourceSlot slot)).map (fun r => (r.f 4 4, r.f 8 4))

/-- Offset of the registers of a regulator. -/
def regulatorBase (p slot : Nat) : Nat := 0x100000 + 0x400 * p + 0x20 * resourceSlot slot

/-- A request waits at a bucket of the resource of `slot`. -/
def State.anyWait (s : State) (p slot : Nat) : Bool :=
  let r := resourceSlot slot
  !(s.bucket p r).waits.isEmpty || ((r == 16 || r == 17) && !(s.bucket p (r + 10)).waits.isEmpty)

/-- Time with a request waiting at a resource, charged up to now (Table 12.7); its start is kept with the resource's own bucket. -/
def State.chargeWait (s : State) (p slot : Nat) : State :=
  let from' := if s.anyWait p slot then some s.time else none
  let s := match (s.bucket p (resourceSlot slot)).waitFrom with
    | some t => if t < s.time then s.bump (regulatorBase p slot + 0x18) 64 (s.time - t) else s
    | none => s
  if (s.bucket p (resourceSlot slot)).waitFrom = from' then s else s.updBucket p (resourceSlot slot) (fun b => { b with waitFrom := from' })

/-- Waiting entries dropped from the buckets, but those for which `keep` holds. -/
def State.keepWaits (s : State) (keep : BWait → Bool) : State :=
  s.memc.buckets.foldl (fun s e =>
    if e.2.waits.all keep then s
    else (s.updBucket (e.1 / 32) (e.1 % 32) (fun b => { b with waits := b.waits.filter keep })).chargeWait (e.1 / 32) (e.1 % 32)) s

/-- What buckets have admitted for the shared units' traffic of `cid`, and what it still waits for, given up. -/
def State.dropGrants (s : State) (cid : Nat) : State :=
  let s := s.keepWaits (fun w => !(w.cid == cid && w.tgt == .unit))
  { s with memc := { s.memc with buckets := s.memc.buckets.map (fun (e : Nat × Bucket) =>
      (e.1, { e.2 with grants := e.2.grants.filter (fun g => g.1 != cid) })) } }

/-! ## Admission (R269-R272) -/

/-- Base of the host-line cache counters of die `d`. -/
def hlcBase (d : Nat) : Nat := 0x321000 + 0x40 * d

/-- Bytes read or written through port `p`. -/
def State.portBytes (s : State) (p : Nat) (write : Bool) (n : Nat) : State :=
  s.bump (0x320010 + 0x100 * p + (if write then 8 else 0)) 64 n

/-- The command under which traffic of no command of this device takes its turn: that of a flow's peer or of a port (log entry 30). -/
def flowCid (f : Nat) : Nat := cidOf 4096 f

/-- The budget of a command on a slot in bytes per µs (R185, R271): what its image declares; for a command with a request, what its
entry declares, held to the RATE; otherwise 0. -/
def State.budgetOf (s : State) (p cid slot : Nat) : Nat :=
  let c := s.cmd cid
  if 2 ≤ c.opcode && c.opcode ≤ 5 then min (fieldOf c.entry 4 4) (((s.rateBurst p slot).map (·.1)).getD 0)
  else ((c.budgets.find? (fun b => b.1 == resourceSlot slot)).map (·.2)).getD 0

/-- A number kept by command. -/
def ofCid (l : List (Nat × Nat)) (cid : Nat) : Nat := ((l.find? (fun x => x.1 == cid)).map (·.2)).getD 0

/-- It changed. -/
def setCid (l : List (Nat × Nat)) (cid n : Nat) : List (Nat × Nat) :=
  if n = 0 then l.filter (fun x => x.1 != cid) else (cid, n) :: l.filter (fun x => x.1 != cid)

/-- The first waiting entries of each command, in arrival order. -/
def firstOfEach : List Nat → List BWait → List BWait
  | _, [] => []
  | seen, w :: ws => if seen.contains w.cid then firstOfEach seen ws else w :: firstOfEach (w.cid :: seen) ws

/-- Place of a queue in the rotation after queue `last`. -/
def rotation (last q : Nat) : Nat := (q + 8192 - (last + 1) % 8192) % 8192

/-- The first in rotation of some waiting entries. -/
def firstInRotation (last : Nat) (ws : List BWait) : Option BWait :=
  ws.foldl (fun m w => match m with
    | none => some w
    | some x => if rotation last (cmdName w.cid).1 < rotation last (cmdName x.cid).1 then some w else some x) none

/-- The entry of a bucket that is admitted next (Table 12.5), and whether it is within its command's budget for the interval: a command
whose budget is not yet spent comes first. -/
def State.nextWait (s : State) (p slot : Nat) (b : Bucket) : Option (BWait × Bool) :=
  let heads := firstOfEach [] b.waits
  match firstInRotation b.lastQ (heads.filter (fun w => ofCid b.spent w.cid < s.budgetOf p w.cid slot)) with
  | some w => some (w, true)
  | none => (firstInRotation b.lastQ heads).map (·, false)

/-- An admitted entry goes on: a request to its target, a fill to memory; a shared unit's traffic is granted. -/
def State.admitted (s : State) (p slot : Nat) (w : BWait) : State :=
  match w.tgt with
  | .req t c tok => s.updChan t c (fun ch => { ch with reqs := ch.reqs.map (fun r => if r.tok = tok then r.move s .sent else r) })
  | .fill cl line =>
    let ws := (((Tbl.get ({} : Cache) s.caches cl).fills.find? (fun f => f.line == line)).map (·.wait)).getD []
    let s := ws.foldl (fun s x => s.updChan x.1 x.2.1 (fun ch =>
      { ch with reqs := ch.reqs.map (fun r => if r.tok = x.2.2 then r.move s .fill else r) })) s
    { s with caches := Tbl.upd ({} : Cache) s.caches cl (fun k => { k with fills := k.fills.map (fun f => if f.line = line then { f with admitted := true } else f) }) }
  | .evict d addr =>
    match s.host.goWait.find? (fun g => g.die == d && g.addr == addr && g.out.isSome) with
    | none => s
    | some g =>
      let s := s.emit (.dirtyEvict g.port addr (g.out.getD []))
      let s := (s.bump (hlcBase d + 0x18) 64 1).portBytes g.port true 64
      { s with host := { s.host with goWait := s.host.goWait.map (fun x => if x = g then { x with out := none } else x) } }
  | .unit => s.updBucket p slot (fun b => { b with grants := setCid b.grants w.cid (ofCid b.grants w.cid + w.bytes) })

/-- Waiting requests admitted while the bucket holds enough (R269, R271). -/
def State.admitLoop : Nat → State → Nat → Nat → State
  | 0, s, _, _ => s
  | fuel + 1, s, p, slot =>
    let b := s.bucket p slot
    match s.nextWait p slot b, s.rateBurst p slot with
    | some w, some (_, burst) =>
      if (min w.1.bytes burst : Nat) ≤ b.tokens then
        let s := s.updBucket p slot (fun b => { b with
          tokens := b.tokens - w.1.bytes, waits := b.waits.erase w.1, lastQ := (cmdName w.1.cid).1,
          spent := if w.2 then setCid b.spent w.1.cid (ofCid b.spent w.1.cid + w.1.bytes) else b.spent })
        let s := s.bump (regulatorBase p slot + 0x10) 64 w.1.bytes
        State.admitLoop fuel (s.admitted p slot w.1) p slot
      else s
    | _, _ => s

/-- Admission at a bucket, with its wait time. -/
def State.letIn (s : State) (p slot : Nat) : State :=
  (State.admitLoop ((s.bucket p slot).waits.length + 1) s p slot).chargeWait p slot

/-- REGULATOR_ZERO, once for a launch (R272). -/
def State.regulatorZero (s : State) (cid slot : Nat) (src : Src) : State :=
  if (s.cmd cid).regZero || !s.hasCmd cid then s
  else
    let r := resourceSlot slot
    let (res, idx) := if r < 8 then (0, r) else if r < 16 then (1, r - 8) else if r < 18 then (2, r - 16) else (3, r - 18)
    (s.updCmd cid (fun c => { c with regZero := true })).blotCmd cid 0x030A src 0 [(res, 1), (idx, 1)] false

/-- Entries wait at a bucket, and are admitted if they may be. -/
def State.joinAll (s : State) (p cid slot : Nat) (src : Src) (ws : List BWait) : State :=
  let s := if (s.rateBurst p slot).isNone then s.regulatorZero cid slot src else s
  (s.updBucket p slot (fun b => { b with waits := b.waits ++ ws })).letIn p slot

/-- A request waits at its bucket, and is admitted if it may be. -/
def State.joinBucket (s : State) (cid slot bytes : Nat) (w : Adm) : State :=
  let src : Src := match w with | .req t _ _ => ⟨1, t⟩ | .fill cl _ => ⟨2, cl⟩ | .evict d _ => ⟨5, d⟩ | .unit => ⟨0, 0⟩
  s.joinAll ((s.cmd cid).part.getD 0) cid slot src [⟨cid, bytes, w⟩]

/-! ## The traffic of shared units (R269-R272)

A command of a shared unit that moves bytes has its effect once its buckets have admitted them all and the host has released the sectors it
writes. Until then its traffic waits with them and nothing else changes. -/

/-- Bytes that the command under way moves, to be paid for (R270). -/
def State.owe (s : State) (p cid slot bytes : Nat) (src : Src) : State :=
  { s with memc := { s.memc with due := s.memc.due ++ [⟨p, cid, slot, bytes, src⟩] } }

/-- The bucket and command of a due amount. -/
def Due.key (d : Due) : Nat × Nat × Nat := (d.part, d.cid, d.slot)

/-- The due amounts beyond the first `n` bytes. -/
def beyond : Nat → List Due → List Due
  | _, [] => []
  | n, d :: ds => if d.bytes ≤ n then beyond (n - d.bytes) ds else d :: ds

/-- What a bucket has admitted for the shared units' traffic of `cid`, and what of it waits. -/
def Bucket.asked (b : Bucket) (cid : Nat) : Nat :=
  ofCid b.grants cid + sumN ((b.waits.filter (fun w => w.cid == cid && w.tgt == .unit)).map (·.bytes))

/-- The due amounts that do not wait yet join their buckets. -/
def State.ask (s : State) (ds : List Due) : State :=
  ((ds.map Due.key).eraseDups).foldl (fun s k =>
    let mine := ds.filter (fun d => d.key == k)
    let src := ((mine.head?).map (·.src)).getD ⟨0, 0⟩
    s.joinAll k.1 k.2.1 k.2.2 src ((beyond ((s.bucket k.1 k.2.2).asked k.2.1) mine).map (fun d => ⟨d.cid, d.bytes, .unit⟩))) s

/-- Every due amount has been admitted. -/
def State.granted (s : State) (ds : List Due) : Bool :=
  ds.all (fun d => decide (sumN ((ds.filter (fun x => x.key == d.key)).map (·.bytes)) ≤ ofCid (s.bucket d.part d.slot).grants d.cid))

/-- The due amounts taken from what was admitted. -/
def State.spend (s : State) (ds : List Due) : State :=
  ds.foldl (fun s d => s.updBucket d.part d.slot (fun b => { b with grants := setCid b.grants d.cid (ofCid b.grants d.cid - d.bytes) })) s

/-- Nothing is due any more. -/
def State.settled (s : State) : State := { s with memc := { s.memc with due := [] } }

/-- `f` done once what it moves has been admitted and the host has released the sectors it writes; before that its traffic waits, and its
sectors are asked for. -/
def State.paid (s : State) (f : State → State) : State :=
  let t := f s
  if t.memc.due.isEmpty && t.host.needs.isEmpty then t
  else
    let a := (s.ask t.memc.due).claim t.host.needs
    if a.granted t.memc.due && a.hostClaimed t.host.needs then ((f a).spend (f a).memc.due).settled.useTokens else a

/-- One amount that goes out by itself: admitted now, or waiting. -/
def State.pays (s : State) (d : Due) : State × Bool :=
  let a := s.ask [d]
  if a.granted [d] then (a.spend [d], true) else (a, false)

/-- The form of a meaning that reaches memory: `ecc` says how the sectors turn out, and what it moves is admitted first, with the sectors
it writes released by the host (log entry 196). -/
def runMem (ok : Bool) (ecc : Sectors) (s : State) (f : State → State) : Host.Outcome State Fault Refusal :=
  run ok s (fun s => ((s.setMed ecc).paid f).setMed [])

/-! ## Host memory through the host-line cache (R308-R312) -/

/-- The host-line cache of die `d`. -/
def State.hlc (s : State) (d : Nat) : List HLine := nth s.host.lines d []

/-- The host-line cache of die `d` changed. -/
def State.updHlc (s : State) (d : Nat) (f : List HLine → List HLine) : State :=
  { s with host := { s.host with lines := updAt s.host.lines d f } }

/-- Where a command's outcomes list the host line at `addr` of a host-line cache. -/
def hlcKey (addr : Nat) : Nat := 2 ^ 67 + addr / 64 * 64

/-- How the bits of a line in a host-line cache turn out (R282). -/
def State.hlcOutcome (s : State) (addr : Nat) : MemRes := ((s.memc.med.find? (fun o => o.1 == hlcKey addr)).map (·.2)).getD .ok

/-- SRAM errors of one bit corrected and counted (R282). -/
def State.sramFix (s : State) : State := { s with memc := { s.memc with sramCe := satAdd 64 s.memc.sramCe 1 } }

/-- A line of the host-line cache of die `d` read: an error of one bit is counted, a clean line with two is dropped, and a Modified one
answers the word that failed (R282). -/
def State.hlcSram (s : State) (d addr : Nat) : State × Option Nat :=
  match (s.hlc d).find? (fun l => l.addr == addr / 64 * 64), s.hlcOutcome addr with
  | some _, .sramFixed => (s.sramFix, none)
  | some l, .sramClean => (if l.dirty.isEmpty then s.updHlc d (fun ls => ls.filter (fun x => x.addr != l.addr)) else s, none)
  | some l, .sramDirty w => (s, if l.dirty.isEmpty then none else some w)
  | _, _ => (s, none)

/-- A Modified line written back with DirtyEvict; the commands whose writes it holds wait for its GO (R312, R315). It is charged to the
first of them that has not completed, and leaves once admitted; a line of none leaves at once (R270, log entry 30). -/
def State.dirtyEvict (s : State) (d port : Nat) (l : HLine) : State :=
  let bad := match s.hlcOutcome l.addr with | .sramDirty w => some w | _ => none
  let wait (out : Option (List (Nat × Nat))) (s : State) : State :=
    { s with host := { s.host with goWait := s.host.goWait ++ [{ die := d, port := port, addr := l.addr, cids := l.owners, out := out, bad := bad }] } }
  match l.owners.find? s.hasCmd with
  | some cid => (wait (some l.dirty) s).joinBucket cid (16 + port) 64 (.evict d l.addr)
  | none => wait none (((s.emit (.dirtyEvict port l.addr l.dirty)).bump (hlcBase d + 0x18) 64 1).portBytes port true 64)

/-- The line at `addr` put first in the cache of die `d`; the least recently used line of a full set gives way (R309). -/
def State.hlcPut (s : State) (d port : Nat) (l : HLine) : State :=
  let rest := (s.hlc d).filter (fun x => x.addr != l.addr)
  let set := rest.filter (fun x => x.addr / 64 % 2048 == l.addr / 64 % 2048)
  if set.length < 16 then s.updHlc d (fun _ => l :: rest)
  else match set.getLast? with
    | none => s.updHlc d (fun _ => l :: rest)
    | some v =>
      let s := if v.dirty.isEmpty then s else s.dirtyEvict d port v
      s.updHlc d (fun _ => l :: rest.filter (fun x => x.addr != v.addr))

/-- The line at `addr` taken from the cache of another die on the same port (R309). -/
def State.hlcTake (s : State) (d port addr : Nat) : State × Option HLine :=
  (upto 8).foldl (fun r e =>
    if e = d || r.1.diePort e != some port then r
    else match (r.1.hlc e).find? (fun l => l.addr == addr) with
      | some l => (r.1.updHlc e (fun ls => ls.filter (fun x => x.addr != addr)), some l)
      | none => r) (s, none)

/-- Bytes `dirty` laid over the bytes of a line at offset `off`. -/
def mergeDirty (dirty : List (Nat × Nat)) (off : Nat) (data : List Nat) : List (Nat × Nat) :=
  let new := (data.zipIdx).map (fun p => (off + p.2, p.1))
  dirty.filter (fun x => !(off ≤ x.1 && x.1 < off + data.length)) ++ new

/-- A write by die `d` of bytes within one line of host memory at translated address `addr` (R308, R311, R312). The flag says
that it is complete at once; otherwise it waits for HOST_WRITE_GO. -/
def State.hostWrite (s : State) (d port : Nat) (pasid : Option Nat) (cid : Option Nat) (untrans : Bool) (addr : Nat)
    (data : List Nat) : State × Bool :=
  let la := addr / 64 * 64
  let wait (s : State) : State := { s with host := { s.host with goWait := s.host.goWait ++ [{ die := d, port := port, addr := la, cids := cid.toList }] } }
  if s.portMode port < 2 || untrans then
    (wait ((s.emit (.hostWrite d addr pasid data)).portBytes port true data.length), false)
  else if data.length = 64 && addr % 64 = 0 then
    let s := (s.hlcTake d port la).1
    let s := s.updHlc d (fun ls => ls.filter (fun x => x.addr != la))
    (wait ((s.emit (.hostWrite d addr pasid data)).portBytes port true 64), false)
  else
    match (s.hlc d).find? (fun l => l.addr == la) with
    | some l =>
      let s := s.bump (hlcBase d) 64 1
      (s.hlcPut d port { l with dirty := mergeDirty l.dirty (addr % 64) data,
                                owners := match cid with | some c => if l.owners.contains c then l.owners else c :: l.owners | none => l.owners }, true)
    | none =>
      let (s, o) := s.hlcTake d port la
      let l : HLine := o.getD ⟨la, [], []⟩
      let s := (s.bump (hlcBase d + 8) 64 1)
      let s := if o.isSome then s else s.portBytes port false 64
      (s.hlcPut d port { l with dirty := mergeDirty l.dirty (addr % 64) data,
                                owners := match cid with | some c => if l.owners.contains c then l.owners else c :: l.owners | none => l.owners }, true)

/-- Bytes the host supplied for a line, with the Modified bytes a host-line cache holds laid over them. -/
def overlay (l : Option HLine) (addr : Nat) (data : List Nat) : List Nat :=
  match l with
  | none => data
  | some l => (data.zipIdx).map (fun p => ((l.dirty.find? (fun x => x.1 == addr % 64 + p.2)).map (·.2)).getD p.1)

/-- A read by die `d` within one line of host memory (R308, R309, R311): the host supplies `data`; `stream` reads with RdCurr
and allocates nothing. -/
def State.hostRead (s : State) (d port : Nat) (pasid : Option Nat) (stream untrans : Bool) (addr : Nat) (data : List Nat) :
    State × List Nat :=
  let la := addr / 64 * 64
  if s.portMode port < 2 || untrans then
    ((s.emit (.hostRead d addr pasid data.length)).portBytes port false data.length, data)
  else match (s.hlc d).find? (fun l => l.addr == la) with
    | some l => ((s.bump (hlcBase d) 64 1).hlcPut d port l, overlay (some l) addr data)
    | none =>
      let (s, o) := s.hlcTake d port la
      let s := s.bump (hlcBase d + 8) 64 1
      let s := if o.isSome then s else (s.emit (.hostRead d addr pasid 64)).portBytes port false 64
      (if stream && o.isNone then s else s.hlcPut d port (o.getD ⟨la, [], []⟩), overlay o addr data)

end Sys2Proof.Machine
end

