-- ==== Sys2Proof/Machine/Cmds.lean ====
section
/-!
DEFINITION. The life of a command (16, 17): its tasks and how they end, semaphores, placement and preemption, the fence, and
the suspect procedure of 20 that takes tiles away from placement.
-/
namespace Sys2Proof.Machine

/-! ## Suspect units (R470-R474) -/

/-- Nanoseconds of 24 h. -/
def dayNs : Nat := 86400000000000

/-- The die of a unit: KIND 1 tile, 2 cluster, 3 table engine. -/
def dieOfUnit (kind num : Nat) : Nat := if kind = 1 then num / 16 else if kind = 2 then num / 4 else num / 2

/-- Key of a unit in the suspect history. -/
def unitKey (kind num : Nat) : Nat := kind * 4096 + num

/-- Suspect history of a unit. -/
def State.susUnit (s : State) (kind num : Nat) : SusUnit := Tbl.get {} s.flt.units (unitKey kind num)

/-- Suspect history changed. -/
def State.updSus (s : State) (kind num : Nat) (f : SusUnit → SusUnit) : State :=
  { s with flt := { s.flt with units := Tbl.upd {} s.flt.units (unitKey kind num) f } }

/-- Margin of a stage in mV and cap in Mstep/s (Table 20.6). -/
def stageMargin (st : Nat) : Nat := nth [0, 25, 25, 50, 50, 75, 75] st 0
def stageCap (st : Nat) : Nat := nth [0, 0, 1425, 0, 1275, 0, 1125] st 0

/-- The first stage from `st` upward that a unit of this kind uses: clusters and table engines only those without a cap;
none past its last (R471). -/
def nextStage (kind st : Nat) : Option Nat :=
  (upto 7).find? (fun x => st ≤ x && (kind == 1 || stageCap x == 0))

/-- STRIKES: the suspect events of the last 24 h (R473). -/
def State.strikes (s : State) (kind num : Nat) : Nat :=
  ((s.susUnit kind num).events.filter (fun e => s.time < e + dayNs)).length

/-- Whether a unit is confined: in the procedure, or retirement pending (R470, R473). -/
def State.unitConfined (s : State) (kind num : Nat) : Bool :=
  s.flt.suspects.any (fun u => u.kind == kind && u.num == num) || (s.susUnit kind num).pending

/-- The partitions with a table whose shards lie on die `d` (R461): those that own a table with a shard or replica there,
as DIES of its descriptor gives it (Table 9.1). -/
def State.tableParts (s : State) (d : Nat) : List Nat :=
  ((recsOf s.folio.active secTable).filter (fun r => bit (r.f 30 1) d)).map (fun r => r.part 0)

/-- The rings Pd of the 0x07 classes (R461) with G. -/
def State.susRings (s : State) (kind num : Nat) : List Nat :=
  let own := if kind = 3 then s.tableParts (dieOfUnit kind num)
             else s.parts.filter (fun p => bit (s.clusters p) (if kind = 1 then num / 4 else num))
  ringG :: own

/-- A suspect event on a unit (R470): counted; a unit not yet in the procedure is confined and queued on its die. -/
def State.suspect (s : State) (kind num cls : Nat) : State :=
  let inProc := s.unitConfined kind num
  let s := s.updSus kind num (fun u => { u with events := (u.events.filter (fun e => s.time < e + dayNs)) ++ [s.time] })
  if inProc || s.retired (kind - 1) num then s
  else
    let u := s.susUnit kind num
    let kept := match u.kept with
      | none => 0
      | some k => k + (match u.last with | some t => b2n (decide (s.time < t + dayNs)) | none => 0)
    let st := (nextStage kind kept).getD 7
    let first := !(s.flt.suspects.any (fun x => dieOfUnit x.kind x.num == dieOfUnit kind num))
    let s := { s with flt := { s.flt with suspects := s.flt.suspects ++ [Suspect.mk kind num cls st first] } }
    let s := s.updSus kind num (fun u => { u with last := some s.time })
    s.blot { cls := 0x0703, src := ⟨kind, num⟩, detail := [(cls, 2), (st, 1), (s.strikes kind num, 1)] } (s.susRings kind num)

/-- Whether tile `t` is confined, itself or with its cluster. -/
def State.tileConfined (s : State) (t : Nat) : Bool := s.unitConfined 1 t || s.unitConfined 2 (clusterOfTile t)

/-! ## Commands and tiles -/

/-- The keys of all commands. -/
def State.cids (s : State) : List Nat := s.sched.cmds.map (·.1)

/-- The commands of queue `q`, by key. -/
def State.queueCmds (s : State) (q : Nat) : List Nat := s.cids.filter (fun c => c / 2 ^ 23 == q)

/-- The tiles that hold a task of `cid`. -/
def State.tilesOf (s : State) (cid : Nat) : List Nat :=
  (upto 128).filter (fun t => match (s.tile t).task with | some k => k.cid == cid | none => false)

/-- `cid` used a unit of die `d` (R35). -/
def State.concern (s : State) (cid d : Nat) : State := s.updCmd cid (fun c => { c with dies := c.dies ||| 2 ^ d })

/-- INSIDE as a mask (Table 2.7). -/
def State.inside (s : State) : Nat := s.field 0x10000 7 0

/-- The command has an execution under way: its first step is taken and its fence has not ended (R35). -/
def Cmd.executing (c : Cmd) : Bool :=
  c.firstEver.isSome && c.st != .none && c.st != .fenced

/-- The command is in flight on its units: placed, and its fence has not ended (R34). -/
def Cmd.inFlight (c : Cmd) : Bool := [CmdSt.placed, .running, .saving, .saved, .restoring, .ending, .fencing].contains c.st

/-- The first step of a run of `cid` (R35, R363): T_START, and the dies that lack the guarantee now. -/
def State.stepped (s : State) (cid : Nat) : State :=
  let c := s.cmd cid
  if c.firstStep.isSome then s
  else s.setCmd cid { c with firstStep := some s.time, firstEver := c.firstEver.or (some s.time),
                             lost := c.lost ||| (255 - s.inside) }

/-- A flow. -/
def State.flow (s : State) (f : Nat) : Flow := Tbl.get {} s.fab.flows f

/-- A flow changed. -/
def State.updFlow (s : State) (f : Nat) (g : Flow → Flow) : State :=
  { s with fab := { s.fab with flows := Tbl.upd {} s.fab.flows f g } }

/-- A group's collective `seq` is over: complete or aborted. -/
def State.collOver (s : State) (g seq : Nat) : State :=
  { s with fab := { s.fab with groups := Tbl.upd {} s.fab.groups g (fun x => if x.ended.contains seq then x else { x with ended := seq :: x.ended }) } }

/-- ABORT of a collective queued on the flows of its members (R429): reason and die. -/
def State.queueAbort (s : State) (o : QOp) (reason die : Nat) : State :=
  match o.group with
  | none => s
  | some g =>
    ((o.flows.zipIdx).filter (fun f => f.2 != o.my)).foldl (fun s f =>
      s.updFlow f.1 (fun x => if x.st = 1 then { x with queue := x.queue ++ [{ kind := 8, opid := o.id, die := some die, fields := [g, reason, die, o.seq] }] } else x)) s

/-- The Quill work of `cid` that is not on the wire dropped: descriptors, operations and their packets not yet sent; ABORT goes
out for its collectives in progress (R423, R429). -/
def State.dropQuill (s : State) (cid : Nat) : State :=
  let mine := s.fab.ops.filter (fun o => o.cid == cid)
  let s := (mine.filter (fun o => 4 ≤ o.kind && o.kind ≤ 6)).foldl (fun s o =>
    match o.group with
    | some g => (s.queueAbort o 2 (dieOfTile o.tile)).collOver g o.seq
    | none => s) s
  let tidy (x : Flow) : Flow := { x with queue := x.queue.filter (fun k => k.cid != some cid) }
  { s with fab := { s.fab with ops := s.fab.ops.filter (fun o => o.cid != cid), rings := s.fab.rings.filter (fun e => e.1 / 32 != cid),
                               flows := s.fab.flows.map (fun (e : Nat × Flow) => (e.1, tidy e.2)) } }

/-- The work that shared units hold for `cid` dropped (R340 step 2). -/
def State.dropOps (s : State) (cid : Nat) : State :=
  { s with units := { s.units with te := Tbl.erase s.units.te cid, upd := Tbl.erase s.units.upd cid,
                                   red := Tbl.erase s.units.red cid, ses := Tbl.erase s.units.ses cid }
           host := { s.host with biWait := (s.host.biWait.filter (fun (w : BiWait) => !(w.token w.addr && w.cid == some cid))).map (fun (w : BiWait) =>
             if w.data.isEmpty && w.cid == some cid then { w with cid := none } else w) } }.dropQuill cid |>.dropGrants cid

/-- Requests of tile `t` that wait in shared units dropped, and the fills not yet admitted that no request waits for any more. -/
def State.dropWaits (s : State) (t : Nat) : State :=
  let used (f : Fill) : Bool := f.admitted || f.pin.isSome || f.wait.any (fun w => w.1 != t)
  let gone (cl line : Nat) : Bool := (Tbl.get ({} : Cache) s.caches cl).fills.any (fun f => f.line == line && !used f)
  let s' := s.keepWaits (fun w => match w.tgt with | .req u _ _ => u != t | .fill cl line => !gone cl line | _ => true)
  { s' with caches := s'.caches.map (fun e => (e.1, { e.2 with
      fills := (e.2.fills.filter used).map (fun f => { f with wait := f.wait.filter (fun w => w.1 != t) })
      queue := e.2.queue.filter (fun w => w.1 != t) })) }

/-- The window of `cid` in a cluster closed once none of its tasks is there (R267, R268): what was filled is released, and fills that
serve no request are given up. -/
def State.closeWindow (s : State) (cid cl : Nat) : State :=
  if s.sched.wins.any (fun w => w.cid == cid && w.cl == cl) && !(s.tilesOf cid).any (fun t => clusterOfTile t == cl) then
    let s := { s with sched := { s.sched with wins := s.sched.wins.filter (fun w => !(w.cid == cid && w.cl == cl)) } }
    let dead (f : Fill) : Bool := f.pin == some cid && f.wait.isEmpty && !f.admitted
    let s := s.keepWaits (fun w => match w.tgt with
      | .fill c line => !(c == cl && (Tbl.get ({} : Cache) s.caches cl).fills.any (fun f => f.line == line && dead f))
      | _ => true)
    { s with caches := Tbl.upd ({} : Cache) s.caches cl (fun k => { k with
        fills := (k.fills.filter (fun f => !dead f)).map (fun f => if f.pin = some cid then { f with pin := none } else f) }) }
  else s

/-- Launches ended on tile `t` since its last sampled probe. -/
def State.launchesOn (s : State) (t : Nat) : Nat := Tbl.get 0 s.flt.launches t

/-- Whether the sampled probe of tile `t` is due (R464). -/
def State.probeDue (s : State) (t : Nat) : Bool :=
  bit (s.reg 0x30800) 0 && 2 ^ (s.field 0x30800 7 4) ≤ s.launchesOn t

/-- The flags of the units of tile `t` as bits [9:0] of NUMSUM (Table 6.6). -/
def State.tileFlags (s : State) (t : Nat) : Nat :=
  (bits (s.reg (engBase t 0 + 0xC)) 4 0 ||| bits (s.reg (engBase t 1 + 0xC)) 4 0) ||| (32 * bits (s.reg (tileBase t + 0x204)) 4 0)

/-- The vector unit as no task uses it: what software sees of it stays. -/
def Vec.idle (v : Vec) : Vec := { v with claims := 0, claimWait := none, reps := [], outFull := false, inEmpty := false, aload := [], stall := none }

/-- A tile as its task leaves it: armed injections, the vector registers and K and ORDER of the last SINIT stay (R129, R148, R164). -/
def Tile.idle (x : Tile) : Tile :=
  { x with eng := x.eng.map (fun e => { inject := e.inject }), vec := x.vec.idle, sel := { k := x.sel.k, ord := x.sel.ord }, chans := [], task := none }

/-- The stalls of tile `t` that its task's end cuts short, charged (R187). -/
def State.endStalls (s : State) (t : Nat) : State :=
  let x := s.tile t
  (((x.eng.map (fun e => [e.stall, e.dstall])).flatten ++ [x.vec.stall]).filterMap id).foldl (fun s w =>
    (s.bump (tileBase t + 0x800 + 8 * w.2) 64 (s.time - w.1)).bump (tileBase t + 0xA00 + 4 * w.2) 32 1) s

/-- The task of tile `t` ends: its flags join its command's, its channels and engines return to their state without a
task, and its waiting requests are dropped (R126, R180). -/
def State.leaveTile (s : State) (t : Nat) : State :=
  match (s.tile t).task with
  | none => s
  | some k =>
    let ran := match k.st with | .loaded | .restoring => false | _ => true
    let s := if k.shadow || !ran then s else s.updCmd k.cid (fun c => { c with numsum := c.numsum ||| s.tileFlags t })
    let s := (s.setReg (engBase t 0) 0x40000000).setReg (engBase t 1) 0x40000000
    let s := (s.endStalls t).updTile t Tile.idle
    let s := (s.dropWaits t).closeWindow k.cid (clusterOfTile t)
    { s with flt := { s.flt with launches := Tbl.upd 0 s.flt.launches t (· + 1) } }

/-! ## Ready list, semaphores, frames (R380, R391, R384) -/

/-- Order of the ready list: priority, then readiness (R380). -/
def Cmd.before (a b : Cmd) : Bool := b.prio < a.prio || (a.prio == b.prio && a.order < b.order)

/-- Insertion by the order of the ready list. -/
def State.insertReady (s : State) (c : Nat) : List Nat → List Nat
  | [] => [c]
  | x :: xs => if (s.cmd c).before (s.cmd x) then c :: x :: xs else x :: s.insertReady c xs

/-- The ready list of partition `p`: launches ready or saved. -/
def State.readyList (s : State) (p : Nat) : List Nat :=
  (s.cids.filter (fun c => (s.cmd c).part == some p && ((s.cmd c).st == .ready || (s.cmd c).st == .saved))).foldl
    (fun l c => s.insertReady c l) []

/-- Key of semaphore `n` of partition `p`. -/
def semKey (p n : Nat) : Nat := p * 32 + n

/-- Semaphore `n` of partition `p`. -/
def State.sem (s : State) (p n : Nat) : Sem := Tbl.get {} s.sched.sems (semKey p n)

/-- Semaphore changed. -/
def State.updSem (s : State) (p n : Nat) (f : Sem → Sem) : State :=
  { s with sched := { s.sched with sems := Tbl.upd {} s.sched.sems (semKey p n) f } }

/-- The semaphores `cid` holds. -/
def State.semsHeld (s : State) (cid : Nat) : List Nat :=
  match (s.cmd cid).part with
  | none => []
  | some p => (upto 32).filter (fun n => (s.sem p n).holder == some cid)

/-- The tasks of `cid` that wait at a SEM_ACQ for `n` run on; the hold bound is that of the mark. -/
def State.semWake (s : State) (cid n : Nat) : State :=
  (s.tilesOf cid).foldl (fun s t => s.updTile t (fun x => { x with task := x.task.map (fun k =>
    match k.st with | .semWait m _ => if m = n then { k with st := .run } else k | _ => k) })) s

/-- The hold bound with which a task of `cid` waits for `n`. -/
def State.semBound (s : State) (cid n : Nat) : Nat :=
  ((s.tilesOf cid).findSome? (fun t => match (s.tile t).task with
    | some k => (match k.st with | .semWait m h => if m = n then some h else none | _ => none)
    | none => none)).getD 0

/-- Semaphore `n` of `p` released and granted to the first waiter in ready-list order (R391). -/
def State.semRelease (s : State) (p n : Nat) : State :=
  let ws := (s.sem p n).waiters.foldl (fun l c => s.insertReady c l) []
  match ws with
  | [] => s.updSem p n (fun _ => {})
  | w :: rest =>
    let h := s.semBound w n
    (s.updSem p n (fun _ => { holder := some w, since := s.time, holdNs := h, passed := 0, waiters := rest })).semWake w n

/-- Every semaphore of `cid` released, and its waits given up. -/
def State.semDrop (s : State) (cid : Nat) : State :=
  match (s.cmd cid).part with
  | none => s
  | some p => (upto 32).foldl (fun s n =>
      let s := if (s.sem p n).waiters.contains cid then s.updSem p n (fun m => { m with waiters := m.waiters.filter (· != cid) }) else s
      if (s.sem p n).holder == some cid then s.semRelease p n else s) s

/-- The save segment of `p` (R384): SEG_ID 63, TIER 1, CORRECTED. -/
def State.saveSeg (s : State) (p : Nat) : Option Rec :=
  match cfgSeg s.folio.active p 63 with
  | some r => if r.f 1 1 = 1 && r.f 2 1 = 0 then some r else none
  | none => none

/-- Frames of the save segment. -/
def State.frames (s : State) (p : Nat) : Nat :=
  match s.saveSeg p with | some r => (r.f 16 8 + 1 - r.f 8 8) / 2097152 | none => 0

/-- Key of the frame of a task. -/
def frameKey (cid idx : Nat) : Nat := cid * 32 + idx

/-- The frames of `cid` freed. -/
def State.freeFrames (s : State) (cid : Nat) : State :=
  { s with saved := s.saved.filter (fun e => e.1 / 32 != cid) }

/-- The flags of a saved task's units, as bits [9:0] of NUMSUM: its frame holds them (R131, R385). -/
def Tile.frameFlags (x : Tile) : Nat := (bits (nth x.frame 2 0) 4 0 ||| bits (nth x.frame 3 0) 4 0) ||| (32 * bits (nth x.frame 4 0) 4 0)

/-- The flags in the frames of `cid` joined to its own: it ends while it is saved or restored (R131). -/
def State.gatherFrames (s : State) (cid : Nat) : State :=
  let fl := (s.saved.filter (fun e => e.1 / 32 == cid && e.1 % 32 < 16)).foldl (fun n e => n ||| e.2.frameFlags) 0
  if fl = 0 then s else s.updCmd cid (fun c => { c with numsum := c.numsum ||| fl })

/-- Frames of the save segment of `p` in use: those of saved tasks, and those that launches save into now (R384). -/
def State.framesUsed (s : State) (p : Nat) : Nat :=
  (s.saved.filter (fun e => (s.cmd (e.1 / 32)).part == some p)).length
  + sumN ((s.cids.filter (fun v => (s.cmd v).part == some p && (s.cmd v).st == .saving)).map (fun v => (s.tilesOf v).length))

/-! ## The fence (R315) -/

/-- The completion fence of `cid` begins: Modified host lines with its writes are written back, and in mode PCIE each port
that carried writes of it is read (R315). -/
def State.startFence (s : State) (cid : Nat) : State :=
  let s := (upto 8).foldl (fun s d =>
    match s.diePort d with
    | none => s
    | some p =>
      let mine := (s.hlc d).filter (fun l => l.owners.contains cid && !l.dirty.isEmpty)
      mine.foldl (fun s l => (s.updHlc d (fun ls => ls.filter (fun x => x.addr != l.addr))).dirtyEvict d p l) s) s
  [0, 1].foldl (fun s p =>
    if s.portMode p = 1 && s.host.goWait.any (fun w => w.port == p && w.cids.contains cid) then s.emit (.zeroRead p) else s) s

/-! ## Placement and preemption (R379-R383) -/

/-- Whether a REPAIR in progress names tile `t` (R70). -/
def State.retireNamed (s : State) (t : Nat) : Bool :=
  s.flt.retiring.any (fun u => (u.1 == 0 && u.2.1 == t) || (u.1 == 1 && u.2.1 == clusterOfTile t))

/-- Whether another launch than `cid` has tile `t` reserved (R382). -/
def State.reservedOther (s : State) (cid t : Nat) : Bool :=
  s.cids.any (fun c => c != cid && (s.cmd c).reserved.contains t)

/-- Tile `t` is eligible for a task of `cid` (R379, R463, R464). -/
def State.eligible (s : State) (cid t : Nat) : Bool :=
  (s.tile t).task.isNone && !s.tileConfined t && !(s.tile t).reprobe && !(nth s.memc.halt (dieOfTile t) false)
  && !s.probeDue t && !(s.flt.probes.any (fun q => q.kind == 1 && q.num == t)) && !s.retireNamed t && !s.reservedOther cid t

/-- The eligible tiles of partition `p` for `cid`, rising. -/
def State.eligibles (s : State) (p cid : Nat) : List Nat := (s.partTiles p).filter (fun t => s.eligible cid t)

/-- Rules 1 and 2 of R381 on a rising list of tiles. -/
def pickTiles (el : List Nat) (g : Nat) : Option (List Nat) :=
  let byCluster := if g ≤ 4 then
      (upto 32).findSome? (fun c => let l := el.filter (fun t => clusterOfTile t == c); if g ≤ l.length then some (l.take g) else none)
    else none
  match byCluster with
  | some l => some l
  | none => if g ≤ el.length then some (el.take g) else none

/-- The image of `cid` is marked idempotent (Table 17.1). -/
def Cmd.idempotent (c : Cmd) : Bool := bit c.hdr.flags 0

/-- NONPREEMPT (Table 16.4). -/
def Cmd.nonpreempt (c : Cmd) : Bool := bit c.flags 2

/-- A launch watched by the watchdog (R390). -/
def Cmd.watched (c : Cmd) : Bool := bit c.hdr.flags 1 || c.nonpreempt

/-- Tasks of `cid` put on tiles `ts`, from index 0. -/
def State.putTasks (s : State) (cid : Nat) (ts : List Nat) (shadow : Bool) (st : TaskSt) : State :=
  (ts.zipIdx).foldl (fun s p => s.updTile p.1 (fun x => { x with task := some { cid := cid, idx := p.2, shadow := shadow, st := st } })) s

/-- A sampled launch gets its shadow where further tiles are eligible (R466, R467). -/
def State.sampleShadow (s : State) (p cid : Nat) (ts : List Nat) : State :=
  let c := s.cmd cid
  let ctrl := s.reg (0x30900 + 0x20 * p)
  if bit ctrl 0 && c.idempotent && c.hdr.tiles ≤ 8 && c.posts.isEmpty then
    let hit := s.freeVal % 2 ^ (bits ctrl 4 1) == 0
    let s := s.useFree
    if hit then
      let s := s.bump (0x30908 + 0x20 * p) 64 1
      match pickTiles ((s.eligibles p cid).filter (fun t => !ts.contains t)) ts.length with
      | some sh =>
        let s := (s.putTasks cid sh true .loaded).updCmd cid (fun c => { c with shadow := sh, dies := sh.foldl (fun m t => m ||| 2 ^ dieOfTile t) c.dies })
        { s with flt := { s.flt with shadows := s.flt.shadows ++ [Shadow.mk cid [] []] } }
      | none => s.bump (0x3091C + 0x20 * p) 32 1
    else s
  else s

/-- Launch `cid` placed on tiles `ts` (R381): its tasks, its slice, the requests it no longer needs withdrawn (R382). -/
def State.assign (s : State) (p cid : Nat) (ts : List Nat) : State :=
  let c := s.cmd cid
  let resume := c.st == .saved
  let slice := (s.queue c.queue).sliceUs * 1000
  let s := s.setCmd cid { c with st := if resume then .restoring else .placed, tiles := ts.take c.hdr.tiles, shadow := ts.drop c.hdr.tiles,
                                 placedAt := s.time, sliceAt := s.time + slice, sliceEnd := false, reserved := [], victims := [],
                                 dies := ts.foldl (fun m t => m ||| 2 ^ dieOfTile t) c.dies }
  let s := (s.putTasks cid (ts.take c.hdr.tiles) false (if resume then .restoring else .loaded))
  let s := if resume then (ts.drop c.hdr.tiles).zipIdx.foldl (fun s q => s.updTile q.1 (fun x =>
      { x with task := some { cid := cid, idx := q.2, shadow := true, st := .restoring } })) s else s
  -- a victim none of whose tasks has yielded is asked no longer
  let s := c.victims.foldl (fun s v =>
    if (s.tilesOf v).any (fun t => match (s.tile t).task with | some k => k.st == .saving | none => false) then s
    else s.updCmd v (fun x => { x with preemptReq := false })) s
  if resume then s else s.sampleShadow p cid ts

/-- The tiles a launch takes: its own and its shadow's when it is resumed with one (R467). -/
def Cmd.gang (c : Cmd) : Nat := if c.st == .saved && !c.shadow.isEmpty then 2 * c.hdr.tiles else c.hdr.tiles

/-- Whether `v` is a candidate for giving way to `l` (R382). -/
def State.candidate (s : State) (l v : Nat) : Bool :=
  let a := s.cmd l
  let b := s.cmd v
  b.part == a.part && (b.st == .running || b.st == .placed) && b.cause.isNone
  && (b.prio < a.prio || (b.prio == a.prio && b.sliceEnd)) && !b.nonpreempt && (s.semsHeld v).isEmpty

/-- Order of the victims: priority, slice expiry, queue (R382). -/
def State.victimBefore (s : State) (a b : Nat) : Bool :=
  let x := s.cmd a
  let y := s.cmd b
  x.prio < y.prio || (x.prio == y.prio && (x.sliceAt < y.sliceAt || (x.sliceAt == y.sliceAt && x.queue < y.queue)))

/-- Insertion by victim order. -/
def State.insertVictim (s : State) (c : Nat) : List Nat → List Nat
  | [] => [c]
  | x :: xs => if s.victimBefore c x then c :: x :: xs else x :: s.insertVictim c xs

/-- Tiles merged into a rising list. -/
def mergeTiles (a b : List Nat) : List Nat := (upto 128).filter (fun t => a.contains t || b.contains t)

/-- The choice of victims of R382: the tiles free with them, and those chosen; none where no set suffices. -/
def State.chooseVictims (s : State) (p g : Nat) : List Nat → List Nat → List Nat → Nat → Option (List Nat × List Nat)
  | vs, free, chosen, frames =>
    if (pickTiles free g).isSome then some (free, chosen)
    else match vs with
      | [] => none
      | v :: rest =>
        let ts := s.tilesOf v
        if ts.length ≤ frames then
          s.chooseVictims p g rest (mergeTiles free (ts.filter (fun t => (s.partTiles p).contains t && !s.tileConfined t && !s.retireNamed t
            && !(nth s.memc.halt (dieOfTile t) false)))) (chosen ++ [v]) (frames - ts.length)
        else s.chooseVictims p g rest free chosen frames

/-- The task of tile `t` changed. -/
def State.updTask (s : State) (t : Nat) (f : Task → Task) : State :=
  s.updTile t (fun x => { x with task := x.task.map f })

/-- The task of tile `t` begins its save; the launch's first such task opens the preemption (R383, R397). -/
def State.beginSave (s : State) (t cid : Nat) : State :=
  let c := s.cmd cid
  let s := s.updTask t (fun k => { k with was := k.st, st := .saving })
  let p := c.part.getD 0
  let s := match c.preemptAt with
    | some _ => s
    | none =>
      -- a launch that saves waits for no semaphore (R383, R391)
      let s := (upto 32).foldl (fun (s : State) n =>
        if (s.sem p n).waiters.contains cid then s.updSem p n (fun m => { m with waiters := m.waiters.filter (· != cid) }) else s) s
      let s := (s.bump (0x41010 + 0x100 * p) 64 1).bump (selKey 0x4001C c.client) 32 1
      s.updCmd cid (fun c => { c with st := .saving, preempts := satAdd 16 c.preempts 1, preemptAt := some s.time })
  s.updCmd cid (fun c => { c with saveFrom := s.time })

/-- The launch may yield: it is preemptible and holds no semaphore (R383). -/
def State.mayYield (s : State) (cid : Nat) : Bool := !(s.cmd cid).nonpreempt && (s.semsHeld cid).isEmpty

/-- A merge that tile `t` joined has not ended (R162). -/
def State.inMerge (s : State) (t : Nat) : Bool := (s.tile t).sel.merging || s.merges.any (fun m => m.members.contains t)

/-- A preemption requested of a launch that may yield: those of its tasks that stand at a yield point, before their start or at a SEM_ACQ
that they wait for, save at once (R377, R383). -/
def State.saveResting (s : State) (cid : Nat) : State :=
  if !s.mayYield cid then s
  else (s.tilesOf cid).foldl (fun s t =>
    match (s.tile t).task with
    | some k => (match k.st with
      | .loaded | .semWait _ _ => if s.inMerge t then s else s.beginSave t cid
      | _ => s)
    | none => s) s

/-- Frames that launches asked to give way will take (R384). -/
def State.framesAsked (s : State) (p : Nat) : Nat :=
  sumN ((s.cids.filter (fun v => (s.cmd v).part == some p && (s.cmd v).preemptReq && (s.cmd v).preemptAt.isNone)).map (fun v => (s.tilesOf v).length))

/-- Preemption requested for launch `l`, which found too few tiles (R382). -/
def State.requestPreempt (s : State) (p l : Nat) : State :=
  if !(s.cmd l).victims.isEmpty then s
  else
    let vs := (s.cids.filter (fun v => s.candidate l v)).foldl (fun acc v => s.insertVictim v acc) []
    let free := s.frames p - (s.framesUsed p + s.framesAsked p)
    match s.chooseVictims p (s.cmd l).gang vs (s.eligibles p l) [] free with
    | some (fr, chosen) =>
      if chosen.isEmpty then s
      else
        let s := chosen.foldl (fun s v => (s.updCmd v (fun c => { c with preemptReq := true })).saveResting v) s
        s.updCmd l (fun c => { c with victims := chosen, reserved := (pickTiles fr c.gang).getD [] })
    | none => s

/-- Placement over the ready list (R381); the list stops at the first launch that finds too few tiles. -/
def State.placeList (s : State) (p : Nat) : List Nat → State
  | [] => s
  | c :: rest =>
    match pickTiles (s.eligibles p c) (s.cmd c).gang with
    | some ts => (s.assign p c ts).placeList p rest
    | none => s.requestPreempt p c

/-- Placement in partition `p` whenever the list or the eligible tiles change (R381). -/
def State.place (s : State) (p : Nat) : State :=
  if s.serving p || s.partState p == 2 then s.placeList p (s.readyList p) else s

/-- Placement for the partition of a command. -/
def State.placeFor (s : State) (cid : Nat) : State := match (s.cmd cid).part with | some p => s.place p | none => s

/-- Placement in every partition. -/
def State.placeAll (s : State) : State := s.parts.foldl (fun s p => s.place p) s

/-! ## How a command ends -/

/-- `cid` has no task and no unit's work left: its semaphores and frames are released and its fence begins. -/
def State.toFence (s : State) (cid : Nat) : State :=
  let c := s.cmd cid
  if c.st == .none || c.st == .fencing || c.st == .fenced then s
  else
    let s := (((s.semDrop cid).gatherFrames cid).freeFrames cid).dropQuill cid
    let s := { s with merges := s.merges.filter (fun m => m.cid != cid) }
    let pre := match c.preemptAt with | some t => s.time - t | none => 0
    let s := s.updCmd cid (fun c => { c with st := .fencing, reserved := [], victims := [], preemptReq := false,
                                             preNs := c.preNs + pre, preemptAt := none })
    (s.startFence cid).placeFor cid

/-- Whether a task is at a yield point at which it can end at once: not yet started, waiting at a SEM_ACQ, or saving or
restoring (R377, R383). -/
def Task.resting (k : Task) : Bool :=
  match k.st with
  | .loaded | .semWait _ _ | .saving | .restoring => true
  | _ => false

/-- When no tile holds a task of `cid`, its fence begins. -/
def State.settle (s : State) (cid : Nat) : State := if (s.tilesOf cid).isEmpty then s.toFence cid else s

/-- `cid` ends with a status: the first cause stands (R364). Shared units drop its work; the tasks on tiles `now`, or all,
end at once, and so do those at a yield point; the others end at their next yield point. -/
def State.endCmd (s : State) (cid status detail : Nat) (now : List Nat) (all : Bool) : State :=
  let c := s.cmd cid
  if c.st == .none || c.st == .fencing || c.st == .fenced then s
  else
    let s := (s.updCmd cid (fun c => { c with cause := c.cause.or (some (status, detail)), replay := false })).dropOps cid
    let s := (s.tilesOf cid).foldl (fun s t =>
      let rest := match (s.tile t).task with | some k => k.resting && s.mayYield cid | none => false
      if all || now.contains t || rest then s.leaveTile t else s) s
    s.settle cid

/-- A command of a shared unit, or one that never ran, ends with a status (0 for OK). -/
def State.finish (s : State) (cid status detail : Nat) : State :=
  let s := if status = 0 then s else s.updCmd cid (fun c => { c with cause := c.cause.or (some (status, detail)) })
  (s.dropOps cid).toFence cid

/-- The task of tile `t` has ended by itself (R180). -/
def State.taskEnd (s : State) (t : Nat) : State :=
  match (s.tile t).task with
  | none => s
  | some k => (s.leaveTile t).settle k.cid |>.placeFor k.cid

/-- The command whose task runs on tile `t`. -/
def State.tileCmd (s : State) (t : Nat) : Option Nat := (s.tile t).task.map (·.cid)

/-- Whether the task of tile `t` is running. -/
def State.tileRuns (s : State) (t : Nat) : Bool := match (s.tile t).task with | some k => k.st == .run | none => false

/-! ## Yield points (R377, R383) -/

/-- The task of tile `t` is at a yield point: the vector unit's claims are released (R157). -/
def State.releaseClaims (s : State) (t : Nat) : State :=
  s.updTile t (fun x => { x with
    eng := x.eng.map (fun e => { e with owners := e.owners.map (fun o => if o = 3 then 0 else o) })
    vec := { x.vec with claims := 0 } })

/-- What a task does at a yield point of tile `t` (R157, R340, R370, R383): its claims are released, and it ends with its launch, saves
or goes on. A launch that holds a semaphore, is NONPREEMPT, or has a merge of the tile going takes no yield point. -/
def State.atYield (s : State) (t : Nat) : State :=
  match s.tileCmd t with
  | none => s
  | some cid =>
    let c := s.cmd cid
    let r := s.releaseClaims t
    if !s.mayYield cid || s.inMerge t then s
    else if c.cause.isSome then (r.leaveTile t).settle cid
    else if c.preemptReq then r.beginSave t cid
    else r

/-- What the tasks of `cid` that stand at a yield point do once it may yield again (R383, R391). -/
def State.restYield (s : State) (cid : Nat) : State :=
  (s.tilesOf cid).foldl (fun s t =>
    match (s.tile t).task with
    | some k => (match k.st with | .loaded | .semWait _ _ => s.atYield t | _ => s)
    | none => s) s

/-- Whether the task of tile `t` is a shadow (R467). -/
def State.tileShadow (s : State) (t : Nat) : Bool := match (s.tile t).task with | some k => k.shadow | none => false

/-- The launch on tile `t` ends as under ABORT with INVALID_CMD (R151, R173): its tasks end at their next yield points. -/
def State.invalidAt (s : State) (t : Nat) : State :=
  match s.tileCmd t with | some cid => s.endCmd cid 8 7 [] false | none => s

/-! ## Faults of translation and memory (R340, Table 13.2) -/

/-- XLAT_FAULT (R340, R341): counted on die `d`, captured, written; `cid` ends, its task on tile `now` at once. -/
def State.xlatFault (s : State) (d cid : Nat) (now : List Nat) (src : Src) (unit addr cause : Nat) (write prg lostSlot : Bool) : State :=
  let c := s.cmd cid
  let ctx := (s.queue c.queue).ctx
  let q := (cmdName cid).1
  let sq := (cmdName cid).2
  let p := c.part.getD 0
  let hv := addrClass addr == 1 && ctx.pasidEn
  let pas := if hv then ctx.pasid else 0
  let s := s.bump (0x310124 + 0x40 * d) 32 1
  let s := if bit (s.reg 0x310018) 0 then s
    else ((s.setReg 0x310018 1).setReg 0x310020 addr).setReg 0x310028
      (pas * 2 ^ 44 + q * 2 ^ 32 + p * 2 ^ 28 + cause * 2 ^ 24 + b2n write * 2 ^ 23 + sq)
  let s := s.blotCmd cid 0x0504 src addr
    [(addr, 8), (pas + b2n hv * 2 ^ 20, 4), (q, 2), (cause, 1), (b2n write + 2 * b2n prg + 4 * b2n lostSlot, 1), (unit, 2), (p, 1), (0, 1), (sq, 4)] true
  s.endCmd cid 4 cause now false

/-- UNIT of Table 15.5 for a tile's channel. -/
def unitOfChan (t c : Nat) : Nat := c * 256 + t

/-- UNIT of Table 15.5 for a shared unit: kind and number. -/
def unitOfShared (kind n : Nat) : Nat := 0x8000 + kind * 0x1000 + n

/-- The launch of tile `t` replays, or ends with DATA_ERROR, after a CRC failure (R284). -/
def State.crcReplay (s : State) (cid a : Nat) (src : Src) (now : List Nat) : State :=
  let c := s.cmd cid
  let seg := ((s.segAt a).map (fun r => r.f 4 2)).getD 0xFF
  if c.opcode = 1 && c.idempotent && !c.replayed && c.cause.isNone then
    let s := s.blotCmd cid 0x0403 src a [(seg, 1)] false
    let s := (s.updCmd cid (fun c => { c with replay := true, replayed := true })).dropOps cid
    ((s.tilesOf cid).foldl (fun s t => s.leaveTile t) s).settle cid
  else s.endCmd cid 3 2 now false

/-- SRAM_UNCORRECTABLE in a cache for command `cid`: which SRAM (1 cluster cache, 2 hot-row cache, 3 host-line cache), and the word; the
command ends with DATA_ERROR (R282). -/
def State.sramFails (s : State) (cid which word : Nat) (src : Src) (now : List Nat) : State :=
  (s.blotCmd cid 0x0303 src 0 [(which, 1), (word, 4)] true).endCmd cid 3 4 now false

/-! ## What the shared units hold -/

/-- Contributions held on die `d` (R236). -/
def State.heldOn (s : State) (d : Nat) : Nat := (s.units.held.filter (fun h => h.die == d)).length

/-- Entries in use of the dirty log of die `d` (R228). -/
def State.dirtyOn (s : State) (d : Nat) : Nat :=
  sumN (s.units.tabs.map (fun t => ((t.2.dirty ++ t.2.copy).filter (fun x => x.1 == d)).length))

/-- The state of a table in use. -/
def State.tab (s : State) (t : Nat) : TabSt := Tbl.get {} s.units.tabs t

/-- Passes that engine `n` holds as home engine, of lookups and updates (R213). -/
def State.tePasses (s : State) (n : Nat) : Nat :=
  sumN (s.units.te.map (fun c => (c.2.passes.filter (fun p => p.started && !p.done && p.home == n)).length))
  + sumN (s.units.upd.map (fun c => (c.2.passes.filter (fun p => p.st != .waiting && p.st != .done && p.home == n)).length))

/-! ## Saturations -/

/-- Saturations counted for the launch on tile `t` (R141): the launch's count and the tile's registers (Table 6.8). -/
def State.saturate (s : State) (t n : Nat) : State :=
  if n = 0 then s
  else
    let s := match s.tileCmd t with
      | some cid => if s.tileShadow t then s else s.updCmd cid (fun c => { c with sats := c.sats + n })
      | none => s
    (s.bump (tileBase t + 0x300) 64 n).bump (tileBase t + 0x308) 32 n

end Sys2Proof.Machine
end

