-- ==== Sys2Proof/Machine/Slots.lean ====
section
/-!
DEFINITION. Saffron's slots as they lie in memory (11): placement, header fields, inserts with their replacement rules, holds,
expiry, and what a launch may access.
-/
namespace Sys2Proof.Machine

/-! ## Slots (R239-R241) -/

/-- Physical address of slot `n` of die `d`. -/
def slotAddr (d n : Nat) : Nat := saffronBase d + 4096 * n

/-- The null slot (R252). -/
def nullSlot : Nat := 0xBFFFFF000

/-- Die and set of a key (R240). -/
def keyPlace (k : Nat) : Nat × Nat := let z := stochNumber 0 k; (z % 8, bits z 15 3)

/-- A header field of a slot (Table 11.2). -/
def State.sf (s : State) (d n off size : Nat) : Nat := fieldOf (s.readMem (slotAddr d n + off) size) 0 size

/-- KEY, OWNER, HOLDS. -/
def State.slotKey (s : State) (d n : Nat) : Nat := s.sf d n 0 8
def State.slotOwner (s : State) (d n : Nat) : Nat := s.sf d n 8 1 % 16
/-- STATE of a slot; one on a retired page is FREE, and is never taken (R290, log entry 199). -/
def State.slotState (s : State) (d n : Nat) : Nat := if s.pageRetired (slotAddr d n) then 0 else s.sf d n 9 1
def State.slotHolds (s : State) (d n : Nat) : Nat := s.sf d n 10 1

/-- The slot has expired: its EXPIRES has passed and no launch holds it (R244, R246). -/
def State.slotExpired (s : State) (d n : Nat) : Bool := s.slotHolds d n == 0 && decide (s.sf d n 32 8 ≤ s.time)

/-- Bytes of a slot written at its die (R250): no host reaches Saffron's memory, so none is asked. -/
def State.slotPut (s : State) (d n off : Nat) (data : List Nat) : State :=
  let a := slotAddr d n + off
  (pieces a data.length).foldl (fun s k => (s.commit k.1 ((data.drop (k.1 - a)).take k.2)).1) s

/-- The ways of a set. -/
def waysOf (set : Nat) : List Nat := (upto 16).map (fun w => 16 * set + w)

/-- The present slot of partition `p` and key `k` (R244). -/
def State.findSlot (s : State) (p k : Nat) : Option (Nat × Nat) :=
  let z := keyPlace k
  ((waysOf z.2).find? (fun n => s.slotState z.1 n == 1 && s.slotOwner z.1 n == p && s.slotKey z.1 n == k && !s.slotExpired z.1 n)).map
    (fun n => (z.1, n))

/-- Registers of Saffron (Table 11.10). -/
def sesDie (d : Nat) : Nat := 0x300040 + 0x10 * d
def sesPart (p : Nat) : Nat := 0x300100 + 0x40 * p

/-- One LIVE slot more or fewer. -/
def State.liveAdd (s : State) (d p : Nat) (z : Int) : State :=
  let f (s : State) (k : Nat) : State := s.setReg k (((s.reg k : Nat) : Int) + z).toNat
  f (f s (sesDie d)) (sesPart p)

/-- A slot zeroed but for GEN (R243): with STATE 0 it is FREE. -/
def State.slotZero (s : State) (d n : Nat) : State :=
  let g := s.readMem (slotAddr d n + 44) 4
  s.slotPut d n 0 (List.replicate 44 0 ++ g ++ List.replicate 4048 0)

/-- A LIVE or DEAD slot freed. -/
def State.slotFree (s : State) (d n : Nat) : State :=
  let s := if s.slotState d n = 1 then s.liveAdd d (s.slotOwner d n) (-1) else s
  s.slotZero d n

/-- A slot freed on expiry. -/
def State.slotExpire (s : State) (d n : Nat) : State := (s.bump (sesPart (s.slotOwner d n) + 0x24) 32 1).slotFree d n

/-- A refresh (R243). -/
def State.slotRefresh (s : State) (d n : Nat) : State :=
  s.slotPut d n 24 (natBytes 8 s.time ++ natBytes 8 ((s.time + s.sf d n 40 4 * 1000000) % 2 ^ 64))

/-! ## Inserts (R243, R245) -/

/-- SESSION_QUOTA of a partition. -/
def State.sesQuota (s : State) (p : Nat) : Nat := match cfgPart s.folio.active p with | some r => r.f 20 4 | none => 0

/-- LIVE slots of a partition. -/
def State.sesLive (s : State) (p : Nat) : Nat := s.reg (sesPart p)

/-- The way with the smallest LAST_USE. -/
def State.oldest (s : State) (d : Nat) (ns : List Nat) : Option Nat :=
  ns.foldl (fun m n => match m with | none => some n | some x => if s.sf d n 24 8 < s.sf d x 24 8 then some n else some x) none

/-- The way an insert for `p` takes in set `set` of die `d`, or the code it is refused with: 4 QUOTA, 5 SET_FULL (R245). A way on a
retired page is not taken (R290). -/
def State.insertWay (s : State) (p d set : Nat) : Except Nat Nat :=
  let ws := (waysOf set).filter (fun n => !s.pageRetired (slotAddr d n))
  let free := ws.filter (fun n => s.slotHolds d n == 0)
  let mine := free.filter (fun n => s.slotState d n == 1 && s.slotOwner d n == p)
  if s.sesQuota p ≤ s.sesLive p then
    match (mine.find? (fun n => s.slotExpired d n)).or (s.oldest d mine) with
    | some n => .ok n
    | none => .error 4
  else match (ws.find? (fun n => s.slotState d n == 0)).or (free.find? (fun n => s.slotState d n == 1 && s.slotExpired d n)) with
    | some n => .ok n
    | none =>
      let beyond := free.filter (fun n => s.slotState d n == 1 && decide (s.sesQuota (s.slotOwner d n) < s.sesLive (s.slotOwner d n)))
      match (s.oldest d beyond).or (s.oldest d mine) with
      | some n => .ok n
      | none => .error 5

/-- The slot of way `n` made `p`'s session `k` anew. -/
def State.slotInit (s : State) (d n p k ttl : Nat) : State :=
  let gen := (s.sf d n 44 4 + 1) % 2 ^ 32
  let ttl := if ttl = 0 then s.reg (sesPart p + 4) else ttl
  let s := (s.slotFree d n).liveAdd d p 1
  let s := s.slotPut d n 0 (natBytes 8 k ++ [p, 1, 0, 0, 0, 0, 0, 0] ++ natBytes 8 s.time ++ List.replicate 16 0 ++ natBytes 4 ttl ++ natBytes 4 gen)
  (s.slotRefresh d n).bump (sesPart p + 0x18) 64 1

/-- An insert of key `k` for partition `p` (R245): the slot taken, or the code of its refusal. -/
def State.slotInsert (s : State) (p k ttl : Nat) : State × Except Nat (Nat × Nat) :=
  let z := keyPlace k
  match s.insertWay p z.1 z.2 with
  | .error c =>
    let s := s.bump (sesPart p + 0x28) 32 1
    ((if c = 5 then s.bump (sesDie z.1 + 4) 32 1 else s), .error c)
  | .ok n =>
    let live := s.slotState z.1 n == 1
    let s := if !live then s
      else if s.slotExpired z.1 n then s.slotExpire z.1 n
      else s.bump (sesPart (s.slotOwner z.1 n) + 0x20) 32 1
    (s.slotInit z.1 n p k ttl, .ok (z.1, n))

/-! ## Holds (R246) -/

/-- A DEAD slot without holds becomes FREE. -/
def State.slotSettle (s : State) (d n : Nat) : State :=
  if s.slotHolds d n = 0 && s.slotState d n == 2 then s.slotZero d n else s

/-- A slot set to DEAD; FREE at once when no launch holds it. -/
def State.slotKill (s : State) (d n : Nat) : State :=
  let s := if s.slotState d n = 1 then s.liveAdd d (s.slotOwner d n) (-1) else s
  (s.slotPut d n 9 [2]).slotSettle d n

/-- HOLDS raised or lowered by one. -/
def State.slotHold (s : State) (d n : Nat) (z : Int) : State :=
  (s.slotPut d n 10 [(((s.slotHolds d n : Nat) : Int) + z).toNat % 256]).slotSettle d n

/-- A launch's holds released (R246). -/
def State.releaseHolds (s : State) (cid : Nat) : State :=
  let hs := (s.cmd cid).holds
  let s := s.updCmd cid (fun c => { c with holds := [] })
  hs.foldl (fun s h => s.slotHold h.1 h.2.1 (-1)) s

/-! ## Errors (R256) -/

/-- An uncorrectable error in the slot that holds physical address `a`: the header is written whole, the slot is DEAD, and
SESSION_LOST names its partition and key. -/
def State.slotLost (s : State) (a : Nat) : State :=
  if !s.saffronByte a then s
  else
    let d := a / sliceSize
    let n := (a - saffronBase d) / 4096
    if s.slotState d n = 0 then s
    else
      let p := s.slotOwner d n
      let k := s.slotKey d n
      let head := s.readMem (slotAddr d n) 64
      let s := s.slotPut d n 0 head
      (s.slotKill d n).blot { cls := 0x040A, part := some p, src := ⟨4, 48 + d⟩, addr := a / 64 * 64, detail := [(k, 8)] } (ringsP (some p))

/-! ## Accesses of a launch (R253) -/

/-- Whether a launch may access [a, a + n) of the Saffron regions or the null slot: none for any other address. -/
def State.slotAccess (s : State) (cid a n : Nat) (write : Bool) : Option Bool :=
  match s.phys a with
  | none => none
  | some x =>
    if s.saffronOn && nullSlot ≤ x && x < nullSlot + 4096 then some (!write && decide (x + n ≤ nullSlot + 4096))
    else if s.saffronByte x then
      some ((s.cmd cid).holds.any (fun h =>
        let b := slotAddr h.1 h.2.1
        decide (b ≤ x) && decide (x + n ≤ b + 4096) && (!write || (h.2.2 && decide (b + 64 ≤ x) && decide (x + n ≤ b + 1600)))))
    else none

end Sys2Proof.Machine
end

