-- ==== Sys2Proof/Machine/Flags.lean ====
section
/-!
DEFINITION. The sticky flags of a tile's units (R130), the first-invalid capture (R136, R137), NUMSUM (R138), and the stall
counters of R187.
-/
namespace Sys2Proof.Machine

/-! ## Sticky flags -/

/-- Flags raised on engine `e` of tile `t` (Table 5.11). -/
def State.raiseEng (s : State) (t e fl : Nat) : State :=
  s.setReg (engBase t e + 0xC) (s.reg (engBase t e + 0xC) ||| fl)

/-- Flags raised on the vector unit of tile `t`. -/
def State.raiseVec (s : State) (t fl : Nat) : State := s.setReg (tileBase t + 0x204) (s.reg (tileBase t + 0x204) ||| fl)

/-- Flags of a shared unit charged to command `cid` alone, as bits [9:5] of NUMSUM (R131). -/
def State.raiseCmd (s : State) (cid fl : Nat) : State := s.updCmd cid (fun c => { c with numsum := c.numsum ||| (32 * (fl % 32)) })

/-- Saturations of a shared unit counted for command `cid` (R141). -/
def State.satCmd (s : State) (cid n : Nat) : State := s.updCmd cid (fun c => { c with sats := c.sats + n })

/-- NUMSUM as the completion record carries it (Table 6.6): SATURATED and REPRO come from the rest. -/
def numsumOf (bits' sats : Nat) : Nat :=
  let n := bits' ||| (if sats = 0 then 0 else 2 ^ 10)
  if n &&& (2 ^ 2 + 2 ^ 4 + 2 ^ 7 + 2 ^ 9 + 2 ^ 14) = 0 then n ||| 2 ^ 15 else n

/-- An accumulator of engine `e` moved to NaN (R137): the first is captured while VALID is 0. -/
def State.firstInvalid (s : State) (t e bank group idx cause : Nat) : State :=
  let r := engBase t e + 0x38
  let note (s : State) (b : Nat) : State :=
    match s.tileCmd t with
    | some cid => if s.tileShadow t then s else s.updCmd cid (fun c => { c with numsum := c.numsum ||| 2 ^ b })
    | none => s
  if bit (s.reg r) 0 then note s 13
  else
    let seq := match s.tileCmd t with | some cid => (cmdName cid).2 | none => 0
    note (s.setReg r (seq * 2 ^ 41 + group % 2 ^ 29 * 2 ^ 12 + idx / 16 * 2 ^ 8 + idx % 16 * 2 ^ 4 + cause * 4 + bank * 2 + 1)) 12

/-! ## Stalls (R187) -/

/-- The cause of a wait on channel `c` (rules 1 and 2 of R187), or the local cause `loc`. -/
def State.chanCause (s : State) (t c loc : Nat) : Nat :=
  let ch := s.chan t c
  let mem (c : Chan) : Option Nat := (c.reqs.head?).map (fun r => r.causeOf s (r.longest s))
  match mem ch with
  | some x => x
  | none =>
    match ch.wait with
    | .token k _ =>
      let prods := (upto 16).filter (fun d => ((s.chan t d).prog.any (fun w => match decodeStroke w with | some (.sigt k' _) => k' == k | _ => false)))
      (prods.findSome? (fun d => mem (s.chan t d))).getD 4
    | _ => loc

/-- A finished stall charged to its cause. -/
def State.chargeStall (s : State) (t : Nat) (st : Option (Nat × Nat)) : State :=
  match st with
  | none => s
  | some (since, cause) =>
    (s.bump (tileBase t + 0x800 + 8 * cause) 64 (s.time - since)).bump (tileBase t + 0xA00 + 4 * cause) 32 1

/-- The reason that a sector's outcome gives to the wait for it: retries or what held it (R187). -/
def resReason : MemRes → Option Nat
  | .retried n => if n = 0 then none else some 3
  | .held r => if r = 2 || r = 4 then some r else none
  | _ => none

/-- Whether a cause is one of the request's tier. -/
def Req.chargedTo (s : State) (r : Req) (cause : Nat) : Bool := cause / 8 == r.tier s

/-- The stalls of tile `t` that were noted for a request of its tier are charged to what held it longest in the end (R187). -/
def State.recharge (s : State) (t : Nat) (r : Req) : State :=
  let f (x : Option (Nat × Nat)) : Option (Nat × Nat) :=
    x.map (fun p => if r.chargedTo s p.2 then (p.1, r.causeOf s r.worst.1) else p)
  s.updTile t (fun x => { x with
    eng := x.eng.map (fun (e : Eng) => { e with stall := f e.stall, dstall := f e.dstall })
    vec := { x.vec with stall := f x.vec.stall } })

/-- A wait noted: it began at the first attempt; its cause is that of the latest. -/
def noteStall (s : State) (old : Option (Nat × Nat)) (cause : Nat) : Option (Nat × Nat) :=
  match old with
  | some (since, _) => some (since, cause)
  | none => some (s.time, cause)

end Sys2Proof.Machine
end

