-- ==== Sys2Proof/Machine/Path.lean ====
section
/-!
DEFINITION. The path of a channel's memory request from its issue to its target: classification and translation (15),
regulator admission (12), the cluster cache (08), and page requests.
-/
namespace Sys2Proof.Machine

/-! ## The cluster cache (R181-R183) -/

/-- The cache of a cluster. -/
def State.cache (s : State) (cl : Nat) : Cache := Tbl.get ({} : Cache) s.caches cl

/-- The cache changed. -/
def State.updCache (s : State) (cl : Nat) (f : Cache → Cache) : State := { s with caches := Tbl.upd ({} : Cache) s.caches cl f }

/-- Base of the cache registers of a cluster (Table 8.9). -/
def ccBase (cl : Nat) : Nat := 0x2000 + 0x20 * cl

/-- The ranges of device addresses that the model cache pins in a cluster: models resident there, the layers pinned of a load in
progress, and what has been filled of the windows in use (R266, R267). -/
def State.pinRanges (s : State) (cl : Nat) : List (Nat × Nat) :=
  let at' (img : Nat × Nat) (ls : List (Nat × Nat)) : List (Nat × Nat) := ls.map (fun l => (img.1 + l.1, l.2))
  (s.sched.models.map (fun m =>
    if bit m.2.resident cl then [m.2.img]
    else if bit m.2.loading cl then at' m.2.img (m.2.lays.take (Tbl.get 0 m.2.layers cl)) else [])).flatten
  ++ ((s.sched.wins.filter (fun w => w.cl == cl)).map (fun w =>
    let c := s.cmd w.cid
    at' c.img ((c.lays.take w.layer).drop c.winDone)
      ++ (match c.lays[w.layer]? with | some l => if w.pos = 0 || w.layer < c.winDone then [] else [(c.img.1 + l.1, w.pos)] | none => []))).flatten

/-- The model cache holds a device address in a cluster: as a pinned line whose fill is not still under way. -/
def State.pinnedAt (s : State) (cl a x : Nat) : Bool :=
  (s.pinRanges cl).any (fun r => r.1 ≤ a && decide (a < r.1 + r.2)) && !(s.cache cl).fills.any (fun f => f.line == x / 128 && f.pin.isSome)

/-- The physical lines of a range of device addresses. -/
def State.linesOf (s : State) (r : Nat × Nat) : List Nat :=
  (upto ((r.1 + r.2 + 127) / 128 - r.1 / 128)).filterMap (fun i => (s.phys ((r.1 / 128 + i) * 128)).map (· / 128))

/-- The physical lines pinned in a cluster, each once. -/
def State.pinLines (s : State) (cl : Nat) : List Nat := (((s.pinRanges cl).map s.linesOf).flatten).eraseDups

/-- Lines pinned in the set of a line. -/
def State.pinnedWays (s : State) (cl line : Nat) : Nat := ((s.pinLines cl).filter (fun l => l % 6144 == line % 6144)).length

/-- A line put first; the least recently used line that is not pinned gives way in a set whose 16 ways are in use (R181, log entry 31). -/
def State.cachePut (s : State) (cl line : Nat) : State :=
  let ways := 16 - s.pinnedWays cl line
  s.updCache cl (fun k =>
    let rest := k.lines.filter (· != line)
    let set := rest.filter (fun l => l % 6144 == line % 6144)
    if ways = 0 then { k with lines := rest }
    else if set.length < ways then { k with lines := line :: rest }
    else match set.getLast? with
      | some v => { k with lines := line :: rest.filter (· != v) }
      | none => { k with lines := line :: rest })

/-- The lines of a list that keep their ways: most recently used first, as many in each set as `free` leaves. -/
def keepWays (free : Nat → Nat) : List Nat → List Nat → List Nat
  | kept, [] => kept.reverse
  | kept, l :: ls => if (kept.filter (fun k => k % 6144 == l % 6144)).length < free l then keepWays free (l :: kept) ls else keepWays free kept ls

/-- Lines have been pinned in a cluster: they take their ways from the others (R181). -/
def State.pinTrim (s : State) (cl : Nat) : State :=
  let pins := s.pinLines cl
  s.updCache cl (fun k => { k with
    lines := keepWays (fun l => 16 - (pins.filter (fun x => x % 6144 == l % 6144)).length) [] (k.lines.filter (fun l => !pins.contains l)) })

/-- Copies of a physical line held by other clusters invalidated by a write (R183). -/
def State.invalidateOthers (s : State) (cl a : Nat) : State :=
  { s with caches := s.caches.map (fun e => if e.1 = cl then e else (e.1, { e.2 with lines := e.2.lines.filter (· != a / 128) })) }

/-- An in-flight entry taken for a line, and its fill's admission (R182). -/
def State.takeFill (s : State) (cid cl a : Nat) (f : Fill) : State :=
  let n := (s.cache cl).fills.length
  let s := s.updCache cl (fun k => { k with fills := k.fills ++ [f] })
  let s := (s.bump (ccBase cl + 8) 64 1).maxReg (ccBase cl + 0x18) 32 (n + 1)
  s.joinBucket cid (slotOfPhys a false) 128 (.fill cl f.line)

/-- A fetch request that misses takes or joins an in-flight entry, or waits for a place, behind those of its line that wait already
(R182). `cid` is concerned with the memory controller of the line's die (R35). -/
def State.missLine (s : State) (cid t c tok a : Nat) (alloc : Bool) : State :=
  let cl := clusterOfTile t
  let k := s.cache cl
  let line := a / 128
  let s := s.concern cid (dieOfPhys a)
  let lineOf (w : Nat × Nat × Nat) : Option Nat := ((s.chan w.1 w.2.1).reqs.find? (fun r => r.tok == w.2.2)).map (fun r => r.tgt / 128)
  let queued := k.queue.any (fun w => lineOf w == some line)
  let place (s : State) : State := (s.updCache cl (fun k => { k with queue := k.queue ++ [(t, c, tok)] })).setReq t c tok (fun r => r.move s .place)
  match k.fills.find? (fun f => f.line == line) with
  | some f =>
    if f.wait.length < 32 && !queued then
      let s := (s.updCache cl (fun k => { k with fills := k.fills.map (fun g =>
        if g.line = line then { g with alloc := g.alloc || alloc, wait := g.wait ++ [(t, c, tok)] } else g) })).bump (ccBase cl + 0x10) 64 1
      s.setReq t c tok (fun r => r.move s (if f.admitted then .fill else .bucket))
    else place s
  | none =>
    if k.fills.length < 256 && !queued then
      (s.setReq t c tok (fun r => r.move s .bucket)).takeFill cid cl a ⟨line, alloc, false, [(t, c, tok)], none, false⟩
    else place s

/-! ## Windows (R267) -/

/-- The bytes of a window: FOOTPRINT of the command's model, and no more than the model cache may pin (R267, R393, log entry 133). -/
def State.windowRoom (s : State) (cid : Nat) : Nat :=
  let c := s.cmd cid
  min (match cfgModel s.folio.active (c.part.getD 0) c.model with | some r => r.f 12 4 | none => 0) 10485760

/-- The next line of a window filled where the layer being filled has room beside those not released (R267 steps 1 and 3), and an
in-flight entry is free. -/
def State.winStep (s : State) (cid cl : Nat) : Option State :=
  match s.sched.wins.find? (fun w => w.cid == cid && w.cl == cl) with
  | none => none
  | some w =>
    let c := s.cmd cid
    match c.lays[w.layer]? with
    | none => none
    | some l =>
      let used := sumN (((c.lays.take (w.layer + 1)).drop c.winDone).map (·.2))
      let set (s : State) (layer pos : Nat) : State :=
        { s with sched := { s.sched with wins := s.sched.wins.map (fun x => if x.cid = cid && x.cl = cl then { x with layer := layer, pos := pos } else x) } }
      if l.2 ≤ w.pos then some (set s (w.layer + 1) 0)
      else if s.windowRoom cid < used || 256 ≤ (s.cache cl).fills.length then none
      else
        let a := c.img.1 + l.1 + w.pos
        let s' := set s w.layer (min l.2 (w.pos + (128 - a % 128)))
        match s.phys a with
        | none => some s'
        | some x =>
          if (s.cache cl).fills.any (fun f => f.line == x / 128) then
            some (s'.updCache cl (fun k => { k with fills := k.fills.map (fun f => if f.line = x / 128 then { f with pin := some cid } else f) }))
          else some (((s'.concern cid (dieOfPhys x)).updCache cl (fun k => { k with lines := k.lines.filter (· != x / 128) })).takeFill cid cl x
            ⟨x / 128, false, false, [], some cid, false⟩)

/-- A window filled as far as it goes now. -/
def State.winPump : Nat → State → Nat → Nat → State
  | 0, s, _, _ => s
  | fuel + 1, s, cid, cl =>
    match s.winStep cid cl with
    | some s' => State.winPump fuel s' cid cl
    | none => s

/-- The windows of a cluster filled as far as they go now: at most the 256 in-flight entries, and the layers that are complete. -/
def State.winPumps (s : State) (cl : Nat) : State :=
  (s.sched.wins.filter (fun w => w.cl == cl)).foldl (fun s w => State.winPump (258 + (s.cmd w.cid).lays.length) s w.cid cl) s

/-- What a fetch of a weight waits for: its layer of a load in progress (R266), or its line of the launch's window (R267). -/
def State.weightWait (s : State) (cid cl a : Nat) : Option ReqSt :=
  let c := s.cmd cid
  let m := Tbl.get {} s.sched.models (modelKey (c.part.getD 0) c.model)
  if !(c.img.1 ≤ a && decide (a < c.img.1 + c.img.2)) then none
  else if s.sched.wins.any (fun w => w.cid == cid && w.cl == cl) then
    (if ((c.lays.drop c.winDone).any (fun l => c.img.1 + l.1 ≤ a && decide (a < c.img.1 + l.1 + l.2))) then some .window else none)
  else if bit m.loading cl && m.img == c.img then some .model else none

/-! ## The translation cache (R330-R332) -/

/-- Base of the translation registers of die `d`. -/
def xlatBase (d : Nat) : Nat := 0x310100 + 0x40 * d

/-- Whether an entry translates a page of a PASID on a port. -/
def XEnt.hit (e : XEnt) (port : Nat) (pasid : Option Nat) (page : Nat) : Bool :=
  e.port == port && (e.global || e.pasid == pasid) && e.vpage ≤ page && decide (page < e.vpage + e.size / 4096)

/-- The translation cache of die `d`. -/
def State.xcache (s : State) (d : Nat) : List XEnt := nth s.xlat.cache d []

/-- The translation cache of die `d` changed. -/
def State.updXcache (s : State) (d : Nat) (f : List XEnt → List XEnt) : State :=
  { s with xlat := { s.xlat with cache := updAt s.xlat.cache d f } }

/-- The entry for a page, if the cache holds one. -/
def State.xfind (s : State) (d port : Nat) (pasid : Option Nat) (page : Nat) : Option XEnt :=
  (s.xcache d).find? (fun e => e.hit port pasid page)

/-- The entry moved to the front (least recently used last). -/
def State.xtouch (s : State) (d : Nat) (e : XEnt) : State := s.updXcache d (fun l => e :: l.filter (· != e))

/-- An entry cached; the least recently used of a full set gives way (R330, log entry 31). -/
def State.xput (s : State) (d : Nat) (e : XEnt) : State :=
  s.updXcache d (fun l =>
    let rest := l.filter (fun x => !(x.port == e.port && x.pasid == e.pasid && x.vpage == e.vpage && x.size == e.size))
    let set := rest.filter (fun x => x.vpage % 1024 == e.vpage % 1024)
    if set.length < 8 then e :: rest
    else match set.getLast? with
      | some v => e :: rest.filter (· != v)
      | none => e :: rest)

/-- Whether a page of a PASID on a port lies under an invalidation or flush in progress (R334, R337). -/
def State.xpaused (s : State) (port : Nat) (pasid : Option Nat) (page : Nat) : Bool :=
  s.xlat.invs.any (fun i => i.port == port && (i.pasid.isNone || i.pasid == pasid) && i.page ≤ page && decide (page < i.page + (i.size + 4095) / 4096))
  || (match s.xlat.flush with | some none => true | some (some p) => pasid == some p | none => false)

/-- A Translation Request issued for a page, unless one is outstanding (R330); at most 64 a die. -/
def State.xrequest (s : State) (d port : Nat) (pasid : Option Nat) (page : Nat) (prefetch : Bool) : State :=
  if s.xlat.reqs.any (fun r => r.die == d && r.pasid == pasid && r.page == page) then s
  else if 64 ≤ (s.xlat.reqs.filter (fun r => r.die == d)).length then s
  else
    let s := s.bump (xlatBase d + (if prefetch then 0x10 else 8)) 64 1
    { s with xlat := { s.xlat with reqs := s.xlat.reqs ++ [XReq.mk d port pasid page prefetch false false []] } }.emit (.atsRequest port d pasid page)

/-! ## Faults of a channel's request (R338-R340) -/

/-- The context of the command on tile `t`. -/
def State.tileCtx (s : State) (t : Nat) : Ctx :=
  match s.tileCmd t with | some cid => (s.queue (s.cmd cid).queue).ctx | none => {}

/-- A channel's request faults (R340). -/
def State.chanFault (s : State) (t c : Nat) (r : Req) (cause : Nat) (prg lost : Bool) : State :=
  match s.tileCmd t with
  | none => s
  | some cid => s.xlatFault (dieOfTile t) cid [t] ⟨1, t⟩ (unitOfChan t c) r.addr cause r.write prg lost

/-- A request whose page grants too little (R338): a page request, a wait for a credit, or a fault. A page that was
translated again after Success and still grants too little is denied. -/
def State.absent (s : State) (t c : Nat) (r : Req) (port : Nat) (pasid : Option Nat) (readable : Bool) : State :=
  let ctx := s.tileCtx t
  let d := dieOfTile t
  let page := hvAddr r.addr / 4096
  if r.after then s.chanFault t c r 5 true false
  else if ctx.priEn && nth s.xlat.pri port false then
    if s.xlat.prs.any (fun q => q.port == port && q.die == d && q.pasid == pasid && q.page == page && (q.write || !r.write)) then
      s.setReq t c r.tok (fun r => r.move s .page)
    else if (s.xlat.prs.filter (fun q => q.port == port)).length < 512 then
      let s := s.bump (xlatBase d + 0x20) 32 1
      let s := { s with xlat := { s.xlat with prs := s.xlat.prs ++ [PReq.mk port d pasid page r.write] } }.emit (.pageRequest port pasid page r.write)
      s.setReq t c r.tok (fun r => r.move s .page)
    else s.setReq t c r.tok (fun r => r.move s .credit)
  else s.chanFault t c r (if r.write && readable then 2 else 1) false false

/-! ## Issue (R322-R326, R330) -/

/-- A request to a device address that has passed its check. -/
def State.issueDev (s : State) (t c : Nat) (r : Req) (a cid : Nat) : State :=
  let s := s.setReq t c r.tok (fun r => { r with tgt := a })
  if s.unzeroed a r.len then s.setReq t c r.tok (fun r => r.move s .zero)
  else if s.inHostBias a then
    -- a host-bias page is reached through the host (R305)
    (s.setReq t c r.tok (fun r => r.move s .bucket)).joinBucket cid
      (if r.write then 16 + s.biasPort a else 26 + s.biasPort a) 64 (.req t c r.tok)
  else if r.write then ((s.concern cid (dieOfPhys a)).setReq t c r.tok (fun r => r.move s .bucket)).joinBucket cid (slotOfPhys a true) 64 (.req t c r.tok)
  else
    let cl := clusterOfTile t
    if s.pinnedAt cl r.addr a then (s.bump (ccBase cl) 64 1).setReq t c r.tok (fun r => r.move s .sent)
    else match s.weightWait cid cl r.addr with
      | some st => s.setReq t c r.tok (fun r => r.move s st)
      | none =>
        if (s.cache cl).lines.contains (a / 128) then ((s.bump (ccBase cl) 64 1).cachePut cl (a / 128)).setReq t c r.tok (fun r => r.move s .sent)
        else s.missLine cid t c r.tok a (!bit (s.chan t c).flags 2)

/-- A request whose translation the cache holds with the right it needs. -/
def State.issueHost (s : State) (t c : Nat) (r : Req) (port : Nat) (e : XEnt) (cid : Nat) : State :=
  let d := dieOfTile t
  let page := hvAddr r.addr / 4096
  let h := (e.ppage + (page - e.vpage)) * 4096 + r.addr % 4096
  let s := (s.bump (xlatBase d) 64 1).xtouch d e
  let s := s.setReq t c r.tok (fun r => { r with tgt := h, port := some port, untrans := e.untrans, after := false })
  -- a hit in the host-line cache charges nothing; a part of a line that misses is taken with RdOwn, which the port carries inbound (R270)
  let hit := (s.hlc d).any (fun l => l.addr == h / 64 * 64) && decide (2 ≤ s.portMode port) && !e.untrans
  if hit && !(r.write && r.len = 64) then s.setReq t c r.tok (fun r => r.move s .sent)
  else (s.setReq t c r.tok (fun r => r.move s .bucket)).joinBucket cid
    (if r.write && (s.portMode port < 2 || e.untrans || r.len == 64) then 16 + port else 26 + port) 64 (.req t c r.tok)

/-- One request of a channel classified, checked and translated (R253, R322, R326, R330). -/
def State.issue (s : State) (t c : Nat) (r : Req) : State :=
  match s.tileCmd t with
  | none => s
  | some cid =>
    let ctx := s.tileCtx t
    let d := dieOfTile t
    match addrClass r.addr with
    | 0 =>
      let cause := match s.slotAccess cid r.addr r.len r.write with
        | some true => 0
        | some false => 0xA
        | none => s.dpCheck ctx r.addr r.len (!r.write) r.write
      if cause != 0 then
        s.chanFault t c r cause false (ctx.slots.any (fun x => x.en && x.lost && x.base ≤ r.addr && r.addr + r.len - 1 ≤ x.limit))
      else s.issueDev t c r ((s.phys r.addr).getD 0) cid
    | 1 =>
      if !ctx.pasidEn then s.chanFault t c r 7 false false
      else match s.diePort d with
        | none => s.chanFault t c r 6 false false
        | some port =>
          let pasid := some ctx.pasid
          let page := hvAddr r.addr / 4096
          if !nth s.xlat.ats port false then s.chanFault t c r 6 false false
          else if s.xpaused port pasid page then s.setReq t c r.tok (fun r => r.move s .xlat)
          else match s.xfind d port pasid page with
            | some e =>
              if (if r.write then e.wr else e.rd) then s.issueHost t c r port e cid
              else s.absent t c r port pasid e.rd
            | none => (s.xrequest d port pasid page false).setReq t c r.tok (fun r => r.move s .xlat)
    | _ => s.chanFault t c r 8 false false

/-- Whether a request can be issued now: new, or waiting for a translation. -/
def Req.ready (r : Req) : Bool := r.st == .new || r.st == .xlat

/-- The requests of a channel that are not yet under way issued, up to 64 in flight (R171). -/
def State.pump (s : State) (t c : Nat) : State :=
  (((s.chan t c).reqs.take 64).filter Req.ready).foldl (fun s r =>
    match (s.chan t c).reqs.find? (fun x => x.tok == r.tok) with
    | some x => if x.ready then s.issue t c x else s
    | none => s) s

/-- Every channel of every tile of the dies in `ds` pumped. -/
def State.pumpDies (s : State) (ds : List Nat) : State :=
  ((upto 128).filter (fun t => ds.contains (dieOfTile t) && (s.tile t).task.isSome)).foldl (fun s t =>
    (upto 16).foldl (fun s c => if ((s.chan t c).reqs).isEmpty then s else s.pump t c) s) s

/-- Every channel pumped. -/
def State.pumpAll (s : State) : State := s.pumpDies (upto 8)

/-- Requests that wait in state `st` issued again. -/
def State.pumpSt (s : State) (st : ReqSt) : State :=
  let chan (x : Chan) : Chan := { x with reqs := x.reqs.map (fun r => if r.st == st then r.move s .new else r) }
  let tile (x : Tile) : Tile := { x with chans := x.chans.map (fun (k : Nat × Chan) => (k.1, chan k.2)) }
  { s with tiles := s.tiles.map (fun (e : Nat × Tile) => (e.1, tile e.2)) }.pumpAll

/-- Requests that wait for memory to be zeroed issued again (R68). -/
def State.pumpZero (s : State) : State := s.pumpSt .zero

end Sys2Proof.Machine
end

