-- ==== Sys2Proof/WellFormed.lean ====
section
/-!
DEFINITION. When a command is well formed: it names only units, registers and instruction fields the device has
(Table 0.4, Table 7.1, R478). What a well-formed command's values mean is checked by its meaning, as the manual says.
-/
namespace Sys2Proof

/-- The places of Table 7.2, as 128 × CLASS + OP. Any other is reserved (R150, R151). -/
def vecCodes : List Nat :=
  [0, 1, 2, 3, 4, 5, 6, 7, 8, 9, 10, 11, 12, 13, 16, 17, 18, 19, 20, 21, 24, 26, 32, 48, 49, 128,
   129, 130, 256, 257, 258, 259, 264, 265, 266, 267, 268, 269, 384, 385, 386, 387, 512, 513, 514, 515, 516, 517, 640, 641, 642, 643]

/-- CLASS and OP of an instruction word (Table 7.1). -/
def vecCode (w : Nat) : Nat := w / 2 ^ 54

/-- The word has a reserved CLASS or OP (R151). -/
def vecReserved (w : Nat) : Bool := !vecCodes.contains (vecCode w)

/-- A word that the row of code `c` may carry: 64 bits with its own CLASS and OP, or with a reserved one, which belongs to no row. -/
def vwordOk (c w : Nat) : Bool := decide (w < 2 ^ 64) && (vecCode w == c || vecReserved w)

/-- A failure entry names a unit the device has (Table 19.6). -/
def FailEntry.ok (f : FailEntry) : Bool :=
  decide (f.unit < 7) && decide (f.die < 8)
  && (match f.unit with | 0 => decide (f.num < 128) | 1 => decide (f.num < 32) | 2 => decide (f.num < 16) | 5 => decide (f.num < 64) | _ => true)

/-- How many units of a kind there are: tiles, clusters, table engines. -/
def unitCount (unit : Nat) : Nat := if unit = 0 then 128 else if unit = 1 then 32 else 16

/-- The command names units the device has. -/
def Instr.wf : Instr → Bool
  | .registerWrite port off size value => decide (port < 2) && decide (off < 0x4000000) && decide (size < 65) && decide (value < 2 ^ 64)
  | .rcRegisterRead port off size => decide (port < 2) && decide (off < 0x4000000) && decide (size < 65)
  | .splitRegisterAccess port off write => decide (port < 2) && decide (off < 0x4000000) && decide (write.getD 0 < 2 ^ 32)
  | .paceWindowEnd meas => (meas.length == 8) && meas.all (fun m => m.mon.length == 5)
  | .vcoreAdjust die mv => decide (die < 8) && decide (mv < 4096)
  | .paceTimeStepWrite port value => decide (port < 2) && decide (value < 2 ^ 64)
  | .paceTimeRateWrite port value => decide (port < 2) && decide (value < 2 ^ 64)
  | .ptpMessageReceive eport sub kind _ _ _ => decide (eport < 8) && decide (sub < 8) && decide (kind < 16)
  | .folioFetchDone _ => true
  | .folioApplyFail _ => true
  | .reconfApplyFail _ => true
  | .unitRetire unit num => decide (unit < 3) && decide (num < unitCount unit)
  | .folioCommitWritten _ => true
  | .zeroingComplete _ => true
  | .engineStep t e bank _ _ wrong => decide (t < 128) && decide (e < 2) && decide (bank < 2) && wrong.all (fun x => decide (x.1 < 256))
  | .bankDrain t e bank _ => decide (t < 128) && decide (e < 2) && decide (bank < 2)
  | .chkTestWrite port t e value => decide (port < 2) && decide (t < 128) && decide (e < 2) && decide (value < 2 ^ 64)
  | .layer t _ => decide (t < 128)
  | .yield t _ => decide (t < 128)
  | .semAcq t sem _ _ => decide (t < 128) && decide (sem < 32)
  | .semRel t sem => decide (t < 128) && decide (sem < 32)
  | .vadd t w => decide (t < 128) && vwordOk 0 w
  | .vsub t w => decide (t < 128) && vwordOk 1 w
  | .vmul t w => decide (t < 128) && vwordOk 2 w
  | .vfma t w => decide (t < 128) && vwordOk 3 w
  | .vfms t w => decide (t < 128) && vwordOk 4 w
  | .vmin t w => decide (t < 128) && vwordOk 5 w
  | .vmax t w => decide (t < 128) && vwordOk 6 w
  | .vabs t w => decide (t < 128) && vwordOk 7 w
  | .vneg t w => decide (t < 128) && vwordOk 8 w
  | .vand t w => decide (t < 128) && vwordOk 9 w
  | .vor t w => decide (t < 128) && vwordOk 10 w
  | .vxor t w => decide (t < 128) && vwordOk 11 w
  | .vshl t w => decide (t < 128) && vwordOk 12 w
  | .vshr t w => decide (t < 128) && vwordOk 13 w
  | .vexp t w => decide (t < 128) && vwordOk 16 w
  | .vlog t w => decide (t < 128) && vwordOk 17 w
  | .vrcp t w => decide (t < 128) && vwordOk 18 w
  | .vrsqrt t w => decide (t < 128) && vwordOk 19 w
  | .vtanh t w => decide (t < 128) && vwordOk 20 w
  | .vsig t w => decide (t < 128) && vwordOk 21 w
  | .vmov t w => decide (t < 128) && vwordOk 24 w
  | .vlane t w => decide (t < 128) && vwordOk 26 w
  | .sset t w => decide (t < 128) && vwordOk 32 w
  | .rep t w => decide (t < 128) && vwordOk 48 w
  | .vectorNop t w => decide (t < 128) && vwordOk 49 w
  | .vcvt t w => decide (t < 128) && vwordOk 128 w
  | .vpack t w => decide (t < 128) && vwordOk 129 w
  | .vunpk t w => decide (t < 128) && vwordOk 130 w
  | .vcmpeq t w => decide (t < 128) && vwordOk 256 w
  | .vcmplt t w => decide (t < 128) && vwordOk 257 w
  | .vcmple t w => decide (t < 128) && vwordOk 258 w
  | .vcmpun t w => decide (t < 128) && vwordOk 259 w
  | .mand t w => decide (t < 128) && vwordOk 264 w
  | .mor t w => decide (t < 128) && vwordOk 265 w
  | .mxor t w => decide (t < 128) && vwordOk 266 w
  | .mnot t w => decide (t < 128) && vwordOk 267 w
  | .mcnt t w => decide (t < 128) && vwordOk 268 w
  | .vsel t w => decide (t < 128) && vwordOk 269 w
  | .compress t w => decide (t < 128) && vwordOk 384 w
  | .expand t w => decide (t < 128) && vwordOk 385 w
  | .pushn t w => decide (t < 128) && vwordOk 386 w
  | .gather t w => decide (t < 128) && vwordOk 387 w
  | .aclaim t w => decide (t < 128) && vwordOk 512 w
  | .bankClaimGrant t => decide (t < 128)
  | .arelease t w => decide (t < 128) && vwordOk 513 w
  | .ardf t w _ => decide (t < 128) && vwordOk 514 w
  | .ardr t w _ => decide (t < 128) && vwordOk 515 w
  | .asave t w _ => decide (t < 128) && vwordOk 516 w
  | .aload t w => decide (t < 128) && vwordOk 517 w
  | .sinit t w => decide (t < 128) && vwordOk 640 w
  | .sins t w => decide (t < 128) && vwordOk 641 w
  | .sout t w => decide (t < 128) && vwordOk 642 w
  | .smerge t w => decide (t < 128) && vwordOk 643 w
  | .mergeUnitTaken die queue seq => decide (die < 8) && decide (queue < 4096) && decide (seq < 2 ^ 23)
  | .mergeComplete die queue seq => decide (die < 8) && decide (queue < 4096) && decide (seq < 2 ^ 23)
  | .seta t c => decide (t < 128) && decide (c < 16)
  | .adda t c => decide (t < 128) && decide (c < 16)
  | .loop t c => decide (t < 128) && decide (c < 16)
  | .move t c => decide (t < 128) && decide (c < 16)
  | .moveRequestComplete t c _ _ => decide (t < 128) && decide (c < 16)
  | .emit t at' => decide (t < 128) && decide (at'.1 < 16)
  | .take t c => decide (t < 128) && decide (c < 16)
  | .waitt t c => decide (t < 128) && decide (c < 16)
  | .tokenWaitSatisfied t c => decide (t < 128) && decide (c < 16)
  | .sigt t c => decide (t < 128) && decide (c < 16)
  | .sigtTakeEffect t c => decide (t < 128) && decide (c < 16)
  | .flip t c => decide (t < 128) && decide (c < 16)
  | .endStroke t c => decide (t < 128) && decide (c < 16)
  | .clusterCacheFill cluster _ _ _ => decide (cluster < 32)
  | .lookup queue _ _ => decide (queue < 4096)
  | .rowFetchComplete queue seq _ _ _ => decide (queue < 4096) && decide (seq < 2 ^ 23)
  | .passComplete queue seq _ _ => decide (queue < 4096) && decide (seq < 2 ^ 23)
  | .teMapInvalWrite port value => decide (port < 2) && decide (value < 2 ^ 64)
  | .agingSweep die table => decide (die < 8) && decide (table < 65536)
  | .update queue _ _ => decide (queue < 4096)
  | .sgd queue seq _ _ _ => decide (queue < 4096) && decide (seq < 2 ^ 23)
  | .rwAdagrad queue seq _ _ _ => decide (queue < 4096) && decide (seq < 2 ^ 23)
  | .adam queue seq _ _ _ => decide (queue < 4096) && decide (seq < 2 ^ 23)
  | .stepAdvance queue seq => decide (queue < 4096) && decide (seq < 2 ^ 23)
  | .epochFlip queue seq _ => decide (queue < 4096) && decide (seq < 2 ^ 23)
  | .epochCatchupStart table => decide (table < 65536)
  | .migrationTake die table _ _ => decide (die < 8) && decide (table < 65536)
  | .migrationFlip die table _ => decide (die < 8) && decide (table < 65536)
  | .migrationAbandon die table _ => decide (die < 8) && decide (table < 65536)
  | .migrationComplete die table _ => decide (die < 8) && decide (table < 65536)
  | .reduce queue _ => decide (queue < 4096)
  | .redAdd queue seq _ _ _ _ => decide (queue < 4096) && decide (seq < 2 ^ 23)
  | .redMin queue seq _ _ _ _ => decide (queue < 4096) && decide (seq < 2 ^ 23)
  | .redMax queue seq _ _ _ _ => decide (queue < 4096) && decide (seq < 2 ^ 23)
  | .redCas queue seq _ _ _ _ => decide (queue < 4096) && decide (seq < 2 ^ 23)
  | .epochClose queue seq => decide (queue < 4096) && decide (seq.1 < 2 ^ 23)
  | .session queue _ => decide (queue < 4096)
  | .sesFind queue seq _ _ _ => decide (queue < 4096) && decide (seq < 2 ^ 23)
  | .sesInsert queue seq _ _ _ => decide (queue < 4096) && decide (seq < 2 ^ 23)
  | .sesDelete queue seq _ _ _ => decide (queue < 4096) && decide (seq < 2 ^ 23)
  | .sesTouch queue seq _ _ _ => decide (queue < 4096) && decide (seq < 2 ^ 23)
  | .sesAppend queue seq _ _ _ => decide (queue < 4096) && decide (seq < 2 ^ 23)
  | .sesWrite queue seq _ _ _ => decide (queue < 4096) && decide (seq < 2 ^ 23)
  | .sesRead queue seq _ _ _ => decide (queue < 4096) && decide (seq < 2 ^ 23)
  | .sessionResolve queue seq _ => decide (queue < 4096) && decide (seq < 2 ^ 23)
  | .sessionSweep die _ => decide (die < 8)
  | .cxlRequestTimeout (.chan t) c => decide (t < 128) && decide (c < 16)
  | .cxlRequestTimeout (.line die port) _ => decide (die < 8) && decide (port < 2)
  | .cxlRequestTimeout .bias _ => true
  | .t3WindowWrite port window _ value => decide (port < 2) && decide (window < 8) && decide (value < 2 ^ 64)
  | .windowLayerRelease queue seq _ => decide (queue < 4096) && decide (seq < 2 ^ 23)
  | .replicaReadComplete _ _ _ => true
  | .scrubPatrol die _ _ => decide (die < 8)
  | .rowSpareRemap die _ _ _ _ _ => decide (die < 8)
  | .stackTempSample die _ => decide (die < 8)
  | .hostLinkUp port mode speed width => decide (port < 2) && (mode == 1 || mode == 2 || mode == 3) && decide (speed < 8) && decide (width < 32)
  | .hostLinkDown port => decide (port < 2)
  | .hostPortSwitch die port => decide (die < 8) && decide (port < 2)
  | .hdmDecoderCommit port dec _ _ => decide (port < 2) && decide (dec < 2)
  | .hostMemRead port _ _ => decide (port < 2)
  | .hostMemWrite port _ _ => decide (port < 2)
  | .bar4Read port _ _ _ => decide (port < 2)
  | .bar4Write port _ _ => decide (port < 2)
  | .birspReceive port _ => decide (port < 2)
  | .hostSnoop port _ _ => decide (port < 2)
  | .hostWriteGo die port _ => decide (die < 8) && decide (port < 2)
  | .biasFlip port _ => decide (port < 2)
  | .fenceComplete queue seq => decide (queue < 4096) && decide (seq < 2 ^ 23)
  | .completionRecordWrite queue seq _ => decide (queue < 4096) && decide (seq < 2 ^ 23)
  | .msixSend port vector => decide (port < 2) && decide (vector < 2048)
  | .msixUnmask port vector => decide (port < 2) && decide (vector < 2048)
  | .atsTranslationCompletion die _ _ _ => decide (die < 8)
  | .atsInvalidationRequest port _ _ _ _ => decide (port < 2)
  | .invalidationCompletionSend port => decide (port < 2)
  | .xlatFlush port value => decide (port < 2) && decide (value < 2 ^ 64)
  | .prgResponse port _ _ _ => decide (port < 2)
  | .prgTimeout port _ _ => decide (port < 2)
  | .doorbell port queue value => decide (port < 2) && decide (queue < 4096) && decide (value < 2 ^ 64)
  | .deviceDoorbell queue _ t => decide (queue < 4096) && decide (t < 128)
  | .cqHeadWrite port queue value => decide (port < 2) && decide (queue < 4096) && decide (value < 2 ^ 64)
  | .entryFetch queue _ => decide (queue < 4096)
  | .staleReread queue _ => decide (queue < 4096)
  | .launch queue _ _ _ _ => decide (queue < 4096)
  | .nop queue => decide (queue < 4096)
  | .queueCreate _ => true
  | .queueDrainComplete queue => decide (queue < 4096)
  | .handleCommit port value => decide (port < 2) && decide (value < 2 ^ 64)
  | .admqCtrlWrite port value => decide (port < 2) && decide (value < 2 ^ 64)
  | .taskStart t _ => decide (t < 128)
  | .modelLoadComplete part _ cluster _ _ => decide (part < 16) && decide (cluster < 32)
  | .timesliceExpiry queue seq => decide (queue < 4096) && decide (seq < 2 ^ 23)
  | .saveComplete queue seq => decide (queue < 4096) && decide (seq < 2 ^ 23)
  | .restoreComplete queue seq => decide (queue < 4096) && decide (seq < 2 ^ 23)
  | .yieldLate queue seq _ => decide (queue < 4096) && decide (seq < 2 ^ 23)
  | .wcetWatchdogExpiry queue seq _ => decide (queue < 4096) && decide (seq < 2 ^ 23)
  | .semHoldOverrun part sem => decide (part < 16) && decide (sem < 32)
  | .acctSelWrite port value => decide (port < 2) && decide (value < 2 ^ 64)
  | .acctMdlSelWrite port value => decide (port < 2) && decide (value < 2 ^ 64)
  | .acctClear port value => decide (port < 2) && decide (value < 2 ^ 64)
  | .fabricLinkUp eport sub mode => decide (eport < 8) && decide (sub < 8) && decide (mode < 4)
  | .fabricLinkDown eport sub => decide (eport < 8) && decide (sub < 8)
  | .frameReceive eport sub _ _ => decide (eport < 8) && decide (sub < 8)
  | .quillPut eport _ => decide (eport < 8)
  | .getReq eport _ => decide (eport < 8)
  | .getResp eport _ _ => decide (eport < 8)
  | .atomicRx eport _ => decide (eport < 8)
  | .coll eport _ _ => decide (eport < 8)
  | .ack eport _ => decide (eport < 8)
  | .nak eport _ => decide (eport < 8)
  | .abortRx eport _ => decide (eport < 8)
  | .ackDelayTimer flow => decide (flow < 65536)
  | .retransmitTimeout flow psn => decide (flow < 65536) && decide (psn < 2 ^ 32)
  | .flowProgressTimeout flow => decide (flow < 65536)
  | .nakRetryTimer flow psn => decide (flow < 65536) && decide (psn < 2 ^ 32)
  | .keyRetireTimer flow => decide (flow < 65536)
  | .flowOpen port => decide (port < 2)
  | .flowClose port => decide (port < 2)
  | .flowReset port => decide (port < 2)
  | .rxNext port => decide (port < 2)
  | .switchTx port => decide (port < 2)
  | .groupDefine port value => decide (port < 2) && decide (value < 2 ^ 64)
  | .postWordWrite queue seq task _ => decide (queue < 4096) && decide (seq < 2 ^ 23) && decide (task < 16)
  | .put queue seq task _ => decide (queue < 4096) && decide (seq < 2 ^ 23) && decide (task < 16)
  | .get queue seq task _ => decide (queue < 4096) && decide (seq < 2 ^ 23) && decide (task < 16)
  | .atomicAdd queue seq task _ => decide (queue < 4096) && decide (seq < 2 ^ 23) && decide (task < 16)
  | .allReduce queue seq task _ => decide (queue < 4096) && decide (seq < 2 ^ 23) && decide (task < 16)
  | .allToAll queue seq task _ => decide (queue < 4096) && decide (seq < 2 ^ 23) && decide (task < 16)
  | .allGather queue seq task _ => decide (queue < 4096) && decide (seq < 2 ^ 23) && decide (task < 16)
  | .mcastPut queue seq task _ => decide (queue < 4096) && decide (seq < 2 ^ 23) && decide (task < 16)
  | .quillOperationComplete _ => true
  | .trainingComplete mods => (mods.length == 16)
  | .startTestComplete fails => (decide (fails.length < 1025) && fails.all (·.ok))
  | .nibOwnerSet port value _ => decide (port < 2) && decide (value < 2 ^ 64)
  | .nibBfwInstall port value _ => decide (port < 2) && decide (value < 2 ^ 64)
  | .getVersion port => decide (port < 2)
  | .getCapabilities port => decide (port < 2)
  | .negotiateAlgorithms port => decide (port < 2)
  | .getDigests port => decide (port < 2)
  | .getCertificate port _ _ => decide (port < 2)
  | .challenge port _ _ => decide (port < 2)
  | .getMeasurements port _ _ _ => decide (port < 2)
  | .spdmUnsupportedRequest port _ => decide (port < 2)
  | .shutdownOff port value => decide (port < 2) && decide (value < 2 ^ 64) && value % 4 == 1
  | .shutdownTest port value => decide (port < 2) && decide (value < 2 ^ 64) && value % 4 == 2
  | .bistPauseLimit die fails _ _ => decide (die < 8) && (decide (fails.length < 1025) && fails.all (·.ok))
  | .bistComplete fails _ _ => (decide (fails.length < 1025) && fails.all (·.ok))
  | .blotRingEnable port ring => decide (port < 2) && decide (ring < 17)
  | .fltHeadWrite port ring value => decide (port < 2) && decide (ring < 17) && decide (value < 2 ^ 64)
  | .fltOvfClear port value => decide (port < 2) && decide (value < 2 ^ 64)
  | .probeSampleDue t => decide (t < 128)
  | .probeIdleTimer t => decide (t < 128)
  | .idleUnitProbe die => decide (die < 8)
  | .fltProbeCmd port value => decide (port < 2) && decide (value < 2 ^ 64)
  | .probeComplete kind num _ => decide (kind < 5) && decide (num < 128)
  | .suspectStageComplete die _ => decide (die < 8)
  | .perstAssert port => decide (port < 2)
  | .perstRelease port => decide (port < 2)
  | .thermtrip die => decide (die < 8)
  | .epochCatchupComplete table => decide (table < 65536)
  | .bfwInstallComplete _ => true
  | .atsPriEnable port _ _ _ => decide (port < 2)
  | .timeSlewComplete => true
  | .ptpHoldoverTimeout => true
  | .refclkLost => true
  | .refclkResume => true
  | .folioLoad => true
  | .folioQuiesceDone => true
  | .folioProgramDone => true
  | .partReconf => true
  | .drainLimitExpiry => true
  | .partitionQuiesced => true
  | .reconfApplyDone => true
  | .folioRepair => true
  | .folioCommit => true
  | .regulatorRefill => true
  | .biasFlipComplete => true
  | .hostBiasFlush => true
  | .xlatFlushComplete => true
  | .queueDestroy => true
  | .htabBind => true
  | .htabUnbind => true
  | .powerOnStart => true
  | .bootFirmwareStart => true
  | .bootLeadTimeout => true
  | .startDone => true
  | .t2ZeroingComplete => true
  | .shutdownQuiesced => true
  | .shutdownFlushed => true
  | .readyForOff => true
  | .heartbeatWrite => true
  | .heartbeatTimeout => true
  | .resetAssert => true
  | .ownerSetComplete => true

end Sys2Proof
end

