-- ==== Sys2Proof/Machine/Unit.lean ====
section
/-!
DEFINITION. How a shared unit (table engine, update unit, Saffron, reduction unit, Quill engine) reads and writes memory for a
command: the check of 15, the sector's check of 13, the host-line cache of 14, and the charge of 12.
-/
namespace Sys2Proof.Machine

/-- A unit that accesses memory for a command: its kind and number of Table 15.5 (kind 4: the Quill engine of a die, to
which the manual gives no code). -/
structure UnitId where
  kind : Nat
  num : Nat
deriving DecidableEq, Repr

/-- The die of a unit. -/
def UnitId.die (u : UnitId) : Nat := if u.kind = 0 then u.num / 2 else u.num

/-- SOURCE of a unit's blot records (R454). -/
def UnitId.src (u : UnitId) : Src :=
  if u.kind = 0 then ⟨3, u.num⟩
  else if u.kind = 4 then ⟨7, u.num⟩
  else ⟨4, u.num + 16 * nth [0, 1, 3, 2] u.kind 0⟩

/-- An access fails with XLAT_FAULT (R340); a unit without a code of Table 15.5 is named by a free value (log entry 35). -/
def State.unitFault (s : State) (cid : Nat) (u : UnitId) (a cause : Nat) (write prg : Bool) : State :=
  let code := if u.kind < 4 then unitOfShared u.kind u.num else s.freeVal % 65536
  let s := if u.kind < 4 then s else s.useFree
  s.xlatFault u.die cid (if u.kind = 4 then s.tilesOf cid else []) u.src code a cause write prg false

/-- Traffic of command `cid`, to be admitted by its partition's bucket (R270). -/
def State.unitPay (s : State) (cid slot bytes : Nat) (src : Src) : State := s.owe ((s.cmd cid).part.getD 0) cid slot bytes src

/-- How an access of a shared unit ends: with bytes, not yet (what it needs is not there: nothing changes), not yet (a
recovery runs), or with the command's end. -/
inductive UOut where
  | ok (data : List Nat)
  | missing
  | wait
  | ended
deriving DecidableEq, Repr

/-- A host page answered for the access: cached (R330), or refused as R338 and R340 say. -/
def State.unitPage (s : State) (cid : Nat) (u : UnitId) (host : HostView) (port a : Nat) (write : Bool) : State × Option XEnt × UOut :=
  let ctx := (s.queue (s.cmd cid).queue).ctx
  let page := hvAddr a / 4096
  let pasid := some ctx.pasid
  let judge (s : State) (e : XEnt) (prg : Nat) : State × Option XEnt × UOut :=
    if (if write then e.wr else e.rd) then ((s.bump (xlatBase u.die) 64 1).xtouch u.die e, some e, .ok [])
    else if ctx.priEn && nth s.xlat.pri port false then
      if 3 ≤ prg && prg ≤ 5 then (s.unitFault cid u a prg write true, none, .ended) else (s, none, .missing)
    else (s.unitFault cid u a (if write && e.rd then 2 else 1) write false, none, .ended)
  if s.xpaused port pasid page then (s, none, .missing)
  else match s.xfind u.die port pasid page with
    | some e => judge s e ((host.pages.find? (fun p => p.page == page)).map (·.prg) |>.getD 0)
    | none =>
      match host.pages.find? (fun p => p.page == page) with
      | none => (s, none, .missing)
      | some p =>
        let s := (s.bump (xlatBase u.die + 8) 64 1).emit (.atsRequest port u.die pasid page)
        if p.ans.error then (s.unitFault cid u a 6 write false, none, .ended)
        else
          let e : XEnt := { port := port, pasid := pasid, global := p.ans.global, vpage := page, size := 4096, ppage := p.ans.ppage,
                            rd := p.ans.rd, wr := p.ans.wr, untrans := p.ans.untrans }
          judge (if e.rd || e.wr then s.xput u.die e else s) e p.prg

/-- `n` bytes of a host view from a virtual address, if it has them all. -/
def hostBytes (h : HostView) (a n : Nat) : Option (List Nat) :=
  h.bytes.findSome? (fun r => if r.1 ≤ a && a + n ≤ r.1 + r.2.length then some ((r.2.drop (a - r.1)).take n) else none)

/-- The check of a device access (R326); a launch may reach the slots it holds, and the null slot, as R253 says. -/
def State.unitCheck (s : State) (cid : Nat) (ctx : Ctx) (a n : Nat) (write : Bool) : Nat :=
  match (if (s.cmd cid).opcode = 1 then s.slotAccess cid a n write else none) with
  | some true => 0
  | some false => 0xA
  | none => s.dpCheck ctx a n (!write) write

/-- Part of a sector of a host-bias page read by a shared unit: the host answers it, and its port carries it (R270, R305). A failed read
is handled as one of the sector (R273, log entry 194). -/
def State.unitBias (s : State) (cid : Nat) (u : UnitId) (x n : Nat) : State × UOut :=
  let sec := x / 64 * 64
  let p := s.biasPort x
  let s' := ((s.unitPay cid (26 + p) 64 u.src).emit (.hostRead u.die sec none 64)).portBytes p false 64
  match s.outcome sec with
  | .host d => (s', .ok ((upto n).map (fun i => nth d (x % 64 + i) 0 % 256)))
  | .failed c =>
    let s := (s'.tierFailed sec c false (s.cmd cid).part (some cid) u.src).lineLost sec 1 (some cid) u.src
    (s.endCmd cid 2 (sec / 64 % 65536) [] (u.kind == 4), .ended)
  | _ => (s, .missing)

/-- Bytes within one sector of device memory read by a shared unit, for command `cid`, which is concerned with its die's memory controller
(R35). It waits for memory to be zeroed (R68) and for a write to the sector that waits for the host (R304). -/
def State.unitSector (s : State) (cid : Nat) (u : UnitId) (x n : Nat) : State × UOut :=
  let part := (s.cmd cid).part
  if s.unzeroed x n || s.biHeld x then (s, .missing)
  else if s.inHostBias x then s.unitBias cid u x n
  else
    let o := ((s.concern cid (dieOfPhys x)).unitPay cid (slotOfPhys x false) 64 u.src).readSector (x / 64 * 64) part (some cid) u.src
    match o.2 with
    | .data => (o.1, .ok (o.1.readThrough part x n))
    | .replica => (s.waits o.1, .wait)
    | .crcFail => (o.1.crcReplay cid (x / 64 * 64) u.src [], .ended)
    | .fail st det => ((o.1.slotLost x).endCmd cid st det [] (u.kind == 4), .ended)

/-- Some pieces of device memory read in turn. -/
def State.unitPieces (s : State) (cid : Nat) (u : UnitId) : List (Nat × Nat) → State × UOut
  | [] => (s, .ok [])
  | k :: ks =>
    let o := s.unitSector cid u k.1 k.2
    match o.2 with
    | .ok d =>
      let r := o.1.unitPieces cid u ks
      (match r.2 with
       | .ok e => (r.1, .ok (d ++ e))
       | y => (r.1, y))
    | y => (o.1, y)

/-- What an access in parts comes to: one that misses something has changed nothing; one that waits, only what the media hold. -/
def readAs (s : State) (r : State × UOut) : State × UOut :=
  match r.2 with
  | .missing => (s, .missing)
  | .wait => (s.waits r.1, .wait)
  | _ => r

/-- What a command comes to whose read gives it no bytes now. -/
def State.halts (s : State) (r : State × UOut) : State :=
  match r.2 with
  | .ended => r.1
  | .wait => s.waits r.1
  | _ => s

/-- `n` bytes at physical address `x` read for command `cid`, a sector after another. -/
def State.unitSectors (s : State) (cid : Nat) (u : UnitId) (x n : Nat) : State × UOut := readAs s (s.unitPieces cid u (pieces x n))

/-- A read of at most one 64-byte sector or line. -/
def State.unitReadPiece (s : State) (cid : Nat) (u : UnitId) (host : HostView) (a n : Nat) : State × UOut :=
  let ctx := (s.queue (s.cmd cid).queue).ctx
  match addrClass a with
  | 0 =>
    let cause := s.unitCheck cid ctx a n false
    if cause != 0 then (s.unitFault cid u a cause false false, .ended)
    else s.unitSector cid u ((s.phys a).getD 0) n
  | 1 =>
    if !ctx.pasidEn then (s.unitFault cid u a 7 false false, .ended)
    else match s.diePort u.die with
      | none => (s.unitFault cid u a 6 false false, .ended)
      | some port =>
        if !nth s.xlat.ats port false then (s.unitFault cid u a 6 false false, .ended)
        else
          let o := s.unitPage cid u host port a false
          match o.2.1 with
          | none => (o.1, o.2.2)
          | some e =>
            let h := (e.ppage + (hvAddr a / 4096 - e.vpage)) * 4096 + a % 4096
            match host.bad.find? (fun b => b.1 == hvAddr a / 64) with
            | some b =>
              let s := o.1.bump (0x320008 + 0x100 * port) 32 1
              let s := s.blot { cls := 0x0406, part := (s.cmd cid).part, cmd := some (cmdName cid), src := u.src, addr := a,
                                detail := [(4, 1), (port, 1), (b.2, 1), (0, 1)] } (ringsGP (s.cmd cid).part)
              -- a failed read is an uncorrectable error of the line it read (R273, R287)
              let s := s.blotCmd cid 0x0401 u.src a [(0xFF, 1), (4, 1), (1, 1)] true
              (s.endCmd cid 2 (a / 64 % 65536) [] (u.kind == 4), .ended)
            | none =>
              let z := (o.1.concern cid u.die).hlcSram u.die h
              match z.2 with
              | some w => (z.1.sramFails cid 3 w u.src [], .ended)
              | none =>
                match hostBytes host (hvAddr a) n with
                | none => (s, .missing)
                | some d =>
                  let hit := (z.1.hlc u.die).any (fun l => l.addr == h / 64 * 64) && decide (2 ≤ s.portMode port) && !e.untrans
                  let r := (if hit then z.1 else z.1.unitPay cid (26 + port) 64 u.src).hostRead u.die port (some ctx.pasid) false e.untrans h d
                  (r.1, .ok r.2)
  | _ => (s.unitFault cid u a 8 false false, .ended)

/-- A read of any length, cut at 64-byte boundaries (R323). `fuel` bounds the pieces. -/
def State.unitReadAll : Nat → State → Nat → UnitId → HostView → Nat → Nat → State × UOut
  | 0, s, _, _, _, _, _ => (s, .ok [])
  | fuel + 1, s, cid, u, host, a, n =>
    if n = 0 then (s, .ok [])
    else
      let k := min n (64 - a % 64)
      let o := s.unitReadPiece cid u host a k
      match o.2 with
      | .ok d =>
        let r := State.unitReadAll fuel o.1 cid u host (a + k) (n - k)
        (match r.2 with
         | .ok e => (r.1, .ok (d ++ e))
         | x => (r.1, x))
      | x => (o.1, x)

/-- A read for command `cid`: the new state and the bytes. Where something needed is missing the state is as before. -/
def State.unitRead (s : State) (cid : Nat) (u : UnitId) (host : HostView) (a n : Nat) : State × UOut :=
  readAs s (State.unitReadAll (n / 64 + 2) s cid u host a n)

/-- Several ranges read in turn. -/
def State.unitRanges (s : State) (cid : Nat) (u : UnitId) (host : HostView) : List (Nat × Nat) → State × UOut
  | [] => (s, .ok [])
  | x :: xs =>
    let o := s.unitRead cid u host x.1 x.2
    match o.2 with
    | .ok d =>
      let r := o.1.unitRanges cid u host xs
      (match r.2 with
       | .ok e => (r.1, .ok (d ++ e))
       | y => (r.1, y))
    | y => (o.1, y)

/-- A read of several ranges. -/
def State.unitReads (s : State) (cid : Nat) (u : UnitId) (host : HostView) (l : List (Nat × Nat)) : State × UOut :=
  readAs s (s.unitRanges cid u host l)

/-- A write that failed at its target (R273, R281, R290): TIER_ACCESS_FAILED, and the command ends with DATA_ERROR. -/
def State.unitWriteFails (s : State) (cid : Nat) (u : UnitId) (x : Nat) : State :=
  ((s.tierFailed x (s.writeCause x) true (s.cmd cid).part (some cid) u.src)).endCmd cid 3 5 [] (u.kind == 4)

/-- Bytes of one sector of device memory written by a shared unit for command `cid`; a host-bias page is reached through the host, whose
port carries them (R270, R305). -/
def State.unitStore (s : State) (cid : Nat) (u : UnitId) (x : Nat) (data : List Nat) : State × Bool :=
  let bias := s.inHostBias x
  let s := (s.concern cid (dieOfPhys x)).unitPay cid (if bias then 16 + s.biasPort x else slotOfPhys x true) 64 u.src
  let o := s.devWrite (some cid) x data
  if o.2 then (o.1.invalidateOthers 32 x, true) else ((o.1.invalidateOthers 32 x).unitWriteFails cid u x, false)

/-- A write of at most one 64-byte sector or line. -/
def State.unitWritePiece (s : State) (cid : Nat) (u : UnitId) (host : HostView) (a : Nat) (data : List Nat) : State × UOut :=
  let ctx := (s.queue (s.cmd cid).queue).ctx
  match addrClass a with
  | 0 =>
    let cause := s.unitCheck cid ctx a data.length true
    if cause != 0 then (s.unitFault cid u a cause true false, .ended)
    else
      let o := s.unitStore cid u ((s.phys a).getD 0) data
      (o.1, if o.2 then .ok [] else .ended)
  | 1 =>
    if !ctx.pasidEn then (s.unitFault cid u a 7 true false, .ended)
    else match s.diePort u.die with
      | none => (s.unitFault cid u a 6 true false, .ended)
      | some port =>
        if !nth s.xlat.ats port false then (s.unitFault cid u a 6 true false, .ended)
        else
          let o := s.unitPage cid u host port a true
          match o.2.1 with
          | none => (o.1, o.2.2)
          | some e =>
            let h := (e.ppage + (hvAddr a / 4096 - e.vpage)) * 4096 + a % 4096
            match host.bad.find? (fun b => b.1 == hvAddr a / 64) with
            | some b =>
              let s := o.1.bump (0x320008 + 0x100 * port) 32 1
              let s := s.blot { cls := 0x0406, part := (s.cmd cid).part, cmd := some (cmdName cid), src := u.src, addr := a,
                                detail := [(4, 1), (port, 1), (b.2, 1), (1, 1)] } (ringsGP (s.cmd cid).part)
              (s.endCmd cid 3 5 [] (u.kind == 4), .ended)
            | none =>
              let plain := s.portMode port < 2 || e.untrans || data.length == 64
              let hit := (o.1.hlc u.die).any (fun l => l.addr == h / 64 * 64)
              let s := o.1.concern cid u.die
              let s := if plain then s.unitPay cid (16 + port) 64 u.src else if hit then s else s.unitPay cid (26 + port) 64 u.src
              ((s.hostWrite u.die port (some ctx.pasid) (some cid) e.untrans h data).1, .ok [])
  | _ => (s.unitFault cid u a 8 true false, .ended)

/-- A write of any length. -/
def State.unitWriteAll : Nat → State → Nat → UnitId → HostView → Nat → List Nat → State × UOut
  | 0, s, _, _, _, _, _ => (s, .ok [])
  | fuel + 1, s, cid, u, host, a, data =>
    if data.isEmpty then (s, .ok [])
    else
      let k := 64 - a % 64
      let o := s.unitWritePiece cid u host a (data.take k)
      match o.2 with
      | .ok _ => State.unitWriteAll fuel o.1 cid u host (a + k) (data.drop k)
      | x => (o.1, x)

/-- A write for command `cid`. Where something needed is missing the state is as before. -/
def State.unitWrite (s : State) (cid : Nat) (u : UnitId) (host : HostView) (a : Nat) (data : List Nat) : State × UOut :=
  readAs s (State.unitWriteAll (data.length / 64 + 2) s cid u host a data)

/-- Bytes written at physical address `x` for command `cid`, a sector after another. The flag is false when a write failed. -/
def State.unitStores (s : State) (cid : Nat) (u : UnitId) (x : Nat) (data : List Nat) : State × Bool :=
  (pieces x data.length).foldl (fun (y : State × Bool) k =>
    if y.2 then y.1.unitStore cid u k.1 ((data.drop (k.1 - x)).take k.2) else y) (s, true)

/-! ## Engines and units that take work (R69, R297) -/

/-- Compute on die `d` is halted. -/
def State.halted (s : State) (d : Nat) : Bool := nth s.memc.halt d false

/-- Table engine `n` takes new work: not retired, not being retired, not confined, its die not halted. -/
def State.teOpen (s : State) (n : Nat) : Bool :=
  !s.retired 2 n && !s.unitConfined 3 n && !(s.flt.retiring.any (fun u => u.1 == 2 && u.2.1 == n)) && !s.halted (n / 2)

/-- The dies in order of distance from die `d`, lower numbers first on a tie. -/
def nearDies (d : Nat) : List Nat :=
  ((upto 6).map (fun k => (upto 8).filter (fun e => (d % 4 - e % 4) + (e % 4 - d % 4) + (d / 4 - e / 4) + (e / 4 - d / 4) == k))).flatten

/-- The engines that do the work of die `d`: its own, or those of the nearest die with an engine that is not retired (R69). -/
def State.teFor (s : State) (d : Nat) : List Nat :=
  let alive (e : Nat) := [2 * e, 2 * e + 1].filter (fun n => !s.retired 2 n)
  match (nearDies d).find? (fun e => !(alive e).isEmpty) with
  | some e => (alive e).filter (fun n => s.teOpen n)
  | none => []

/-- No table engine of the device remains. -/
def State.noEngines (s : State) : Bool := (upto 16).all (fun n => s.retired 2 n)

/-- The bytes of an answer; nothing where it has none. -/
def UOut.bytes : UOut → List Nat
  | .ok d => d
  | _ => []

end Sys2Proof.Machine
end

