-- ==== Sys2Proof/Machine/Quill.lean ====
section
/-!
DEFINITION. Quill's flows (18): descriptors, sending with its windows and credits, acknowledgement and loss, violations, and
how operations end.
-/
namespace Sys2Proof.Machine

/-! ## Descriptors (Table 18.6) -/

/-- Descriptor bytes of flow `f` as a little-endian field. -/
def State.fdesc (s : State) (f off size : Nat) : Nat :=
  fieldOf (((upto 16).map (fun i => natBytes 8 (s.reg (selKey (0x400110 + 8 * i) f)))).flatten) off size

/-- PEER_DEV, PEER_FLOW, PART_ID, PORT_MASK, MAX_PAYLOAD, PEER_IPS. -/
def State.peerDev (s : State) (f : Nat) : Nat := s.fdesc f 0 2 % 2 ^ 15
def State.peerFlow (s : State) (f : Nat) : Nat := s.fdesc f 2 2
def State.flowPart (s : State) (f : Nat) : Nat := s.fdesc f 4 1 % 16
def State.portMask (s : State) (f : Nat) : Nat := s.fdesc f 7 1
def State.maxPayload (s : State) (f : Nat) : Nat := s.fdesc f 8 2
def State.peerIps (s : State) (f : Nat) : Nat := s.fdesc f 10 1

/-- The fabric address of this device. -/
def State.fabDev (s : State) : Nat := s.reg 0x400004 % 2 ^ 15

/-! ## Sending (R410, R413-R415, R428) -/

/-- Base of the registers of Ethernet port `n` (R434). -/
def fabPort (n : Nat) : Nat := 0x401000 + 0x200 * n

/-- The sub-ports that are up on the ports of a flow's PORT_MASK. -/
def State.upSubs (s : State) (f : Nat) : List (Nat × Nat) :=
  ((bitList 8 (s.portMask f)).map (fun n => ((upto 8).filter (fun k => bit (s.reg (fabPort n + 4)) k)).map (fun k => (n, k)))).flatten

/-- The sub-port a packet leaves through: one other than the last it used where there is one (R412, R413). -/
def State.pickSub (s : State) (f : Nat) (last : Option (Nat × Nat)) : Option (Nat × Nat) :=
  let l := s.upSubs f
  match last with
  | none => l.head?
  | some v => (l.find? (· != v)).or l.head?

/-- Bytes of the extension of a packet type. -/
def extBytes (kind : Nat) : Nat := nth [0, 24, 24, 24, 24, 24, 48, 16, 16] kind 24

/-- `n` octets of `v`, the most significant first, as every multi-byte Quill field is laid out (R5, R403). -/
def bigBytes (n v : Nat) : List Nat := (natBytes n v).reverse

/-- The octets of the extension of a packet of type `kind` (Table 18.4, Table 18.5). -/
def extOctets (kind : Nat) (fields : List Nat) : List Nat :=
  let v (i : Nat) : Nat := nth fields i 0
  match kind with
  | 6 => bigBytes 4 (v 0) ++ bigBytes 4 (v 1) ++ bigBytes 32 (v 2) ++ bigBytes 8 (v 3)
  | 7 => bigBytes 4 (v 0) ++ bigBytes 1 (v 1) ++ bigBytes 3 0 ++ bigBytes 8 (v 2)
  | 8 => bigBytes 2 (v 0) ++ bigBytes 1 (v 1) ++ bigBytes 1 (v 2) ++ bigBytes 4 (v 3) ++ bigBytes 8 0
  | _ => bigBytes 8 (v 0) ++ bigBytes 4 (v 1) ++ bigBytes 4 (v 2) ++ bigBytes 2 (v 3) ++ bigBytes 1 (v 4) ++ bigBytes 1 (v 5) ++ bigBytes 4 (v 6)

/-- The octets of a packet's Quill header, for `len` bytes of extension and payload (Table 18.2). -/
def Packet.header (p : Packet) (len : Nat) : List Nat :=
  bigBytes 1 (0x10 + p.kind) ++ bigBytes 1 p.flags ++ bigBytes 2 p.flow ++ bigBytes 2 p.src ++ bigBytes 2 p.dst ++ bigBytes 4 p.psn
    ++ bigBytes 4 p.opid ++ bigBytes 8 p.txseq ++ bigBytes 2 len ++ bigBytes 2 0 ++ bigBytes 4 (p.pace.1 * 2 ^ 28 + p.pace.2)

/-- The octets of a packet before it is sealed: header, extension and payload (R402, R403). -/
def Packet.octets (p : Packet) : List Nat :=
  let ext := extOctets p.kind p.fields
  p.header (ext.length + p.data.length) ++ ext ++ p.data

/-- Bytes of a frame from destination MAC address through FCS (Table 12.4). -/
def State.frameBytes (s : State) (f : Nat) (via : Nat × Nat) (kind data : Nat) : Nat :=
  18 + (if bit (s.reg (fabPort via.1 + 0x54 + 0x20 * via.2)) 12 then 4 else 0) + (if bit (s.fdesc f 5 1) 0 then 40 else 20)
    + 8 + 32 + extBytes kind + data + 16

/-- The pace notice of a packet sent by die `d` (R428): cause and pace. -/
def State.paceNotice (s : State) (d : Nat) : Nat × Nat :=
  match nth s.memc.cap d none with
  | some c => (1, c)
  | none => if bit s.inside d then (0, 0) else (2, bits (s.reg (0x10100 + 0x40 * d)) 15 0)

/-- What a frame of flow `f` costs on its port (R270): it is charged to the launch or command for which it goes out (R212), and otherwise to
the flow's partition. -/
def State.frameDue (s : State) (f : Nat) (via : Nat × Nat) (kind data : Nat) (cid : Option Nat) : Due :=
  { part := (cid.bind (fun c => (s.cmd c).part)).getD (s.flowPart f), cid := cid.getD (flowCid f), slot := 18 + via.1,
    bytes := s.frameBytes f via kind data, src := ⟨7, via.1⟩ }

/-- A packet put on the wire through a sub-port by die `d`: TXSEQ, peer address, notice. -/
def State.transmit (s : State) (f d : Nat) (via : Nat × Nat) (kind flags psn opid : Nat) (fields data : List Nat) : State :=
  let x := s.flow f
  let s := s.bump (fabPort via.1 + 0x10) 64 1
  let s := s.emit (.packet via.1 via.2
    { flow := s.peerFlow f, src := s.fabDev, dst := s.peerDev f, kind := kind, flags := flags + 2 * b2n x.epoch, psn := psn % 2 ^ 32,
      opid := opid % 2 ^ 32, txseq := x.txseq, pace := s.paceNotice d, ip := x.ip % max 1 (s.peerIps f), fields := fields, data := data })
  s.updFlow f (fun x => { x with txseq := x.txseq + 1, ip := x.ip + 1, active := some s.time })

/-- Sequenced packets of partition `p` sent and not acknowledged: its credits in use (R414). -/
def State.creditsUsed (s : State) (p : Nat) : Nat :=
  s.fab.flows.foldl (fun n e => if e.2.st = 1 && s.flowPart e.1 == p then n + e.2.sent.length else n) 0

/-- CREDIT_POOL of a partition. -/
def State.creditPool (s : State) (p : Nat) : Nat := match cfgPart s.folio.active p with | some r => r.f 52 4 | none => 0

/-- Whether flow `f` may put a new sequenced packet on the wire now. -/
def State.maySend (s : State) (f : Nat) : Bool :=
  let x := s.flow f
  x.st == 1 && decide (x.psn < x.cum + x.held) && decide (x.sent.length < 4096)
  && decide (x.sent.length < max 1 (x.cwnd / 256)) && decide (x.txseq < 2 ^ 48)
  && decide (s.creditsUsed (s.flowPart f) < s.creditPool (s.flowPart f))

/-- Waiting packets of a flow sent while it may send and its regulator admits them (R270, R410, R414, R415). -/
def State.sendLoop : Nat → State → Nat → State
  | 0, s, _ => s
  | fuel + 1, s, f =>
    let x := s.flow f
    match x.queue with
    | [] => s
    | k :: rest =>
      match s.pickSub f none with
      | none => s
      | some via =>
        if !s.maySend f then s
        else
          let p := s.pays (s.frameDue f via k.kind k.data.length k.cid)
          if !p.2 then p.1
          else
          let k := { k with psn := x.psn, sends := 1, sentAt := s.time, txseq := x.txseq, via := via }
          let s := p.1.transmit f (k.die.getD via.1) via k.kind k.flags k.psn k.opid k.fields k.data
          State.sendLoop fuel (s.updFlow f (fun x => { x with psn := x.psn + 1, queue := rest, sent := x.sent ++ [k], advance := if x.sent.isEmpty then s.time else x.advance })) f

/-- Waiting packets of a flow sent. -/
def State.sendFlow (s : State) (f : Nat) : State := State.sendLoop (s.flow f).queue.length s f

/-- Waiting packets of every flow sent. -/
def State.sendAll (s : State) : State := (s.fab.flows.map (·.1)).foldl (fun s f => s.sendFlow f) s

/-- Packets added to a flow's queue. -/
def State.enqueue (s : State) (f : Nat) (ks : List TxPkt) : State := s.updFlow f (fun x => { x with queue := x.queue ++ ks })

/-! ## Acknowledging (R411, R416) -/

/-- Flows that sent a packet in the last 100 µs. -/
def State.activeFlows (s : State) : Nat :=
  (s.fab.flows.filter (fun e => match e.2.active with | some t => decide (s.time ≤ t + 100000) | none => false)).length

/-- RWIN that an ACK of flow `f` grants. -/
def State.grantOf (s : State) (f : Nat) : Nat :=
  if !s.serving (s.flowPart f) then 0
  else min 512 (max 1 (0x8000000 / (max 1 s.activeFlows * max 1 (s.maxPayload f))))

/-- An ACK sent once its regulator admits it (Table 18.5): CUM_PSN, RWIN, SACK, ECHO. Credit once granted is never withdrawn. -/
def State.ackNow (s : State) (f : Nat) : State :=
  let x := s.flow f
  let lim := max x.limit (x.rcum + s.grantOf f)
  let sack := (upto 256).foldl (fun n i => if x.rgot.contains (x.rcum + i) then n + 2 ^ i else n) 0
  let said (s : State) : State := s.updFlow f (fun x => { x with limit := lim, granted := lim - x.rcum, owed := 0, ece := false, ackDue := false })
  match s.pickSub f none with
  | none => said s
  | some via =>
    let p := s.pays (s.frameDue f via 6 0 none)
    if !p.2 then p.1.updFlow f (fun x => { x with ackDue := true })
    else (said p.1).transmit f via.1 via 6 (b2n x.ece) 0 0 [(x.rcum + 2 ^ 32 - 1) % 2 ^ 32, lim - x.rcum, sack, x.echo] []

/-- Partition `p` has entered SERVING: the RWIN that its open flows would grant rises from 0, and each sends an ACK (R411, R416). -/
def State.ackFlows (s : State) (p : Nat) : State :=
  ((s.fab.flows.map (·.1)).filter (fun f => (s.flow f).st == 1 && s.flowPart f == p)).foldl (fun s f => s.ackNow f) s

/-! ## Operations (R421-R423) -/

/-- The member flows of an operation: every flow but the device's own entry of a group. -/
def QOp.uses (o : QOp) : List Nat :=
  if o.group.isSome then ((o.flows.zipIdx).filter (fun f => f.2 != o.my)).map (·.1) else o.flows

/-- An operation failed (R423): a lookup's get fails its pass with REMOTE_LOOKUP_FAILED (R212), any other its launch; a count update that
fails is dropped. -/
def State.opFails (s : State) (o : QOp) (status detail : Nat) : State :=
  if o.kind = 9 then { s with fab := { s.fab with ops := s.fab.ops.filter (fun x => x.id != o.id) } }
  else if o.kind = 8 then
    let p := (s.cmd o.cid).part
    let s := s.blot { cls := 0x0409, part := p, cmd := some (cmdName o.cid), src := ⟨3, o.task⟩,
                      detail := [(o.dtype, 2), (o.my, 2), (nth o.flows 0 0, 2)] } (ringsGP p)
    s.endCmd o.cid 3 6 [] false
  else s.endCmd o.cid status detail [] true

/-- Every operation that uses flow `f` failed. -/
def State.flowOpsFail (s : State) (f : Nat) : State :=
  (s.fab.ops.filter (fun o => o.uses.contains f)).foldl (fun s o =>
    if s.fab.ops.any (fun x => x.id == o.id) then s.opFails o 3 7 else s) s

/-- Flow `f` leaves OPEN for state `st`: its packets are gone, its credits return, its operations fail (R409, R412, R419). -/
def State.flowDown (s : State) (f st : Nat) : State :=
  (s.updFlow f (fun x => { x with st := st, queue := [], sent := [] })).flowOpsFail f

/-- Flow `f` fails (R412): cause 0 twelve sends, 1 no progress. -/
def State.flowFails (s : State) (f cause : Nat) : State :=
  let p := s.flowPart f
  let s := s.blot { cls := 0x0603, part := some p, src := ⟨7, ((bitList 8 (s.portMask f)).head?).getD 0⟩,
                    detail := [(f, 2), (cause, 1), (s.peerDev f, 2)] } (ringsGP (some p))
  s.flowDown f 2

/-- A sent packet taken as lost and sent again (R412): with a new TXSEQ, through another sub-port, once its regulator admits it (R270); the twelfth send was the last.
`counts` is false after NOT_READY (Table 18.8). -/
def State.resend (s : State) (f psn : Nat) (counts : Bool) : State :=
  match (s.flow f).sent.find? (fun k => k.psn == psn) with
  | none => s
  | some k =>
    if counts && 12 ≤ k.sends then s.flowFails f 0
    else match s.pickSub f (some k.via) with
      | none => s
      | some via =>
        let x := s.flow f
        let p := s.pays (s.frameDue f via k.kind k.data.length k.cid)
        if !p.2 then p.1.updFlow f (fun y => { y with sent := y.sent.map (fun z => if z.psn = psn then { z with again := some counts } else z) })
        else
        let s := p.1.transmit f (k.die.getD via.1) via k.kind k.flags k.psn k.opid k.fields k.data
        s.updFlow f (fun y => { y with
          retx := satAdd 64 y.retx (b2n counts)
          sent := y.sent.map (fun z => if z.psn = psn then
            { z with sends := z.sends + b2n counts, sentAt := s.time, txseq := x.txseq, via := via, refused := none, again := none } else z) })

/-- Whether packets of an operation are still unacknowledged. -/
def State.opBusy (s : State) (id : Nat) : Bool :=
  s.fab.flows.any (fun e => e.2.queue.any (fun k => k.op == id) || e.2.sent.any (fun k => k.op == id))

/-- A Quill packet of command `cid` is on the wire: its completion fence waits for it (R423). -/
def State.quillPending (s : State) (cid : Nat) : Bool :=
  s.fab.flows.any (fun e => e.2.sent.any (fun k => k.cid == some cid))

/-! ## Packets of an operation -/

/-- The die that sends an operation's packets: its task's, or its engine's for a lookup (log entry 197). -/
def QOp.die (o : QOp) : Nat := if o.kind = 8 || o.kind = 9 then o.task / 2 else dieOfTile o.tile

/-- Pieces of `n` bytes of at most `m`: offset and length. -/
def cuts (m n : Nat) : List (Nat × Nat) := (upto ((n + m - 1) / m)).map (fun i => (i * m, min m (n - i * m)))

/-- The extension of Table 18.4: ADDR, COUNT, OP_OFFSET, GROUP, STEP, INFO, COLL_SEQ. -/
def opExt (addr count off group step info seq : Nat) : List Nat := [addr, count, off, group, step, info, seq]

/-- The packets of type `kind` that carry `data` of an operation, from offset `base` of what it moves; GROUP and COLL_SEQ are a collective's
(Table 18.4). -/
def dataPkts (kind : Nat) (o : QOp) (maxp base : Nat) (data : List Nat) (addr : Nat → Nat) (step info : Nat) : List TxPkt :=
  let cs := cuts maxp data.length
  (cs.zipIdx).map (fun c =>
    { kind := kind, opid := o.id, op := o.id, cid := some o.cid, die := some o.die, flags := 4 * b2n o.fence + (if c.2 + 1 = cs.length then 8 else 0), off := base + c.1.1,
      fields := opExt (addr (base + c.1.1)) c.1.2 (base + c.1.1) (if kind = 5 then o.group.getD 0 else 0) step info (if kind = 5 then o.seq else 0),
      data := (data.drop c.1.1).take c.1.2 })

/-- The GET_REQ packets of an operation: at most 16 MiB each. -/
def getPkts (o : QOp) : List TxPkt :=
  let cs := cuts 16777216 o.len
  (cs.zipIdx).map (fun c =>
    { kind := 2, opid := o.id, op := o.id, cid := some o.cid, die := some o.die, flags := 4 * b2n o.fence + (if c.2 + 1 = cs.length then 8 else 0), off := c.1.1,
      fields := opExt (o.rem + c.1.1) c.1.2 c.1.1 0 0 0 0 })

/-- A new operation: its number, and the state with it. -/
def State.addOp (s : State) (o : QOp) : State × QOp :=
  let o := { o with id := s.fab.nextOp }
  ({ s with fab := { s.fab with ops := s.fab.ops ++ [o], nextOp := s.fab.nextOp + 1 } }, o)

/-- An operation changed. -/
def State.updOp (s : State) (id : Nat) (f : QOp → QOp) : State :=
  { s with fab := { s.fab with ops := s.fab.ops.map (fun o => if o.id = id then f o else o) } }

/-- A get of a lookup (R212) by engine `eng`: table and rank name it where it fails. -/
def State.lookupGet (s : State) (cid eng table rank flow addr len : Nat) : State × Nat :=
  let r := s.addOp { id := 0, kind := 8, cid := cid, task := eng, dtype := table, my := rank, flows := [flow], rem := addr, len := len,
                     data := List.replicate len 0 }
  if (s.flow flow).st = 1 then (((r.1.enqueue flow (getPkts r.2)).sendFlow flow), r.2.id)
  else (r.1.opFails r.2 3 6, r.2.id)

/-- The TYPE with which an ATOMIC names a UINT16 count, to which Table 10.8 gives no code (log entry 37). -/
def countType : Nat := 7

/-- A remote count update of a lookup (R212): one remote add of 1. -/
def State.lookupCount (s : State) (cid eng table rank flow addr : Nat) : State :=
  if (s.flow flow).st != 1 then s
  else
    let r := s.addOp { id := 0, kind := 9, cid := cid, task := eng, dtype := table, my := rank, flows := [flow], rem := addr, len := 2 }
    (r.1.enqueue flow (dataPkts 4 r.2 64 0 (natBytes 2 1) (fun _ => addr) 0 countType)).sendFlow flow

/-! ## Violations (R418, R419) -/

/-- A NAK once its regulator admits it, unless the limits withhold it. -/
def State.sendNak (s : State) (f psn reason echo : Nat) : State :=
  let x := s.flow f
  let recent := s.fab.naks.filter (fun t => s.time < t + 1000000000)
  let ok := (match x.nakAt with | some t => decide (t + 10000 ≤ s.time) | none => true) && decide (recent.length < 100000)
  match s.pickSub f none with
  | none => s
  | some via =>
    if ok then
      let p := s.pays (s.frameDue f via 7 0 none)
      if !p.2 then p.1.updFlow f (fun x => { x with nakDue := if x.nakDue.contains (psn, reason, echo) then x.nakDue else x.nakDue ++ [(psn, reason, echo)] })
      else
      let s := p.1.transmit f via.1 via 7 0 0 0 [psn % 2 ^ 32, reason, echo] []
      let s := s.updFlow f (fun x => { x with nakAt := some s.time })
      { s with fab := { s.fab with naks := recent ++ [s.time] } }.bump 0x400020 32 1
    else s.bump 0x400024 32 1

/-- What waits for a flow's regulators sent as far as they admit it now: its ACK, its NAKs, its retransmissions (R270). -/
def State.flowDue (s : State) (f : Nat) : State :=
  let x := s.flow f
  if x.st != 1 then s
  else
    let s := if x.ackDue then s.ackNow f else s
    let s := x.nakDue.foldl (fun s n => s.sendNak f n.1 n.2.1 n.2.2) (s.updFlow f (fun x => { x with nakDue := [] }))
    (x.sent.filter (fun k => k.again.isSome)).foldl (fun s k => s.resend f k.psn (k.again.getD true)) s

/-- What waits for regulators on every flow. -/
def State.flowsDue (s : State) : State := (s.fab.flows.map (·.1)).foldl (fun s f => s.flowDue f) s

/-- A violation of flow `f`: counted, reported at most once a millisecond, and the flow quarantined at the sixteenth within one. -/
def State.violation (s : State) (f reason : Nat) : State :=
  let p := s.flowPart f
  let port := ((bitList 8 (s.portMask f)).head?).getD 0
  let now := s.time
  let s := s.updFlow f (fun x => { x with viol := satAdd 32 x.viol 1, unreported := x.unreported + 1,
                                          viols := (x.viols.filter (fun t => now < t + 1000000)) ++ [now] })
  let x := s.flow f
  let due := match x.blotAt with | some t => decide (t + 1000000 ≤ now) | none => true
  let s := if due then
      (s.blot { cls := 0x0604, part := some p, src := ⟨7, port⟩, detail := [(f, 2), (x.unreported, 4), (reason, 1)] } (ringsP (some p))).updFlow f
        (fun x => { x with unreported := 0, blotAt := some now })
    else s
  if 16 ≤ x.viols.length then
    let s := s.bump 0x400028 32 1
    let s := s.blot { cls := 0x0605, part := some p, src := ⟨7, port⟩, detail := [(f, 2), (s.peerDev f, 2)] } (ringsGP (some p))
    s.flowDown f 3
  else s

end Sys2Proof.Machine
end

