-- ==== Sys2Proof/Machine/Queue.lean ====
section
/-!
DEFINITION. Queues and command submission (16): doorbells, entries and stamps, the forms of commands, handles, the
administration queue's own commands.
-/
namespace Sys2Proof.Machine

/-! ## Doorbells and released records -/

/-- Ring size 2ⁿ of a queue. -/
def Queue.size (q : Queue) : Nat := 2 ^ q.log2

/-- The slots up to `tail` made pending; a PARKED queue fetches again (R348, R350). -/
def State.ring1 (s : State) (q tail : Nat) : State :=
  let x := s.queue q
  let up := x.j + (tail + x.size - x.j % x.size) % x.size
  s.updQueue q (fun x => { x with pend := max x.pend up, st := 1 })

/-- Whether queue `q` takes a doorbell of `tail` (R348). -/
def State.doorbellOk (s : State) (q tail : Nat) : Bool :=
  let x := s.queue q
  (x.st == 1 || x.st == 2) && decide (tail < x.size)

/-- DOORBELL: a host write to QDB_q_SQ_TAIL (R348). -/
def execDoorbell (port queue value : Nat) (s : State) : Host.Outcome State Fault Refusal :=
  run (Instr.wf (.doorbell port queue value)) s (fun s =>
    let tail := value % 65536
    if s.stage == 15 then s
    else if s.doorbellOk queue tail then (s.setReg (qdbBase queue) tail).ring1 queue tail
    else
      let s1 := s.bump (qdbBase queue + 0x1C) 32 1
      if (s.queue queue).st != 0 && (s.queue queue).size ≤ tail then s1.barError port (qdbBase queue) 4 (trunc 32 value) else s1)

/-- DEVICE_DOORBELL: the write of a task on tile `t` to a device queue's doorbell (R361, R362); a shadow's rings nothing (R467). -/
def execDeviceDoorbell (queue tail t : Nat) (s : State) : Host.Outcome State Fault Refusal :=
  run (Instr.wf (.deviceDoorbell queue tail t)) s (fun s =>
    let x := s.queue queue
    match s.tileCmd t with
    | none => s
    | some cid =>
      let c := s.cmd cid
      if !x.device || c.part != x.part || s.tileShadow t then s
      else if s.doorbellOk queue (tail % 65536) then
        let s := (s.setReg (qdbBase queue) (tail % 65536)).ring1 queue (tail % 65536)
        s.updQueue queue (fun x => { x with rung := x.rung ++ [(x.pend, cid, c.depth, c.client)] })
      else s.bump (qdbBase queue + 0x1C) 32 1)

/-- CQ_HEAD_WRITE: records released; releasing more than were written is a reserved encoding (R345). -/
def execCqHeadWrite (port queue value : Nat) (s : State) : Host.Outcome State Fault Refusal :=
  run (Instr.wf (.cqHeadWrite port queue value)) s (fun s =>
    let x := s.queue queue
    let old := s.field (qdbBase queue + 8) 15 0
    let n := (value % 65536 + x.size - old % x.size) % x.size
    if s.stage == 15 then s
    else if x.k - x.released < n then s.barError port (qdbBase queue + 8) 4 (trunc 32 value)
    else (s.setReg (qdbBase queue + 8) (value % 65536)).updQueue queue (fun x => { x with released := x.released + n }))

/-! ## Entries as commands (R346, R347, R351-R358) -/

/-- Whether an entry is current for index `j` (R347). -/
def entryCurrent (q : Queue) (e : List Nat) : Bool :=
  let sq := fieldOf e 56 4
  e.length == 64 && bits sq 22 0 == q.j % 2 ^ 23 && bit sq 23 == (q.j / q.size % 2 == 0) && bits sq 31 24 == 0
  && fieldOf e 60 2 == 0 && fieldOf e 62 2 == crc16 ((e.take 62).map (BitVec.ofNat 8))

/-- Further entries a LAUNCH of CB_WORDS `w` takes (R353). -/
def extraEntries (w : Nat) : Nat := (8 * w - 32 + 55) / 56

/-- Entries the command whose first entry is `e` takes. -/
def entriesOf (e : List Nat) : Nat := if fieldOf e 0 1 = 1 then 1 + extraEntries (fieldOf e 2 1) else 1

/-- Whether bytes [lo, hi) of an entry are zero. -/
def zeroBytes (e : List Nat) (lo hi : Nat) : Bool := ((e.drop lo).take (hi - lo)).all (· % 256 == 0)

/-- The reserved fields of an entry by opcode are zero (R351-R354, R368, R369). -/
def entryReserved (e : List Nat) : Bool :=
  match fieldOf e 0 1 with
  | 1 => zeroBytes e 3 4 && zeroBytes e 12 16
  | 2 | 3 | 4 | 5 => zeroBytes e 2 4 && zeroBytes e 16 56
  | 6 => zeroBytes e 2 56
  | 0x40 => bits (fieldOf e 2 2) 15 12 == 0 && zeroBytes e 5 6 && zeroBytes e 40 56
  | 0x41 => bits (fieldOf e 2 2) 15 12 == 0 && zeroBytes e 4 56
  | 0x42 => fieldOf e 2 1 < 16 && fieldOf e 3 1 < 64 && zeroBytes e 4 56
  | 0x43 => fieldOf e 2 1 < 16 && zeroBytes e 3 56
  | 0x44 | 0x48 => zeroBytes e 2 56
  | 0x45 | 0x47 => zeroBytes e 2 8 && zeroBytes e 24 56
  | 0x46 => zeroBytes e 2 8 && fieldOf e 24 4 < 2 && zeroBytes e 32 56
  | _ => false

/-- The flags an opcode allows (Table 16.4, Table 16.12). -/
def flagsAllowed (op : Nat) : Nat := if op = 1 then 7 else if op < 0x40 then 3 else if op = 0x40 then 0x82 else 2

/-- The check of R351 on an entry of queue `q`: the DETAIL of its INVALID_CMD, or none. -/
def entryCheck (q : Nat) (e : List Nat) : Option Nat :=
  let op := fieldOf e 0 1
  let work := 1 ≤ op && op ≤ 6
  let adm := 0x40 ≤ op && op ≤ 0x48
  if !work && !adm then some 1
  else if (work && q == 0) || (adm && q != 0) then some 2
  else if fieldOf e 1 1 &&& (255 - flagsAllowed op) != 0 then some 1
  else if !entryReserved e then some 1
  else if op == 1 && 32 < fieldOf e 2 1 then some 5
  else none

/-- The session list entries of a LAUNCH entry (Table 16.5). -/
def sessionList (e : List Nat) : List Nat := (upto 4).map (fun i => fieldOf e (16 + 2 * i) 2)

/-- The constant buffer of a launch as 8-byte words, zero from L upward (R353). -/
def constWords (es : List (List Nat)) : List Nat :=
  match es with
  | [] => []
  | e :: more =>
    let w := fieldOf e 2 1
    let bytes := ((e.drop 24).take 32 ++ (more.map (fun x => x.take 56)).flatten).take (8 * w)
    (upto 32).map (fun i => fieldOf bytes (8 * i) 8)

/-- Relocation of a launch's constant buffer (R358): the words, or the STATUS and DETAIL it fails with. -/
def State.relocate (s : State) (p : Nat) (e : List Nat) (ws : List Nat) : List Nat × Option (Nat × Nat) :=
  let hrel := fieldOf e 8 4
  let n := fieldOf e 2 1
  let keys := ((sessionList e).filter (· != 0)).map (fun x => bits x 4 0)
  let marked := bitList 32 hrel
  let bad := marked.any (fun w => n ≤ w || keys.contains w ||
    s.stray p (nth ws w 0 % 2 ^ 32) || (match s.handle p (nth ws w 0 % 2 ^ 32) with | some h => h.2.1 ≤ nth ws w 0 / 2 ^ 32 | none => false))
  let stale := marked.any (fun w => (s.handle p (nth ws w 0 % 2 ^ 32)).isNone)
  let out := (ws.zipIdx).map (fun x =>
    if bit hrel x.2 then (match s.handle p (x.1 % 2 ^ 32) with | some h => (h.1 + x.1 / 2 ^ 32) % 2 ^ 64 | none => x.1) else x.1)
  if bad then (ws, some (8, 5)) else if stale then (ws, some (9, 0)) else (out, none)

/-- The parent of the entry with index `i` of a device queue (R362): command, depth, client. -/
def Queue.parentOf (q : Queue) (i : Nat) : Option (Nat × Nat × Nat) :=
  if q.device then (q.rung.find? (fun r => i < r.1)).map (·.2) else none

/-- Where the image of a launch of model `m` of partition `p` lies (R58): its device address and bytes. It has no bytes where the handle names
none, or one that is not wholly within its segment (R264). -/
def State.imageOf (s : State) (p m : Nat) : Nat × Nat :=
  match cfgModel s.folio.active p m with
  | some r => if s.stray p (r.f 8 4) then (0, 0) else (match s.handle p (r.f 8 4) with | some h => (h.1, h.2.1) | none => (0, 0))
  | none => (0, 0)

/-- The handle of the model's image does not resolve. -/
def State.imageStale (s : State) (p m : Nat) : Bool :=
  match cfgModel s.folio.active p m with | some r => (s.handle p (r.f 8 4)).isNone | none => false

/-- A whole command taken from queue `q` (R351-R362): fetched, checked and relocated, or at once completed with the status
its check gives. `es` lists its entries with the times of their checks. A launch keeps the place of its image as its fetch resolves it
(R265); one with no image to be found keeps none. -/
def State.newCmd (s : State) (q : Nat) (first : Nat) (es : List (Nat × List Nat)) : State :=
  let x := s.queue q
  let e := ((es.map (·.2)).head?).getD []
  let cid := cidOf q (first % 2 ^ 23)
  let par := x.parentOf first
  let depth := match par with | some (_, d, _) => d + 1 | none => 0
  let kid := match par with | some (c, _, _) => Tbl.get 0 s.sched.kids c + 1 | none => 0
  let s := match par with
    | some (c, _, _) => { s with sched := { s.sched with kids := Tbl.set 0 s.sched.kids c kid } }
    | none => s
  let raw := constWords (es.map (·.2))
  let op := fieldOf e 0 1
  let check : Option (Nat × Nat) :=
    match entryCheck q e with
    | some d => some (8, d)
    | none => if 17 ≤ kid then some (8, 3) else if 8 < depth then some (8, 4) else none
  let rel := if op = 1 && check.isNone then s.relocate (x.part.getD 0) e raw else (raw, none)
  let s := { s with sched := { s.sched with kids := Tbl.set 0 s.sched.kids cid 0 } }
  let s := s.setCmd cid
    { st := .fetched, queue := q, seq := first % 2 ^ 23, part := x.part, client := (par.map (fun r => r.2.2)).getD x.client,
      prio := x.prio, opcode := op, flags := fieldOf e 1 1, entry := e.take 56, cb := rel.1, rawCb := raw,
      model := fieldOf e 4 4, checked := ((es.map (·.1)).getLast?).getD s.time, depth := depth, parent := par.map (·.1),
      img := if op = 1 then s.imageOf (x.part.getD 0) (fieldOf e 4 4) else (0, 0),
      stale := op == 1 && s.imageStale (x.part.getD 0) (fieldOf e 4 4) }
  match check.or rel.2 with
  | some c => s.finish cid c.1 c.2
  | none => s

/-- Commands of a queue fetched and not started (R360). -/
def State.prefetched (s : State) (q : Nat) : Nat := ((s.queueCmds q).filter (fun c => (s.cmd c).st == .fetched)).length

/-- Whether the front end fetches the next entry of `q` (R344, R345, R360, R366, R367). A shutdown stops every queue; from
FLUSHING on the administration queue is fetched again, for its commands fail (R448). -/
def State.fetches (s : State) (q : Nat) : Bool :=
  let x := s.queue q
  let ph := s.field 0x800014 2 0
  x.st == 1 && decide (x.j < x.pend) && (ph == 0 || (q == 0 && 2 ≤ ph && ph ≤ 4))
  && (match x.part with | none => q == 0 && bit (s.reg 0x110) 0 | some p => s.serving p && (s.homeDie p).isSome)
  && (!x.entries.isEmpty || (decide (s.prefetched q < 4) && decide ((s.queueCmds q).length + (x.k - x.released) < x.size)))

/-- A current entry taken: the command it completes is made (R347, R353). -/
def State.takeEntry (s : State) (q : Nat) (e : List Nat) : State :=
  let x := s.queue q
  let es := x.entries ++ [(s.time, e)]
  let need := entriesOf (((es.map (·.2)).head?).getD [])
  let s := s.updQueue q (fun x => { x with j := x.j + 1, rereads := 0, retrying := false, entries := if need ≤ es.length then [] else es })
  if need ≤ es.length then s.newCmd q (x.j + 1 - es.length) es else s

/-- What a fetch of the slot that queue `q` expects finds: for a device queue the device's own memory (R361). -/
def State.slotData (s : State) (q : Nat) (data : Option (List Nat)) : List Nat :=
  let x := s.queue q
  if x.device then
    let a := x.sq + 64 * (x.j % x.size)
    match s.phys a with
    | some ph => if (s.sector ph).poison || s.pageRetired ph then [] else s.readMem ph 64
    | none => []
  else data.getD []

/-- ENTRY_FETCH: the slot's entry is current, or stale and read again (R347, R349). -/
def execEntryFetch (queue : Nat) (data : Option (List Nat)) (s : State) : Host.Outcome State Fault Refusal :=
  run (Instr.wf (.entryFetch queue data)) s (fun s =>
    if !s.fetches queue || (s.queue queue).retrying then s
    else
      let e := s.slotData queue data
      if entryCurrent (s.queue queue) e then s.takeEntry queue e
      else s.updQueue queue (fun x => { x with retrying := true, rereads := 0 }))

/-- STALE_REREAD: a timed re-read; the fourth stale one parks the queue (R349). -/
def execStaleReread (queue : Nat) (data : Option (List Nat)) (s : State) : Host.Outcome State Fault Refusal :=
  run (Instr.wf (.staleReread queue data)) s (fun s =>
    let x := s.queue queue
    if !s.fetches queue || !x.retrying then s
    else
      let e := s.slotData queue data
      if entryCurrent x e then s.takeEntry queue e
      else if x.rereads + 1 < 4 then s.updQueue queue (fun x => { x with rereads := x.rereads + 1 })
      else
        let s := s.updQueue queue (fun x => { x with st := 2, retrying := false, rereads := 0 })
        let s := s.bump (qdbBase queue + 0x20) 32 1
        s.blot { cls := 0x0505, part := x.part, cmd := some (queue, x.j % 2 ^ 23),
                 src := ⟨8, (x.part.bind (fun p => s.homeDie p)).getD s.leadDie⟩,
                 detail := [(x.j % x.size, 2), (x.j % 2 ^ 23 + b2n (x.j / x.size % 2 == 0) * 2 ^ 23, 4), (fieldOf e 56 4, 4)] } (ringsP x.part))

/-! ## Starting commands -/

/-- Partition `p` starts the commands its front end holds: SERVING, or draining (R62, R66). -/
def State.starts (s : State) (p : Nat) : Bool :=
  s.serving p || (s.partState p == 2 && (match s.folio.op with | some o => o.part == p && o.op == 2 && o.mode == 0 | none => false))

/-- Whether `cid` is earlier in its queue than `c` (R346). -/
def State.earlier (s : State) (a b : Nat) : Bool :=
  let x := s.queue (s.cmd b).queue
  let back (c : Nat) := (x.j + 2 ^ 23 - (s.cmd c).seq) % 2 ^ 23
  back b < back a

/-- The command of queue `q` that starts next: the oldest fetched one that BARRIER allows (R351, R360). -/
def State.nextCmd (s : State) (q : Nat) : Option Nat :=
  let cs := s.queueCmds q
  let ok := cs.filter (fun c => (s.cmd c).st == .fetched && (!bit (s.cmd c).flags 0 || !(cs.any (fun d => d != c && s.earlier d c))))
  ok.foldl (fun m c => match m with | none => some c | some d => if s.earlier c d then some c else some d) none

/-- The command with opcode `op` that queue `q` starts next. -/
def State.startable (s : State) (q op : Nat) : Option Nat :=
  match (s.queue q).part with
  | none => none
  | some p =>
    if s.starts p then
      match s.nextCmd q with | some c => if (s.cmd c).opcode = op then some c else none | none => none
    else none

/-- NOP: completes with OK once BARRIER allows it (R354). -/
def execNop (queue : Nat) (s : State) : Host.Outcome State Fault Refusal :=
  run (Instr.wf (.nop queue)) s (fun s =>
    match s.startable queue 6 with | some c => s.finish c 0 0 | none => s)

/-- Bridges between two dies on the route of R22. -/
def hops (a b : Nat) : Nat := (a % 4 - b % 4) + (b % 4 - a % 4) + (a / 4 - b / 4) + (b / 4 - a / 4)

/-- The save bound of Table 17.3 in units of 1/11 ns, with H from the save segment's die to the partition's farthest tile
(log entry 21); none when the image records no STACK budget there. -/
def State.saveBound (s : State) (p : Nat) (h : Hdr) (budgets : List (Nat × Nat)) : Option Nat :=
  match s.saveSeg p with
  | none => some 0
  | some g =>
    let die := g.f 7 1
    match budgets.find? (fun b => b.1 == die && b.2 != 0) with
    | none => none
    | some b =>
      let far := ((s.partTiles p).map (fun t => hops die (dieOfTile t))).foldl max 0
      some (11 * (1150 + 1000 * ((h.tiles * h.saveMax + b.2 - 1) / b.2)) + 10 * (34 + 8 * far))

/-- The scheduling header at an address (Table 17.1) with its reserved fields, nonzero if any is set. -/
def hdrOf (l : List Nat) : Hdr × Nat :=
  ({ tiles := fieldOf l 0 1, flags := fieldOf l 1 1, preNs := fieldOf l 4 4, wcetNs := fieldOf l 8 4, semMask := fieldOf l 12 4,
     saveMax := fieldOf l 16 4, yieldNs := fieldOf l 20 4 },
   fieldOf l 1 1 / 4 + fieldOf l 2 2 + fieldOf l 24 8)

/-- The bytes of the two largest consecutive layers of an image (R267). -/
def twoLayers (ls : List (Nat × Nat)) : Nat :=
  ((ls.zip (ls.drop 1)).map (fun x => x.1.2 + x.2.2)).foldl max ((ls.map (·.2)).foldl max 0)

/-- The checks of R378, R393, R267 and R185 on a launch's image: the DETAIL of its INVALID_CMD, or none. -/
def State.imageCheck (s : State) (p : Nat) (c : Cmd) (m : Rec) (h : Hdr × Nat) (marksOk : Bool) (budgets : List (Nat × Nat)) (lays : List (Nat × Nat)) :
    Option Nat :=
  let np := 1000 * (match cfgPart s.folio.active p with | some r => r.f 12 2 | none => 0)
  if h.2 != 0 || !marksOk || h.1.tiles = 0 || 16 < h.1.tiles || (s.partTiles p).length < h.1.tiles || 2097152 < h.1.saveMax
     || h.1.yieldNs = 0 || 50000 < h.1.yieldNs || (c.nonpreempt && (h.1.wcetNs = 0 || np < h.1.preNs + h.1.wcetNs))
     || (m.f 5 1 = 1 && 10485760 < m.f 12 4) || (m.f 5 1 = 0 && m.f 12 4 < twoLayers lays) then some 7
  else if (match s.saveBound p h.1 budgets with | some b => decide (165000 < b) | none => true) then some 7
  else if budgets.any (fun b => match cfgReg s.folio.active p b.1 with | some r => decide (r.f 4 4 < b.2) | none => b.2 != 0) then some 6
  else none

/-- The check of a launch's session list (R239, R251): the DETAIL of its INVALID_CMD, or none. -/
def State.sessionCheck (s : State) (c : Cmd) : Option Nat :=
  let es := (sessionList c.entry).filter (· != 0)
  if es.isEmpty then none
  else if !s.saffronOn || es.any (fun e => bits e 15 10 != 0 || bits e 7 5 != 0) then some 1
  else if es.any (fun e => fieldOf c.entry 2 1 ≤ bits e 4 0) then some 5
  else if es.any (fun e => nth c.cb (bits e 4 0) 0 == 0) then some 1
  else none

/-- LAUNCH: a launch is taken with its image's header, marks and budgets checked, and made ready (R352, R378, R380).
`marksOk` says that its marks pass R378; `posts` lists the post rings of
its tasks and `lookup` is the address of its lookup request, as its image gives them. -/
def execLaunch (queue : Nat) (marksOk : Bool) (budgets : List (Nat × Nat)) (posts : List (Nat × Nat × Nat)) (lookup : Option Nat)
    (s : State) : Host.Outcome State Fault Refusal :=
  run (Instr.wf (.launch queue marksOk budgets posts lookup)) s (fun s =>
    match s.startable queue 1 with
    | none => s
    | some cid =>
      let c := s.cmd cid
      let p := c.part.getD 0
      match cfgModel s.folio.active p c.model with
      | none => s.finish cid 8 7
      | some m =>
        if c.stale then s.finish cid 9 0
        else if c.img.2 = 0 then s.finish cid 8 7
        else
          let img := s.readDP c.img.1 c.img.2
          let bad := Config.sha384 img != fieldOf m.data 16 48
          let s := if bad then s.updModel p c.model (fun x => { x with bad := true }) else s.updModel p c.model (fun x => { x with bad := false })
          let h := hdrOf img
          if bad then s.finish cid 8 7
          else match (s.imageCheck p c m h marksOk budgets (layersOf img)).or (s.sessionCheck c) with
            | some d => s.finish cid 8 d
            | none =>
              let s := s.setCmd cid { c with st := .ready, hdr := h.1, lays := layersOf img, budgets := budgets, posts := posts, order := s.sched.order,
                                             lookup := lookup, look := lookup.isNone, sess := (sessionList c.entry).all (· == 0) }
              { s with sched := { s.sched with order := s.sched.order + 1 } }.place p)

/-! ## The administration queue (R367-R370) -/

/-- The administration command with opcode `op` that is next: one at a time, in ring order (R368). A folio operation behind one that runs
therefore waits for its end (log entry 207). -/
def State.admin (s : State) (op : Nat) : Option Nat :=
  match (s.queueCmds 0).foldl (fun m c => match m with | none => some c | some d => if s.earlier c d then some c else some d) none with
  | some c => if (s.cmd c).opcode = op && (s.cmd c).st == .fetched then some c else none
  | none => none

/-- Whether administration commands other than FOLIO_LOAD are accepted now: a folio serves or none was loaded, the start has
reached STAGE 6, and no shutdown is FLUSHING or beyond (R72, R441, R448). -/
def State.adminOpen (s : State) (op : Nat) : Bool :=
  s.stage == 6 && (s.pkgState != 3 || op == 0x45) && decide (s.field 0x800014 2 0 < 2)

/-- An administration command run: refused with INVALID_CMD, DETAIL 8, while it is not accepted. -/
def State.runAdmin (s : State) (op : Nat) (f : Nat → State → State) : State :=
  match s.admin op with
  | none => s
  | some c => if s.adminOpen op then f c s else s.finish c 8 (8 + 256 * s.field 0x20000 23 16)

/-- An administration command that succeeds or fails with DETAIL 1. -/
def State.adminEnd (s : State) (c : Nat) (ok : Bool) : State := if ok then s.finish c 0 0 else s.finish c 8 1

/-- The context of 80 bytes resolved for partition `p` (R324, R325): none where it breaks R324 or names a bound handle
segment (R357). The save segment's slots are disabled (R384). -/
def State.context (s : State) (p : Nat) (l : List Nat) : Option Ctx :=
  let w := fieldOf l 0 4
  let slot (i : Nat) := (fieldOf l (8 + 8 * i) 1, fieldOf l (9 + 8 * i) 1, fieldOf l (10 + 8 * i) 1, fieldOf l (11 + 8 * i) 5)
  let bad (i : Nat) : Bool :=
    let (sg, pm, en, rs) := slot i
    63 < sg || 3 < pm || 1 < en || rs != 0 ||
    (en == 1 && (match cfgSeg s.folio.active p sg with
      | none => true
      | some g => pm &&& (3 - bits (g.f 3 1) 1 0) != 0 || Tbl.get 0 s.sched.bound p == sg + 1))
  if l.length != 80 || bits w 31 22 != 0 || fieldOf l 4 4 != 0 || fieldOf l 72 8 != 0 || (bit w 21 && !bit w 20)
     || (upto 8).any bad then none
  else some { pasid := bits w 19 0, pasidEn := bit w 20, priEn := bit w 21,
              slots := (upto 8).map (fun i =>
                let (sg, pm, en, _) := slot i
                match cfgSeg s.folio.active p sg with
                | none => { en := false, seg := sg, perm := pm, base := 0, limit := 0, tier := 0, view := 0, lost := false }
                | some g => { en := en == 1, seg := sg, perm := pm, base := g.f 8 8, limit := g.f 16 8, tier := g.f 1 1, view := g.f 6 1,
                              lost := en == 1 && sg == 63 && (s.saveSeg p).isSome }) }

/-- CONTEXT_SLOT_LOST for every slot of queue `q` disabled now and not before (R325, R384). -/
def State.slotsLost (s : State) (q : Nat) (p : Nat) (before after : Ctx) : State :=
  (upto 8).foldl (fun s i =>
    match after.slots[i]?, (before.slots[i]?).map (·.lost) with
    | some b, was =>
      if b.lost && was != some true then
        s.blot { cls := 0x0207, part := some p, src := ⟨8, (s.homeDie p).getD 0⟩, detail := [(q, 2), (i, 1), (b.seg, 1)] } (ringsGP (some p))
      else s
    | none, _ => s) s

/-- A range of device memory in T1 that one slot of the context enables for read and write (R361). -/
def State.deviceRange (s : State) (x : Ctx) (a n : Nat) : Bool :=
  addrClass a == 0 && s.dpCheck x a n true true == 0 && (match s.phys a with | some ph => tierOf ph == 1 | none => false)

/-- QUEUE_CREATE (R369). `ctx` is what the front end reads at CTX_ADDR. -/
def execQueueCreate (ctx : Option (List Nat)) (s : State) : Host.Outcome State Fault Refusal :=
  run (Instr.wf (.queueCreate ctx)) s (fun s => s.runAdmin 0x40 (fun c s =>
    let e := (s.cmd c).entry
    let q := bits (fieldOf e 2 2) 11 0
    let n := fieldOf e 4 1
    let vec := fieldOf e 6 2
    let sq := fieldOf e 8 8
    let cq := fieldOf e 16 8
    let db := fieldOf e 32 8
    let dev := bit (fieldOf e 1 1) 7
    match cfgQueue s.folio.active q with
    | none => s.adminEnd c false
    | some r =>
      let p := r.part 2
      match cfgPart s.folio.active p, s.context p (ctx.getD []) with
      | some pr, some x =>
        let ringsOk := if dev then
            bit (pr.f 8 4) 1 && s.deviceRange x sq (64 * 2 ^ n) && s.deviceRange x cq (32 * 2 ^ n) && s.deviceRange x db 64 && aligned db 64
          else addrClass sq == 1 && addrClass cq == 1 && db == 0
        if (s.queue q).st != 0 || q = 0 || n < 6 || r.f 6 1 < n || !ringsOk || !aligned sq (64 * 2 ^ n) || !aligned cq (32 * 2 ^ n)
           || !(vec == 0xFFFF || (19 ≤ vec && vec ≤ 2047)) || !hvOk (fieldOf e 24 8) then s.adminEnd c false
        else
          let s := s.updQueue q (fun _ => { st := 1, log2 := n, sq := sq, cq := cq, ctx := x, vector := vec, device := dev, dbAddr := db, part := some p,
                                            client := bits (r.f 4 2) 11 0, prio := r.f 3 1, sliceUs := r.f 8 4 })
          let s := [0, 8, 0x18, 0x1C, 0x20, 0x28, 0x30, 0x38, 0x40, 0x48].foldl (fun s o => s.setReg (qdbBase q + o) 0) s
          (s.slotsLost q p {} x).adminEnd c true
      | _, _ => s.adminEnd c false))

/-- QUEUE_DESTROY: the queue drains, unstarted commands end ABORTED, running ones at their yield points (R370). -/
def execQueueDestroy (s : State) : Host.Outcome State Fault Refusal :=
  run (Instr.wf .queueDestroy) s (fun s => s.runAdmin 0x41 (fun c s =>
    let q := bits (fieldOf (s.cmd c).entry 2 2) 11 0
    if q = 0 || (s.queue q).st == 0 || (s.queue q).st == 4 then s.adminEnd c false
    else
      let s := s.updQueue q (fun x => { x with st := 4, entries := [], retrying := false, rereads := 0, discarded := 0, drainSeq := some c })
      let s := s.updCmd c (fun x => { x with st := .running })
      (s.queueCmds q).foldl (fun s d =>
        let x := s.cmd d
        if x.nonpreempt && (x.st == .placed || x.st == .running) then s
        else s.endCmd d 1 1 [] false) s))

/-- QUEUE_DRAIN_COMPLETE: the queue becomes UNCREATED and its QUEUE_DESTROY completes with the records discarded (R370). -/
def execQueueDrainComplete (queue : Nat) (s : State) : Host.Outcome State Fault Refusal :=
  run (Instr.wf (.queueDrainComplete queue)) s (fun s =>
    let x := s.queue queue
    if x.st != 4 || !(s.queueCmds queue).isEmpty then s
    else
      let s := s.updQueue queue (fun _ => {})
      match x.drainSeq with
      | some c => (s.updCmd c (fun y => { y with cause := y.cause.or (some (0, x.discarded % 65536)) })).toFence c
      | none => s)

/-- HTAB_BIND (R357). -/
def execHtabBind (s : State) : Host.Outcome State Fault Refusal :=
  run (Instr.wf .htabBind) s (fun s => s.runAdmin 0x42 (fun c s =>
    let e := (s.cmd c).entry
    let p := fieldOf e 2 1
    let sg := fieldOf e 3 1
    match cfgPart s.folio.active p, cfgSeg s.folio.active p sg with
    | some pr, some g =>
      let used := s.sched.queues.any (fun x => x.2.st != 0 && x.2.part == some p && x.2.ctx.slots.any (fun y => y.en && !y.lost && y.seg == sg))
      if g.f 1 1 != 1 || g.f 2 1 != 0 || g.f 16 8 + 1 - g.f 8 8 < 16 * pr.f 16 4 || used || Tbl.get 0 s.sched.bound p == sg + 1 then s.adminEnd c false
      else { s with sched := { s.sched with bound := Tbl.set 0 s.sched.bound p (sg + 1) } }.adminEnd c true
    | _, _ => s.adminEnd c false))

/-- HTAB_UNBIND: only while every queue of the partition is UNCREATED (Table 16.9). -/
def execHtabUnbind (s : State) : Host.Outcome State Fault Refusal :=
  run (Instr.wf .htabUnbind) s (fun s => s.runAdmin 0x43 (fun c s =>
    let p := fieldOf (s.cmd c).entry 2 1
    if s.sched.queues.any (fun x => x.2.st != 0 && x.2.part == some p) then s.adminEnd c false
    else { s with sched := { s.sched with bound := Tbl.set 0 s.sched.bound p 0 } }.adminEnd c true))

/-- A write of PART_HT_HI commits one handle entry, from PART_HT_LO and the HI value (R357). -/
def State.handleWrite (s : State) (port value : Nat) : State :=
  let p := s.field 0x20020 31 28
  let i := s.field 0x20020 23 0
  match s.handleBase p, cfgPart s.folio.active p with
  | some b, some r =>
    if i < r.f 16 4 then ((s.setReg 0x20030 value).devPut none (b + 16 * i) (natBytes 8 (s.reg 0x20028) ++ natBytes 8 value)).1
    else s.barError port 0x20030 8 value
  | _, _ => s.barError port 0x20030 8 value

/-- What HANDLE_COMMIT does once what it moves is admitted and the host has released what it writes. -/
def State.doHandleCommit (s : State) (port value : Nat) : State :=
  if s.regsOpen then (s.whole64 port 0x20030).handleWrite port value else s

/-- HANDLE_COMMIT: one 64-bit write of PART_HT_HI (R12, R357). -/
def execHandleCommit (port value : Nat) (s : State) : Host.Outcome State Fault Refusal :=
  runMem (Instr.wf (.handleCommit port value)) [] s (fun s => s.doHandleCommit port value)

/-- ADMQ_CTRL_WRITE: EN starts the queue with j = k = 0, or stops fetching (R367). -/
def execAdmqCtrlWrite (port value : Nat) (s : State) : Host.Outcome State Fault Refusal :=
  run (Instr.wf (.admqCtrlWrite port value)) s (fun s =>
    let n := bits value 11 8
    let on := bit value 0
    if !s.regsOpen then s
    else if n < 6 || 12 < n then s.barError port 0x110 4 (trunc 32 value)
    else
      let was := bit (s.reg 0x110) 0
      let s := s.setReg 0x110 (n * 256 + b2n on)
      if on && !was then
        let s := (s.setReg (qdbBase 0) 0).setReg (qdbBase 0 + 8) 0
        s.updQueue 0 (fun _ => { st := 1, log2 := n, sq := s.reg 0x100, cq := s.reg 0x108, vector := 0 })
      else if !on && was then
        let s := s.updQueue 0 (fun x => { x with st := 0, entries := [], retrying := false })
        ((s.queueCmds 0).filter (fun c => (s.cmd c).st == .fetched)).foldl (fun s c => s.setCmd c {}) s
      else s)

end Sys2Proof.Machine
end

