-- ==== Sys2Proof/Machine/Reduce.lean ====
section
/-!
DEFINITION. Memory-side reduction (10, R233-R237): the operation on one element, REDUCE commands and their elements, the ordering
buffer and the close of an epoch.
-/
namespace Sys2Proof.Machine

/-! ## One element (Table 10.8) -/

/-- Bytes of an element of a reduction type. -/
def redBytes (typ : Nat) : Nat := nth [4, 2, 2, 1, 1, 4, 8] typ 4

/-- The element format of a floating reduction type. -/
def redFmt (typ : Nat) : Nat := nth [1, 3, 2, 4, 5] typ 1

/-- Whether a type is floating, and whether it is scaled. -/
def redFloat (typ : Nat) : Bool := typ < 5
def redScaled (typ : Nat) : Bool := typ == 3 || typ == 4

/-- Whether Table 10.8 allows an operation (0 ADD, 1 MIN, 2 MAX, 3 CAS) on a type. -/
def redAllowed (op typ : Nat) : Bool := typ < 7 && (op < 3 || (op == 3 && 5 ≤ typ))

/-- A value under an E8M0 scale; 0xFF makes it a NaN (R83). -/
def scaled (sc : Nat) (x : NumVal) : NumVal :=
  if sc = 255 then .nan false 0
  else match x with
    | .fin s m e => .fin s m (e + sc - 127)
    | y => y

/-- IEEE 754-2019 minimum or maximum: NaN gives NaN, −0 < +0. -/
def numMinMax (hi : Bool) (x y : NumVal) : NumVal :=
  if x.isNan then x else if y.isNan then y
  else if NumVal.lt x y then (if hi then y else x)
  else if NumVal.lt y x then (if hi then x else y)
  else if x.isZero && y.isZero then (if (x.sgn && y.sgn) || (!hi && (x.sgn || y.sgn)) then .fin true 0 0 else .fin false 0 0)
  else x

/-- The operation of R233 on one element: the new element and the flags raised. `ss` and `ds` are the scales of the operand and
of the destination (127 without scales). -/
def redElem (op typ old src cmp ss ds : Nat) : Nat × Nat :=
  if redFloat typ then
    let f := redFmt typ
    let x := scaled ds (decodeNum f old)
    let y := scaled ss (decodeNum f src)
    let r := if op = 0 then NumVal.add x y else (numMinMax (op == 2) x y, false)
    let down : NumVal := match r.1 with
      | .fin s m e => .fin s m (e - ds + 127)
      | z => z
    if redScaled typ && ds = 255 then ((cvtFloat f false .rne (.nan false 0)).val, 8 * b2n r.2)
    else
      let c := cvtFloat f false .rne down
      (c.val, c.flags ||| (8 * b2n r.2))
  else
    let w := 8 * redBytes typ
    let a := signed w old
    let b := signed w src
    match op with
    | 0 => (ofInt w (a + b), 0)
    | 1 => (ofInt w (min a b), 0)
    | 2 => (ofInt w (max a b), 0)
    | _ => (if old = cmp then src else old, 0)

/-- Base of the reduction registers of die `d` (Table 10.11). -/
def redBase (d : Nat) : Nat := 0x108000 + 0x100 * d

/-- An element at physical address `x` read, changed and written back as one action for command `cid` (R233); none where the
sector does not read. `ds` is the destination's scale. -/
def State.redApply (s : State) (cid x op typ src cmp ss ds : Nat) : State × Option Nat × UOut :=
  let d := dieOfPhys x
  let n := redBytes typ
  let u : UnitId := ⟨3, d⟩
  let o := s.unitSectors cid u x n
  match o.2 with
  | .ok b =>
    let old := fieldOf b 0 n
    let r := redElem op typ old src cmp ss ds
    let w := ((o.1.heard [x / 64 * 64]).bump (redBase d + 0x10) 64 1).unitStore cid u x (natBytes n r.1)
    if w.2 then (w.1.raiseCmd cid r.2, some old, .ok []) else (w.1, none, .ended)
  | y => (o.1, none, y)

/-! ## The request (R234) -/

/-- The address of a request in a command's entry (Table 16.6). -/
def Cmd.reqAddr (c : Cmd) : Nat := fieldOf c.entry 8 8

/-- The die whose units read a command's request before it is known: the home die of its partition. -/
def State.cmdDie (s : State) (cid : Nat) : Nat := ((s.cmd cid).part.bind (fun p => s.homeDie p)).getD 0

/-- Fields of a reduction entry (Table 10.10). -/
def reOp (e : List Nat) : Nat := fieldOf e 0 1
def reTyp (e : List Nat) : Nat := fieldOf e 1 1
def reCount (e : List Nat) : Nat := fieldOf e 4 4

/-- Elements per scale group of a GSCALE field; 0 without groups. -/
def groupOf (gs : Nat) : Nat := nth [0, 32, 64, 128] (gs % 4) 0

/-- The static rules of R234 and R236 on an entry. -/
def redEntryOk (ordered : Bool) (e : List Nat) : Bool :=
  let op := reOp e
  let typ := reTyp e
  op < 4 && redAllowed op typ && fieldOf e 2 1 < 2 && (if redScaled typ then fieldOf e 3 1 < 4 else fieldOf e 3 1 == 0)
  && 1 ≤ reCount e && reCount e ≤ 16777216
  && (fieldOf e 2 1 == 1 || fieldOf e 24 8 == 0) && (op == 3 || fieldOf e 32 8 == 0)
  && (!ordered || (op < 3 && redFloat typ && fieldOf e 40 8 == 0))

/-- The destination of element `i` whose index is `j`: aligned, in T1 or T2, in a writable segment of the partition (R234). -/
def State.redDstOk (s : State) (p : Nat) (typ a : Nat) : Bool :=
  let n := redBytes typ
  addrClass a == 0 && aligned a n
  && (match s.phys a with | some x => tierOf x != 3 | none => false)
  && (match s.segOf p a n with | some g => bit (g.f 3 1) 1 | none => false)

/-- An entry with its operands read. -/
def State.redLoad (s : State) (cid : Nat) (u : UnitId) (host : HostView) (e : List Nat) : State × Option RedEnt × UOut :=
  let n := reCount e
  let w := redBytes (reTyp e)
  let g := groupOf (fieldOf e 3 1)
  let rd (s : State) (a k : Nat) : State × UOut := s.unitRead cid u host a k
  let i := if fieldOf e 2 1 = 1 then rd s (fieldOf e 24 8) (4 * n) else (s, UOut.ok [])
  let o := match i.2 with | .ok _ => rd i.1 (fieldOf e 16 8) (w * n) | x => (i.1, x)
  let c := match o.2 with | .ok _ => (if reOp e = 3 then rd o.1 (fieldOf e 32 8) (w * n) else (o.1, UOut.ok [])) | x => (o.1, x)
  let k := match c.2 with | .ok _ => (if g = 0 then (c.1, UOut.ok []) else rd c.1 (fieldOf e 56 8) ((n + g - 1) / g)) | x => (c.1, x)
  match k.2 with
  | .ok ks =>
    let dst := (upto n).map (fun j =>
      let idx : Int := if fieldOf e 2 1 = 1 then signed 32 (fieldOf i.2.bytes (4 * j) 4) else j
      ofInt 64 ((fieldOf e 8 8 : Nat) + idx * (w : Nat)))
    (k.1, some { entry := e, dst := dst, src := (upto n).map (fun j => fieldOf o.2.bytes (w * j) w),
                 cmp := if reOp e = 3 then (upto n).map (fun j => fieldOf c.2.bytes (w * j) w) else [], sscale := ks }, .ok [])
  | x => (k.1, none, x)

/-- Several entries loaded in turn. -/
def State.redLoads (s : State) (cid : Nat) (u : UnitId) (host : HostView) : List (List Nat) → State × List RedEnt × UOut
  | [] => (s, [], .ok [])
  | e :: es =>
    let o := s.redLoad cid u host e
    match o.2.1 with
    | some x =>
      let r := o.1.redLoads cid u host es
      (r.1, x :: r.2.1, r.2.2)
    | none => (o.1, [], o.2.2)

/-- What REDUCE does once what it moves is admitted and the host has released what it writes. -/
def State.doReduce (s0 : State) (queue : Nat) (host : HostView) : State :=
  match s0.startable queue 5 with
  | none => s0
  | some cid =>
    let c := s0.cmd cid
    let p := c.part.getD 0
    let u : UnitId := ⟨3, s0.cmdDie cid⟩
    let s := s0.updCmd cid (fun c => { c with st := .running })
    let h := s.unitRead cid u host c.reqAddr 64
    match h.2 with
    | .ok hd =>
      let n := fieldOf hd 0 2
      if !aligned c.reqAddr 64 || n = 0 || 4096 < n || 4 ≤ fieldOf hd 4 1 || !zeroBytes hd 5 8 || !zeroBytes hd 12 64 then h.1.finish cid 8 1
      else
        let ordered := bit (fieldOf hd 4 1) 0
        let b := h.1.unitRead cid u host (c.reqAddr + 64) (64 * n)
        (match b.2 with
         | .ok body =>
           let es := (upto n).map (fun i => (body.drop (64 * i)).take 64)
           if !es.all (redEntryOk ordered) then b.1.finish cid 8 1
           else
             let l := b.1.redLoads cid u host es
             (match l.2.2 with
              | .ok _ =>
                if l.2.1.any (fun e => e.dst.any (fun a => !l.1.redDstOk p (reTyp e.entry) a)) then l.1.finish cid 8 1
                else
                  let r : RedCmd := { ents := l.2.1, rank := fieldOf hd 2 2, ordered := ordered, close := bit (fieldOf hd 4 1) 1,
                                      epoch := fieldOf hd 8 4 }
                  { l.1 with units := { l.1.units with red := Tbl.set {} l.1.units.red cid r } }
              | x => s0.halts (l.1, x))
         | _ => s0.halts b)
    | _ => s0.halts h

/-- REDUCE (R234): the request is read and checked, and its entries go to the reduction units. -/
def execReduce (queue : Nat) (host : HostView) (s : State) : Host.Outcome State Fault Refusal :=
  runMem (Instr.wf (.reduce queue host)) host.ecc s (fun s => s.doReduce queue host)

/-! ## Elements (R233, R235, R236) -/

/-- Element `elem` of an entry is applied or held; the command completes with its last, unless it closes its epoch. -/
def State.redMark (s : State) (cid entry elem : Nat) : State :=
  let r := Tbl.get {} s.units.red cid
  let r := { r with ents := updAt r.ents entry (fun e => { e with done := elem :: e.done }) }
  let s := { s with units := { s.units with red := Tbl.set {} s.units.red cid r } }
  if !r.close && r.ents.all (fun e => e.done.length == e.dst.length) then s.finish cid 0 0 else s

/-- The scale of the destination element at index distance `j` from DST_ADDR: its address. -/
def dscaleAddr (e : RedEnt) (a : Nat) : Option Nat :=
  let g := groupOf (fieldOf e.entry 3 1)
  if redScaled (reTyp e.entry) && g != 0 then some (fieldOf e.entry 48 8 + (a - fieldOf e.entry 8 8) / redBytes (reTyp e.entry) / g) else none

/-- One element of operation `op` reaches its die. -/
def State.redStep (s0 : State) (cid entry elem op : Nat) (host : HostView) : State :=
  let r := Tbl.get {} s0.units.red cid
  match r.ents[entry]? with
  | none => s0
  | some e =>
    if reOp e.entry != op || e.dst.length ≤ elem || e.done.contains elem then s0
    else
      let typ := reTyp e.entry
      let a := nth e.dst elem 0
      let x := (s0.phys a).getD 0
      let d := dieOfPhys x
      let u : UnitId := ⟨3, d⟩
      let ctx := (s0.queue (s0.cmd cid).queue).ctx
      let src := nth e.src elem 0
      let g := groupOf (fieldOf e.entry 3 1)
      let ss := if g = 0 || !redScaled typ then 127 else nth e.sscale (elem / g) 127
      let cause := s0.dpCheck ctx a (redBytes typ) true true
      if cause != 0 then s0.unitFault cid u a cause true false
      else if r.ordered && s0.heldOn d < 262144 then
        let h : HeldRed := { part := (s0.cmd cid).part.getD 0, epoch := r.epoch, rank := r.rank, entry := entry, elem := elem, die := d, addr := x,
                             op := op, typ := typ, src := src, sscale := ss,
                             dscale := match dscaleAddr e a with | some y => y + 1 | none => 0 }
        { s0 with units := { s0.units with held := s0.units.held ++ [h] } }.redMark cid entry elem
      else
        let ds := match dscaleAddr e a with
          | none => (s0, UOut.ok [127])
          | some y => s0.unitRead cid u host y 1
        match ds.2 with
        | .ok sc =>
          let o := ds.1.redApply cid x op typ src (nth e.cmp elem 0) ss (nth sc 0 127)
          (match o.2.1 with
           | none => s0.halts (o.1, o.2.2)
           | some old =>
             let s := if r.ordered then o.1.bump (redBase d + 0x1C) 32 1 else o.1
             let s := if r.ordered || (redFloat typ && op == 0) then s.updCmd cid (fun c => { c with numsum := c.numsum ||| 2 ^ 14 }) else s
             let ra := fieldOf e.entry 40 8
             if ra = 0 then s.redMark cid entry elem
             else
               let w := s.unitWrite cid u host (ra + redBytes typ * elem) (natBytes (redBytes typ) old)
               match w.2 with
               | .ok _ => w.1.redMark cid entry elem
               | _ => s0.halts w)
        | _ => s0.halts ds

/-- ADD (R233). -/
def execRedAdd (queue seq entry elem : Nat) (host : HostView) (ecc : Sectors) (s : State) : Host.Outcome State Fault Refusal :=
  runMem (Instr.wf (.redAdd queue seq entry elem host ecc)) (host.ecc ++ ecc) s (fun s => s.redStep (cidOf queue seq) entry elem 0 host)

/-- MIN (R233). -/
def execRedMin (queue seq entry elem : Nat) (host : HostView) (ecc : Sectors) (s : State) : Host.Outcome State Fault Refusal :=
  runMem (Instr.wf (.redMin queue seq entry elem host ecc)) (host.ecc ++ ecc) s (fun s => s.redStep (cidOf queue seq) entry elem 1 host)

/-- MAX (R233). -/
def execRedMax (queue seq entry elem : Nat) (host : HostView) (ecc : Sectors) (s : State) : Host.Outcome State Fault Refusal :=
  runMem (Instr.wf (.redMax queue seq entry elem host ecc)) (host.ecc ++ ecc) s (fun s => s.redStep (cidOf queue seq) entry elem 2 host)

/-- CAS (R233). -/
def execRedCas (queue seq entry elem : Nat) (host : HostView) (ecc : Sectors) (s : State) : Host.Outcome State Fault Refusal :=
  runMem (Instr.wf (.redCas queue seq entry elem host ecc)) (host.ecc ++ ecc) s (fun s => s.redStep (cidOf queue seq) entry elem 3 host)

/-! ## The close of an epoch (R236) -/

/-- Order of the held contributions to one element. -/
def HeldRed.le (a b : HeldRed) : Bool :=
  a.rank < b.rank || (a.rank == b.rank && (a.entry < b.entry || (a.entry == b.entry && a.elem ≤ b.elem)))

/-- One held contribution applied for the command that closes the epoch. -/
def State.redRelease (s : State) (cid : Nat) (h : HeldRed) : State × UOut :=
  let ds := if h.dscale = 0 then (s, UOut.ok [127]) else s.unitSectors cid ⟨3, h.die⟩ ((s.phys (h.dscale - 1)).getD 0) 1
  match ds.2 with
  | .ok b => let o := ds.1.redApply cid h.addr h.op h.typ h.src 0 h.sscale (nth b 0 127); (o.1, o.2.2)
  | _ => ds

/-- Held contributions applied in order; one whose sector fails ends the command and is left, the others are applied. -/
def State.redReleases (s : State) (cid : Nat) : List HeldRed → State × UOut
  | [] => (s, .ok [])
  | h :: hs =>
    let o := s.redRelease cid h
    match o.2 with
    | .ok _ | .ended => o.1.redReleases cid hs
    | _ => o

/-- What EPOCH_CLOSE does once what it moves is admitted and the host has released what it writes. -/
def State.doEpochClose (s0 : State) (queue seq : Nat) : State :=
  let cid := cidOf queue seq
  let r := Tbl.get {} s0.units.red cid
  if !r.close || r.ents.isEmpty || !r.ents.all (fun e => e.done.length == e.dst.length) then s0
  else
    let p := (s0.cmd cid).part.getD 0
    let mine (h : HeldRed) : Bool := h.part == p && h.epoch == r.epoch
    let o := s0.redReleases cid (sortBy HeldRed.le (s0.units.held.filter mine))
    match o.2 with
    | .ok _ =>
      let s := { o.1 with units := { o.1.units with held := o.1.units.held.filter (fun h => !mine h) } }
      if (s.cmd cid).cause.isSome then s else s.finish cid 0 0
    | _ => s0.halts o

/-- EPOCH_CLOSE: after the request's own entries, every die applies the epoch's held contributions in order. -/
def execEpochClose (queue : Nat) (seq : Nat × Sectors) (s : State) : Host.Outcome State Fault Refusal :=
  runMem (Instr.wf (.epochClose queue seq)) seq.2 s (fun s => s.doEpochClose queue seq.1)

end Sys2Proof.Machine
end

