-- ==== Sys2Proof/Machine/Stroke.lean ====
section
/-!
DEFINITION. Strokes (08): the instruction at a channel's PC, the completion of its requests, tokens, re-arming, and the
cluster cache's fills. A command that names an instruction other than the one at the PC, or one that cannot run yet,
changes nothing (log entry 1).
-/
namespace Sys2Proof.Machine

/-! ## Program order (R171) -/

/-- Loops closed when the PC reaches the instruction after their bodies. -/
def loopBack (pc : Nat) : List LoopSt → Nat × List LoopSt
  | [] => (pc, [])
  | l :: rest =>
    if l.after = pc then (if 1 < l.left then (l.first, { l with left := l.left - 1 } :: rest) else loopBack pc rest)
    else (pc, l :: rest)

/-- The instruction at the PC is done. -/
def Chan.next (ch : Chan) : Chan :=
  let r := loopBack (ch.pc + 1) ch.loops
  { ch with pc := r.1, loops := r.2, wait := .no }

/-- An address register. -/
def Chan.areg (ch : Chan) (i : Nat) : Nat := nth ch.a i 0

/-- An address register changed by a signed amount, modulo 2⁶⁴. -/
def Chan.addA (ch : Chan) (i : Nat) (z : Int) : Chan := { ch with a := updAt ch.a i (fun v => ofInt 64 ((v : Int) + z)) }

/-- SETA: Aa = BASEb + IMM, by phase with PP. -/
def Chan.doSeta (ch : Chan) (a b : Nat) (pp : Bool) (imm : Int) : Chan :=
  let i := if pp && ch.phase then 1 - b else b
  ({ ch with a := updAt ch.a a (fun _ => ofInt 64 (((nth ch.base i 0 : Nat) : Int) + imm)) }).next

/-- LOOP: the body runs `count` times. -/
def Chan.doLoop (ch : Chan) (n len count : Nat) : Chan :=
  { ch with loops := ⟨n, ch.pc + 1, ch.pc + 1 + len, count⟩ :: ch.loops, pc := ch.pc + 1 }

/-- The channel's task runs and the channel has a stroke whose next instruction can start: no WAITT is waiting and every
request of an earlier MOVE is in flight or done. -/
def State.chanTakes (s : State) (t c : Nat) : Bool :=
  s.tileRuns t && (s.chan t c).active && (s.chan t c).reqs.length ≤ 64
  && (match (s.chan t c).wait with | .token _ _ => false | _ => true)

/-- The instruction at the PC of a channel that can start. -/
def State.atPc (s : State) (t c : Nat) : Option SIns := if s.chanTakes t c then some (s.chan t c).ins else none

/-- SETA (R170). -/
def execSeta (t c : Nat) (s : State) : Host.Outcome State Fault Refusal :=
  run (Instr.wf (.seta t c)) s (fun s =>
    match s.atPc t c with
    | some (.seta a b pp imm) => s.updChan t c (fun ch => ch.doSeta a b pp imm)
    | _ => s)

/-- ADDA (R170). -/
def execAdda (t c : Nat) (s : State) : Host.Outcome State Fault Refusal :=
  run (Instr.wf (.adda t c)) s (fun s =>
    match s.atPc t c with
    | some (.adda a imm) => s.updChan t c (fun ch => (ch.addA a imm).next)
    | _ => s)

/-- LOOP (R171). -/
def execLoop (t c : Nat) (s : State) : Host.Outcome State Fault Refusal :=
  run (Instr.wf (.loop t c)) s (fun s =>
    match s.atPc t c with
    | some (.loop n len count) => s.updChan t c (fun ch => ch.doLoop n len count)
    | _ => s)

/-- FLIP (R170). -/
def execFlip (t c : Nat) (s : State) : Host.Outcome State Fault Refusal :=
  run (Instr.wf (.flip t c)) s (fun s =>
    match s.atPc t c with
    | some .flip => s.updChan t c (fun ch => { ch with phase := !ch.phase }.next)
    | _ => s)

/-! ## MOVE (R174, R323) -/

/-- One piece of a MOVE: memory address and bytes, scratch address. -/
structure Piece where
  mem : Nat
  len : Nat
  scr : Nat

/-- The pieces of a MOVE in the order row, piece (R174). -/
def movePieces (ch : Chan) (memA scrA : Nat) (tr sk f6 : Bool) (rows pieces plog pitch : Nat) : List Piece :=
  let sz := 2 ^ plog
  ((upto rows).map (fun r => (upto pieces).map (fun p =>
    let mo := r * pitch + p * sz
    let so := (if tr then sz * (p * rows + r) else sz * (r * pieces + p)) + (if sk then r / 4 * ch.lineBytes else 0)
    { mem := (memA + (if f6 then mo * 3 / 4 else mo)) % 2 ^ 64, len := if f6 then sz * 3 / 4 else sz, scr := (scrA + so) % 2 ^ 64 }))).flatten

/-- The requests of one piece, cut at 64-byte boundaries of memory (R323). -/
def pieceReqs : Nat → Piece → Bool → Bool → Nat → Nat → Nat → Nat → List Req
  | 0, _, _, _, _, _, _, _ => []
  | fuel + 1, p, write, f6, sz, off, tok, now =>
    if p.len ≤ off then []
    else
      let a := (p.mem + off) % 2 ^ 64
      let n := min (p.len - off) (64 - a % 64)
      { st := .new, write := write, addr := a, len := n, scr := if f6 then p.scr else p.scr + off, piece := if f6 then sz else 0,
        pieceMem := p.mem, last := p.len ≤ off + n, tok := tok, since := now } :: pieceReqs fuel p write f6 sz (off + n) (tok + 1) now

/-- The requests of a list of pieces. -/
def movesReqs (write f6 : Bool) (sz now : Nat) : Nat → List Piece → List Req
  | _, [] => []
  | tok, p :: ps =>
    let rs := pieceReqs 3 p write f6 sz 0 tok now
    rs ++ movesReqs write f6 sz now (tok + rs.length) ps

/-- The control effect of an instruction on a channel that only looks ahead (R333): none past END. -/
def Chan.ahead (ch : Chan) : Option Chan :=
  match ch.ins with
  | .fin => none
  | .seta a b pp imm => some (ch.doSeta a b pp imm)
  | .adda a imm => some (ch.addA a imm).next
  | .loop n len count => some (ch.doLoop n len count)
  | .flip => some { ch with phase := !ch.phase }.next
  | .emit a _ inc => some (ch.addA a inc).next
  | .take a _ inc => some (ch.addA a inc).next
  | _ => some ch.next

/-- The host pages of the next `k` MOVEs of a channel from its PC on, up to 16 a MOVE (R333). -/
def aheadPages (write : Bool) : Nat → Nat → Chan → List Nat
  | 0, _, _ => []
  | _, 0, _ => []
  | fuel + 1, k + 1, ch =>
    match ch.ins with
    | .move sr d tr sk f6 rows pieces plog pitch =>
      let memA := ch.areg (if write then d else sr)
      let ps := ((movePieces ch memA 0 tr sk f6 rows pieces plog pitch).filter (fun p => addrClass p.mem == 1)).map (fun p => hvAddr p.mem / 4096)
      ps.eraseDups.take 16 ++ aheadPages write fuel k ch.next
    | _ => match ch.ahead with
      | some ch' => aheadPages write fuel (k + 1) ch'
      | none => []

/-- Translations of the next four MOVEs requested where the cache lacks them (R333). -/
def State.prefetch (s : State) (t c : Nat) (write : Bool) : State :=
  let ctx := s.tileCtx t
  let d := dieOfTile t
  match s.diePort d with
  | none => s
  | some port =>
    if bit (s.reg 0x310000) 0 && ctx.pasidEn && nth s.xlat.ats port false then
      (aheadPages write 600 4 (s.chan t c)).eraseDups.foldl (fun s page =>
        if (s.xfind d port (some ctx.pasid) page).isNone && !s.xpaused port (some ctx.pasid) page then
          s.xrequest d port (some ctx.pasid) page true
        else s) s
    else s

/-- MOVE: the requests of a block are issued (R174, R171); a piece outside scratch or not aligned to its size there ends the
launch (R173). -/
def execMove (t c : Nat) (s : State) : Host.Outcome State Fault Refusal :=
  run (Instr.wf (.move t c)) s (fun s =>
    match s.atPc t c with
    | some (.move sr d tr sk f6 rows pieces plog pitch) =>
      let ch := s.chan t c
      let write := chanRole c == 3
      let sz := 2 ^ plog
      let ps := movePieces ch (ch.areg (if write then d else sr)) (ch.areg (if write then sr else d)) tr sk f6 rows pieces plog pitch
      if ps.any (fun p => decide (scratchSize < p.scr + sz) || !aligned p.scr sz) then s.invalidAt t
      else
        let rs := movesReqs write f6 sz s.time ch.issued ps
        let s := s.updChan t c (fun ch => { ch with reqs := ch.reqs ++ rs, issued := ch.issued + rs.length }.next)
        (s.pump t c).prefetch t c write
    | _ => s)

/-! ## Completion of a request (R171, R183, R312) -/

/-- Four FP6 elements as the 24-bit word of R75, and back. -/
def packF6 (l : List Nat) : List Nat :=
  ((upto (l.length / 4)).map (fun i =>
    natBytes 3 ((upto 4).foldl (fun a j => a + nth l (4 * i + j) 0 % 64 * 2 ^ (6 * j)) 0))).flatten
def unpackF6 (l : List Nat) : List Nat :=
  ((upto (l.length / 3)).map (fun i =>
    let w := fieldOf l (3 * i) 3
    (upto 4).map (fun j => bits w (6 * j + 5) (6 * j)))).flatten

/-- The bytes a write request carries to memory. -/
def State.reqData (s : State) (t : Nat) (ch : Chan) (r : Req) : List Nat :=
  if r.piece = 0 then (s.tile t).scrRead ch.swz r.scr r.len
  else ((packF6 ((s.tile t).scrRead ch.swz r.scr r.piece)).drop (r.addr - r.pieceMem)).take r.len

/-- The head request of a channel is complete (R171): counted, and the next requests issued. -/
def State.reqDone (s : State) (t c : Nat) : State :=
  match (s.chan t c).reqs with
  | [] => s
  | r :: rest =>
    let s := s.updChan t c (fun ch => { ch with reqs := rest, done := ch.done + 1 })
    (s.bump (strBase t c + 0x28) 64 r.len).pump t c

/-- Bytes fetched by the head request placed in scratch; those of an F6 piece when its last request completes. -/
def State.placeFetch (s : State) (t c : Nat) (r : Req) (data : List Nat) : State :=
  let ch := s.chan t c
  let s :=
    if r.piece = 0 then s.updTile t (fun x => x.scrWrite ch.swz r.scr data)
    else if r.last then
      (s.updTile t (fun x => x.scrWrite ch.swz r.scr (unpackF6 (ch.f6 ++ data)))).updChan t c (fun ch => { ch with f6 := [] })
    else s.updChan t c (fun ch => { ch with f6 := ch.f6 ++ data })
  s.reqDone t c

/-- A write of a shadowed launch folded into the digest of its task and channel (R467, R468). -/
def State.digest (s : State) (t c addr : Nat) (data : List Nat) : State :=
  match (s.tile t).task with
  | none => s
  | some k =>
    let fold (l : List ((Nat × Nat) × Nat)) : List ((Nat × Nat) × Nat) :=
      let key := (k.idx, c)
      let old := ((l.find? (fun e => e.1 == key)).map (·.2)).getD 0
      (key, Config.crc64 old (natBytes 8 addr ++ data)) :: l.filter (fun e => e.1 != key)
    { s with flt := { s.flt with shadows := s.flt.shadows.map (fun (w : Shadow) =>
        if w.cid = k.cid then (if k.shadow then { w with shad := fold w.shad } else { w with prim := fold w.prim }) else w) } }

/-- A request of a channel failed at its target (R273): a write fails its launch with DATA_ERROR, a read is an uncorrectable error of the
line it read (R287). Only reads of host memory and of host-bias pages come here: other reads are fills (log entry 194). -/
def State.reqFailed (s : State) (t : Nat) (r : Req) (cause : Nat) : State :=
  match s.tileCmd t with
  | none => s
  | some cid =>
    let part := (s.cmd cid).part
    let src : Src := ⟨1, t⟩
    match r.port with
    | some p =>
      let s := s.bump (0x320008 + 0x100 * p) 32 1
      let s := s.blotCmd cid 0x0406 src r.addr [(4, 1), (p, 1), (cause, 1), (b2n r.write, 1)] true
      if r.write then s.endCmd cid 3 5 [t] false
      else (s.blotCmd cid 0x0401 src r.addr [(0xFF, 1), (4, 1), (1, 1)] true).endCmd cid 2 (r.addr / 64 % 65536) [t] false
    | none =>
      let s := s.tierFailed r.tgt cause r.write part (some cid) src
      if r.write then s.endCmd cid 3 5 [t] false
      else (s.lineLost (r.tgt / 64 * 64) 1 (some cid) src).endCmd cid 2 (r.tgt / 64 % 65536) [t] false

/-- SRAM_UNCORRECTABLE in the scratch of tile `t` (R282). -/
def State.scratchError (s : State) (t word : Nat) : State :=
  match s.tileCmd t with
  | none => s
  | some cid =>
    let s := s.blotCmd cid 0x0303 ⟨1, t⟩ 0 [(0, 1), (word, 4)] true
    (s.endCmd cid 3 4 [t] false).suspect 1 t 0x0303

/-- The write of the line at `addr` that waits for GO last is that of the head request of channel `c` of tile `t`. -/
def State.claimGo (s : State) (d addr t c : Nat) : State :=
  { s with host := { s.host with goWait := (s.host.goWait.reverse.zipIdx).reverse.map (fun (p : GoWait × Nat) =>
      if p.2 = 0 && p.1.die = d && p.1.addr = addr / 64 * 64 then { p.1 with src := some (t, c) } else p.1) } }

/-- The head request of a write channel performed at its target: complete, or waiting for the host (R304, R308, R312). A write to a sector
for which another write waits stays at its channel's head. -/
def State.performWrite (s : State) (t c cid : Nat) (r : Req) : State :=
  let ch := s.chan t c
  let data := s.reqData t ch r
  let held := r.port.isNone && s.biHeld r.tgt && !s.tileShadow t
  let s := if held then s else s.digest t c r.addr data
  if held then s
  else if s.tileShadow t then s.reqDone t c
  else match r.port with
    | some p =>
      let o := s.hostWrite (dieOfTile t) p (some (s.tileCtx t).pasid) (some cid) r.untrans r.tgt data
      if o.2 then o.1.reqDone t c
      else
        let s := o.1.claimGo (dieOfTile t) r.tgt t c
        s.setReq t c r.tok (fun r => r.move s .go)
    | none =>
      if s.hostFirst r.tgt then
        let s := s.askHost r.tgt { snoops := [], addr := r.tgt, data := data, cid := some cid, src := some (t, c) }
        s.setReq t c r.tok (fun r => r.move s .bi)
      else
        let o := s.commit r.tgt data
        let s := o.1.invalidateOthers (clusterOfTile t) r.tgt
        if o.2 then s.reqDone t c else s.reqFailed t r (s.writeCause r.tgt)

/-- The head request of a fetch channel performed: the bytes of its line, of a host-bias page or of host memory (R308). -/
def State.performFetch (s : State) (t c : Nat) (r : Req) (hostData : List Nat) : State :=
  match r.port with
  | some p =>
    if hostData.length != r.len then s
    else
      let o := s.hostRead (dieOfTile t) p (some (s.tileCtx t).pasid) (bit (s.chan t c).flags 2) r.untrans r.tgt hostData
      o.1.placeFetch t c r o.2
  | none =>
    if s.inHostBias r.tgt then
      if hostData.length != r.len then s
      else (((s.emit (.hostRead (dieOfTile t) r.tgt none 64)).portBytes (s.biasPort r.tgt) false 64)).placeFetch t c r hostData
    else s.placeFetch t c r (s.readThrough ((s.tileCmd t).bind (fun k => (s.cmd k).part)) r.tgt r.len)

/-- A line of a cluster cache read with error `res` of its bits (R282): one bit is corrected; a line with two is invalidated and fetched
again, where memory has it. The flag says that it is read again. -/
def State.clusterSram (s : State) (t c : Nat) (r : Req) (res : MemRes) : State × Bool :=
  match res with
  | .sramFixed => (s.sramFix, false)
  | .sramClean | .sramDirty _ =>
    let cl := clusterOfTile t
    let s := s.updCache cl (fun k => { k with lines := k.lines.filter (· != r.tgt / 128) })
    (s.missLine ((s.tileCmd t).getD 0) t c r.tok r.tgt (!s.pinnedAt cl r.addr r.tgt), true)
  | _ => (s, false)

/-- A fetch from host memory, with error `res` of the bits of its line in the host-line cache (R282). -/
def State.hostFetch (s : State) (t c cid : Nat) (r : Req) (res : MemRes) (hostData : List Nat) : State :=
  let z := (s.setMed [(hlcKey r.tgt, res)]).hlcSram (dieOfTile t) r.tgt
  match z.2 with
  | some w => z.1.sramFails cid 3 w ⟨1, t⟩ [t]
  | none => z.1.performFetch t c r hostData

/-- MOVE_REQUEST_COMPLETE: the oldest request of a channel, sent to its target, completes there (R171); `res` says how its target or the
SRAM that holds its bytes turned out, and `hostData` is what the host supplies for a read of its memory. -/
def execMoveRequestComplete (t c : Nat) (res : MemRes) (hostData : List Nat) (s : State) : Host.Outcome State Fault Refusal :=
  run (Instr.wf (.moveRequestComplete t c res hostData)) s (fun s =>
    match (s.chan t c).reqs.head?, s.tileCmd t with
    | some r, some cid =>
      if r.st != .sent then s
      else if r.write then
        match res with
        | .sramDirty w => s.scratchError t w
        | .sramFixed => s.sramFix.performWrite t c cid r
        | .failed cause =>
          if r.port.isSome || s.inHostBias r.tgt then s.reqFailed t r cause
          else ((s.setMed [(r.tgt / 64 * 64, res)]).performWrite t c cid r).setMed []
        | _ => ((s.setMed (if r.port.isSome then [] else [(r.tgt / 64 * 64, res)])).performWrite t c cid r).setMed []
      else match r.port, res with
        | some _, .failed cause => s.reqFailed t r cause
        | some _, _ => (s.hostFetch t c cid r res hostData).setMed []
        | none, _ =>
          if s.inHostBias r.tgt then (match res with | .failed cause => s.reqFailed t r cause | _ => s.performFetch t c r hostData)
          else
            let z := s.clusterSram t c r res
            if z.2 then z.1 else z.1.performFetch t c r hostData
    | _, _ => s)

/-! ## EMIT (R175, R176) -/

/-- Quarter `m` of a skewed line emitted at address `a`: its scratch address. -/
def quarterAddr (ch : Chan) (a m : Nat) : Nat := a + m * ch.lineBytes + m * (ch.lineBytes / 4)

/-- The bytes of one quarter, and its four scale bytes. -/
def State.readQuarter (s : State) (t : Nat) (ch : Chan) (l : PLine) (m : Nat) : List Nat × List Nat :=
  let a := if l.skew then quarterAddr ch l.addr m else l.addr + m * (ch.lineBytes / 4)
  ((s.tile t).scrRead ch.swz a (ch.lineBytes / 4),
   if bit ch.flags 1 then (upto 4).map (fun i => (s.tile t).scr ch.swz ((l.a3 + (4 * m + i) * ch.pitch) % scratchSize)) else [])

/-- Quarter `m` of a line read. -/
def State.fillQuarter (s : State) (t : Nat) (ch : Chan) (m : Nat) (l : PLine) : PLine :=
  match nth l.quarters m none with
  | some _ => l
  | none =>
    let q := s.readQuarter t ch l m
    { l with quarters := updAt l.quarters m (fun _ => some q.1), scales := updAt l.scales m (fun _ => q.2) }

/-- The quarters that an EMIT or the tail reads: of the line `k` EMITs back, quarter `k + 1 - e`, where `e` is 0 when the
newest line is the one emitted now. -/
def State.fillBack (s : State) (t : Nat) (ch : Chan) (step : Nat) (ls : List PLine) : List PLine :=
  ((ls.reverse.zipIdx).map (fun p => if p.1.skew && p.2 + step < 4 then s.fillQuarter t ch (p.2 + step) p.1 else p.1)).reverse

/-- The last scratch byte that a skewed or plain line reads lies in scratch (R173). -/
def lineInScratch (ch : Chan) (a : Nat) (sk : Bool) : Bool :=
  decide ((if sk then quarterAddr ch a 3 + ch.lineBytes / 4 else a + ch.lineBytes) ≤ scratchSize)

/-- The last scale byte that a line reads lies in scratch. -/
def lanesInScratch (ch : Chan) : Bool := !bit ch.flags 1 || decide (ch.areg 3 + 15 * ch.pitch < scratchSize)

/-- What EMIT does (R175): `res` says how the scratch that the line is read from turned out (R282). -/
def State.doEmit (s : State) (t c : Nat) (res : MemRes) : State :=
  match s.atPc t c with
  | some (.emit a sk inc) =>
    let ch := s.chan t c
    let addr := ch.areg a
    if addr % 64 != 0 || !lineInScratch ch addr sk || !lanesInScratch ch then s.invalidAt t
    else if 4 ≤ ch.lines.length then s.updChan t c (fun ch => { ch with wait := .sink })
    else match res with
    | .sramDirty w => s.scratchError t w
    | _ =>
      let s := if res = .sramFixed then s.sramFix else s
      let l : PLine := { addr := addr, a3 := ch.areg 3, skew := sk, quarters := [none, none, none, none], scales := [[], [], [], []] }
      let l := if sk then l else (upto 4).foldl (fun l m => s.fillQuarter t ch m l) l
      let ls := s.fillBack t ch 0 (ch.lines ++ [l])
      let s := s.updChan t c (fun ch => Chan.addA { ch with lines := ls, emits := ch.emits + 1 } a inc)
      (s.updChan t c Chan.next).bump (strBase t c + 0x28) 64 ch.lineBytes
  | _ => s

/-- EMIT: presents one line, up to four ahead of the consumer; with the channel comes how the scratch it reads turned out. -/
def execEmit (t : Nat) (at' : Nat × MemRes) (s : State) : Host.Outcome State Fault Refusal :=
  run (Instr.wf (.emit t at')) s (fun s => s.doEmit t at'.1 at'.2)

/-! ## TAKE (R177) -/

/-- The bytes of an item where it is placed: a stochastic conversion rounds each element by its own address (R91, R155). -/
def OutItem.bytes (o : OutItem) (addr : Nat) : List Nat × Nat :=
  if o.vals.isEmpty then (o.data, 0)
  else
    let n := fmtBytes o.fmt
    let cs := (o.vals.zipIdx).map (fun p => cvtFloat o.fmt o.ovf (.stoch (stochNumber o.seed (addr + n * p.2))) p.1)
    ((cs.map (fun c => natBytes n c.val)).flatten ++ o.data, cs.foldl (fun f c => f ||| c.flags) 0)

/-- TAKE: writes the next item of the channel's source into scratch. -/
def execTake (t c : Nat) (s : State) : Host.Outcome State Fault Refusal :=
  run (Instr.wf (.take t c)) s (fun s =>
    match s.atPc t c with
    | some (.take a packed inc) =>
      let ch := s.chan t c
      match ch.items with
      | [] => s.updChan t c (fun ch => { ch with wait := .data })
      | it :: rest =>
        let addr := ch.areg a
        let b := it.bytes addr
        if scratchSize < addr + b.1.length then s.invalidAt t
        else
          let s := s.updTile t (fun x => x.scrWrite ch.swz addr b.1)
          let s := s.updChan t c (fun ch => ({ ch with items := rest }.addA a (if packed then (b.1.length : Int) else inc)).next)
          ((if c = 14 then s.raiseVec t b.2 else s)).bump (strBase t c + 0x28) 64 b.1.length
    | _ => s)

/-! ## Tokens (R178) -/

/-- A token of tile `t`. -/
def State.token (s : State) (t k : Nat) : Nat := nth (s.tile t).tokens k 0

/-- A token set. -/
def State.setToken (s : State) (t k v : Nat) : State := s.updTile t (fun x => { x with tokens := updAt x.tokens k (fun _ => v) })

/-- WAITT: subtracts, or waits. -/
def execWaitt (t c : Nat) (s : State) : Host.Outcome State Fault Refusal :=
  run (Instr.wf (.waitt t c)) s (fun s =>
    match s.atPc t c with
    | some (.waitt k n) =>
      if n ≤ s.token t k then (s.setToken t k (s.token t k - n)).updChan t c Chan.next
      else s.updChan t c (fun ch => { ch with wait := .token k n })
    | _ => s)

/-- TOKEN_WAIT_SATISFIED: a waiting WAITT proceeds. -/
def execTokenWaitSatisfied (t c : Nat) (s : State) : Host.Outcome State Fault Refusal :=
  run (Instr.wf (.tokenWaitSatisfied t c)) s (fun s =>
    match (s.chan t c).wait with
    | .token k n =>
      if s.tileRuns t && (s.chan t c).active && n ≤ s.token t k then (s.setToken t k (s.token t k - n)).updChan t c Chan.next else s
    | _ => s)

/-- SIGT: the addition is scheduled behind the channel's earlier requests and lines. -/
def execSigt (t c : Nat) (s : State) : Host.Outcome State Fault Refusal :=
  run (Instr.wf (.sigt t c)) s (fun s =>
    match s.atPc t c with
    | some (.sigt k n) => s.updChan t c (fun ch => { ch with sigs := ch.sigs ++ [Sig.mk k n ch.issued ch.emits] }.next)
    | _ => s)

/-- Lines emitted up to the first of which some quarter has not been read. -/
def Chan.linesRead (ch : Chan) : Nat :=
  ch.emits - ch.lines.length + (ch.lines.takeWhile (fun l => l.quarters.all (·.isSome))).length

/-- SIGT_TAKE_EFFECT: the oldest scheduled addition whose condition holds; a token above 255 ends the launch. -/
def execSigtTakeEffect (t c : Nat) (s : State) : Host.Outcome State Fault Refusal :=
  run (Instr.wf (.sigtTakeEffect t c)) s (fun s =>
    let ch := s.chan t c
    match ch.sigs with
    | [] => s
    | g :: rest =>
      if !s.tileRuns t || ch.done < g.reqs || ch.linesRead < g.lines then s
      else
        let s := s.updChan t c (fun ch => { ch with sigs := rest })
        if 255 < s.token t g.token + g.count then s.invalidAt t else s.setToken t g.token (s.token t g.token + g.count))

/-! ## END (R179, R180) -/

/-- The tail of a present channel: quarters 1 to 3 of its last three lines (R175). -/
def State.tail (s : State) (t c : Nat) : State :=
  let ch := s.chan t c
  let ls := s.fillBack t ch 3 (s.fillBack t ch 2 (s.fillBack t ch 1 ch.lines))
  s.updChan t c (fun ch => { ch with lines := ls })

/-- A stroke ends; with the last one its task ends. -/
def State.strokeEnds (s : State) (t c : Nat) : State :=
  let s := s.updChan t c (fun ch => { ch with active := false, wait := .no })
  if (s.tile t).chans.all (fun e => !e.2.active) then s.taskEnd t else s

/-- END: the stroke ends once its requests have completed, or is re-armed from its base table. -/
def execEndStroke (t c : Nat) (s : State) : Host.Outcome State Fault Refusal :=
  run (Instr.wf (.endStroke t c)) s (fun s =>
    match s.atPc t c with
    | some .fin =>
      let ch := s.chan t c
      if !ch.reqs.isEmpty then s.updChan t c (fun ch => { ch with wait := .data })
      else
        let s := if chanRole c = 1 then s.tail t c else s
        if !bit ch.flags 0 || 255 ≤ ch.rearms then s.strokeEnds t c
        else
          let a := ch.btab + 32 * ch.rearms
          if scratchSize < a + 32 then s.invalidAt t
          else
            let e := (s.tile t).scrRead ch.swz a 32
            if fieldOf e 0 8 = 2 ^ 64 - 1 then s.strokeEnds t c
            else s.updChan t c (fun ch => { ch with
              base := (upto 4).map (fun i => fieldOf e (8 * i) 8), rearms := ch.rearms + 1, pc := 0, a := [0, 0, 0, 0], loops := [], wait := .no })
    | _ => s)

/-! ## Cluster cache fills (R182) -/

/-- A waiting request, if it is still there. -/
def State.waiter (s : State) (w : Nat × Nat × Nat) : Option Req := (s.chan w.1 w.2.1).reqs.find? (fun r => r.tok == w.2.2)

/-- The waiting requests of a fill that read the sector at `a`. -/
def State.waitersOf (s : State) (f : Fill) (a : Nat) : List (Nat × Nat × Nat) :=
  f.wait.filter (fun w => match s.waiter w with | some r => r.tgt / 64 * 64 == a | none => false)

/-- Waiting requests sent on to complete; their sector turned out as `res`. What held each longest takes its channel's stalls (R187). -/
def State.serveReaders (s : State) (ws : List (Nat × Nat × Nat)) (res : MemRes) : State :=
  ws.foldl (fun s w =>
    match s.waiter w with
    | none => s
    | some r =>
      let m := r.move s .sent
      let m := match resReason res with | some k => { m with worst := (k, m.worst.2) } | none => m
      (s.setReq w.1 w.2.1 w.2.2 (fun _ => m)).recharge w.1 m) s

/-- The launches of waiting requests, each with the tiles on which they wait. -/
def State.launchesOf (s : State) (ws : List (Nat × Nat × Nat)) : List (Nat × List Nat) :=
  let l := ws.filterMap (fun w => (s.tileCmd w.1).map (fun c => (c, w.1)))
  (l.map (·.1)).eraseDups.map (fun c => (c, (l.filter (fun x => x.1 == c)).map (·.2)))

/-- The requests that wait for a place in a cluster cache issued again, in order of arrival (R182). -/
def State.reissue (s : State) (cl : Nat) : State :=
  let q := (s.cache cl).queue
  q.foldl (fun s w =>
    match s.waiter w with
    | none => s
    | some r => if r.st == .place then (s.setReq w.1 w.2.1 w.2.2 (fun r => r.move s .new)).issue w.1 w.2.1 (r.move s .new) else s)
    (s.updCache cl (fun k => { k with queue := [] }))

/-- The launches that a fill's bad sector ends, with how it read: those whose requests read it, and the one whose window it fills. -/
def State.lostLaunches (s : State) (f : Fill) (a : Nat) (o : ReadOut) : List (Nat × List Nat × Nat × ReadOut) :=
  ((s.launchesOf (s.waitersOf f a)) ++ (match f.pin with | some c => [(c, [])] | none => [])).map (fun l => (l.1, l.2, a, o))

/-- Launches that read a bad sector end, or are replayed (R284, Table 13.2). -/
def State.endReaders (s : State) (src : Src) (ls : List (Nat × List Nat × Nat × ReadOut)) : State :=
  ls.foldl (fun s l =>
    match l.2.2.2 with
    | .crcFail => s.crcReplay l.1 l.2.2.1 src l.2.1
    | .fail st det => s.endCmd l.1 st det l.2.1 false
    | _ => s) s

/-- A fill none of whose sectors is under recovery any more is over: its line is cached where it may be, a place is free, and what
waited for one goes on. -/
def State.fillOver (s : State) (cl : Nat) (f : Fill) (bad : Bool) : State :=
  let s := s.updCache cl (fun k => { k with fills := k.fills.filter (fun g => g.line != f.line) })
  let s := if f.alloc && !bad && f.pin.isNone then s.cachePut cl f.line else s
  let s := if f.pin.isSome then s.pumpSt .window else s
  (s.reissue cl).winPumps cl

/-- A fill whose readers of the sectors in `held` wait for a recovery (R286). -/
def State.fillHeals (s : State) (cl : Nat) (f : Fill) (held : List Nat) (bad : Bool) : State :=
  let wait := f.wait.filter (fun w => match s.waiter w with | some r => held.contains (r.tgt / 64 * 64) | none => false)
  s.updCache cl (fun k => { k with fills := k.fills.map (fun g =>
    if g.line = f.line then { g with heal := true, alloc := g.alloc && !bad, wait := wait, pin := if bad then none else g.pin } else g) })

/-- An admitted fill arrives; `res` and `res2` say how its two sectors read (R280-R287). Each sector's readers fare as it does. -/
def State.fillArrives (s : State) (cluster line : Nat) (res res2 : MemRes) : State :=
  match (s.cache cluster).fills.find? (fun f => f.line == line) with
  | none => s
  | some f =>
    if !f.admitted || f.heal then s
    else
      let cid := ((f.wait.head?).bind (fun w => s.tileCmd w.1)).or f.pin
      let part := cid.bind (fun c => (s.cmd c).part)
      let src : Src := ⟨2, cluster⟩
      let a := 128 * line
      let b := a + 64
      let s := f.wait.foldl (fun s w => s.setReq w.1 w.2.1 w.2.2 (fun r => r.move s .fill)) s
      let x := (s.setMed [(a, res), (b, res2)]).readSector a part cid src
      let y := x.1.readSector b part cid src
      let s := y.1.setMed []
      let bad (o : ReadOut) : Bool := o != .data && o != .replica
      let lost := (if bad x.2 then s.lostLaunches f a x.2 else []) ++ (if bad y.2 then s.lostLaunches f b y.2 else [])
      let held := (if x.2 = .replica then [a] else []) ++ (if y.2 = .replica then [b] else [])
      let s := if x.2 = .data then s.serveReaders (s.waitersOf f a) res else s
      let s := if y.2 = .data then s.serveReaders (s.waitersOf f b) res2 else s
      let wrong := bad x.2 || bad y.2
      let s := if held.isEmpty then s.fillOver cluster f wrong else s.fillHeals cluster f held wrong
      let s := s.endReaders src lost
      let s := if bad x.2 && x.2 != .crcFail then s.slotLost a else s
      if bad y.2 && y.2 != .crcFail then s.slotLost b else s

/-- CLUSTER_CACHE_FILL. -/
def execClusterCacheFill (cluster line : Nat) (res res2 : MemRes) (s : State) : Host.Outcome State Fault Refusal :=
  run (Instr.wf (.clusterCacheFill cluster line res res2)) s (fun s => s.fillArrives cluster line res res2)

end Sys2Proof.Machine
end

