-- ==== Sys2Proof/Machine/Rows.lean ====
section
/-!
DEFINITION. Embedding tables as they lie in memory (09): descriptors, placement, shard maps, directories, the row classes with
their widening and narrowing (R197, R226), and the hot-row cache.
-/
namespace Sys2Proof.Machine

/-! ## The table descriptor (Table 9.1), from byte 16 of its TABLE record -/

/-- ROWS. -/
def tRows (r : Rec) : Nat := bits (r.f 16 8) 40 0
/-- WIDTH. -/
def tWidth (r : Rec) : Nat := r.f 24 2
/-- LAYOUT is MIXED. -/
def tMixed (r : Rec) : Bool := r.f 26 1 == 1
/-- PLACE: 0 REPLICATED, 1 RANGE, 2 HASH. -/
def tPlace (r : Rec) : Nat := r.f 29 1
/-- DIES. -/
def tDies (r : Rec) : List Nat := bitList 8 (r.f 30 1)
/-- FLAGS: VERSIONED. -/
def tVersioned (r : Rec) : Bool := bit (r.f 31 1) 0
/-- FLAGS: NO_HOTROW. -/
def tNoHot (r : Rec) : Bool := bit (r.f 31 1) 1
/-- FLAGS: DEFAULT_STORED. -/
def tDefault (r : Rec) : Bool := bit (r.f 31 1) 2
/-- FLAGS: COUNT. -/
def tCount (r : Rec) : Bool := bit (r.f 31 1) 3
/-- DEV_COUNT. -/
def tDevs (r : Rec) : Nat := r.f 32 2
/-- DEV_RANK. -/
def tRank (r : Rec) : Nat := r.f 34 2
/-- TABLE_ID. -/
def tId (r : Rec) : Nat := r.f 4 4

/-- Whether partition `p` may look a table up (R205): its owner, or one of its SHARE_MASK. -/
def tShared (r : Rec) (p : Nat) : Bool := r.part 0 == p || bit (r.f 2 2) p

/-! ## Placement (R198, R199) -/

/-- The bijection of R198 on `n` bits. -/
def placeHash (n i : Nat) : Nat :=
  let m := 2 ^ n
  let sh := (n + 1) / 2
  let h := i
  let h := ((h ^^^ (h >>> sh)) * 0x9E3779B97F4A7C15) % m
  let h := ((h ^^^ (h >>> sh)) * 0xBF58476D1CE4E5B9) % m
  h ^^^ (h >>> sh)

/-- Shards of a table over all its devices. -/
def tShards (r : Rec) : Nat := tDevs r * (tDies r).length

/-- The shard of index `i` and its local row there. -/
def tPlaceOf (r : Rec) (i : Nat) : Nat × Nat :=
  let n := tShards r
  if tPlace r = 1 then
    let span := (tRows r + n - 1) / n
    (i / span, i % span)
  else if tPlace r = 2 then
    let h := placeHash (Nat.log2 (tRows r)) i
    (h % n, h / n)
  else (0, i)

/-- Rank of the device and die that hold a shard. -/
def tShardAt (r : Rec) (sh : Nat) : Nat × Nat :=
  let ds := tDies r
  (sh / ds.length, nth ds (sh % ds.length) 0)

/-- Rows of a table on die `d` of this device. -/
def tLocalRows (r : Rec) (d : Nat) : Nat :=
  if tPlace r = 0 then tRows r
  else
    let sh := tRank r * (tDies r).length + ((tDies r).findIdx? (· == d)).getD 0
    if tPlace r = 1 then
      let span := (tRows r + tShards r - 1) / tShards r
      min span (tRows r - sh * span)
    else tRows r / tShards r

/-- The die of the replica that a lookup with home die `home` reads (R199). -/
def tReplicaDie (r : Rec) (home : Nat) : Nat :=
  if (tDies r).contains home then home else ((nearDies home).find? (fun e => (tDies r).contains e)).getD 0

/-! ## Row classes (R196, R197) -/

/-- Bytes of a row of class `c`. -/
def rowBytes (c w : Nat) : Nat :=
  match c with
  | 0 => 2 * w
  | 1 => w + 1
  | 2 => w + 4
  | _ => w / 2 + (w + 31) / 32

/-- Slot size of class `c`. -/
def slotSize (c w : Nat) : Nat :=
  let b := rowBytes c w
  if b ≤ 16 then 16 else if b ≤ 32 then 32 else if b ≤ 64 then 64 else 16 * ((b + 15) / 16)

/-- An element under a row or group scale; a scale above `lim` counts as 0xFF (R197). -/
def underScale (lim sc : Nat) (x : NumVal) : NumVal :=
  if lim < sc then .nan false 0
  else match x with
    | .fin s m e => .fin s m (e + sc - 127)
    | y => y

/-- ZP of a W8U row as R82 uses it; none for a NaN. -/
def zeroPoint (z : NumVal) : Option Int :=
  match z with
  | .nan _ _ => none
  | .inf s => some (if s then 0 else 255)
  | .fin s m e =>
    let mag : Nat := if 0 ≤ e then m * 2 ^ e.toNat else (rneShift m (-e).toNat).1
    some (max 0 (min (if s then -(mag : Int) else mag) 255))

/-- A row's bytes widened (R197): FP32 values and the flags of R82. -/
def widenRow (w16 c w : Nat) (b : List Nat) : List NumVal × Nat :=
  match c with
  | 0 => ((upto w).map (fun k => decodeNum w16 (fieldOf b (2 * k) 2)), 0)
  | 1 => ((upto w).map (fun k => underScale 0xF6 (nth b w 0) (decodeNum 4 (nth b k 0))), 0)
  | 2 =>
    let sc := decodeNum 2 (fieldOf b w 2)
    (match zeroPoint (decodeNum 2 (fieldOf b (w + 2) 2)) with
     | none => (List.replicate w (.nan false 0), 8)
     | some z =>
       let xs := (upto w).map (fun k => NumVal.mul sc (NumVal.ofInt ((nth b k 0 : Nat) - z)))
       (xs.map (·.1), 8 * b2n (xs.any (·.2))))
  | _ => ((upto w).map (fun k =>
      let v := nth b (k / 2) 0
      underScale 0xFC (nth b (w / 2 + k / 32) 0) (decodeNum 8 (if k % 2 = 0 then v % 16 else v / 16 % 16))), 0)

/-! ## Narrowing of a row (R226) -/

/-- ⌊log₂⌋ of the largest magnitude of finite values; none when all are zero. -/
def amaxExp (xs : List NumVal) : Option Int :=
  xs.foldl (fun l x => match x with
    | .fin _ m e => if m = 0 then l else maxLead l (e + bitLen m - 1)
    | _ => l) none

/-- The scale of R226 for elements with largest exponent `top` of their format, up to `lim`; a NaN among them leaves it open
(log entry 36): `free` is used. -/
def rowScale (top lim : Nat) (free : Nat) (xs : List NumVal) : Nat :=
  if xs.any NumVal.isNan then free % (lim + 1)
  else if xs.any (fun x => match x with | .inf _ => true | _ => false) then lim
  else match amaxExp xs with
    | none => 0x7F
    | some e => (max 0 (min (e - top + 127) (lim : Int))).toNat

/-- A value divided by 2^(S − 127). -/
def unscale (sc : Nat) (x : NumVal) : NumVal :=
  match x with
  | .fin s m e => .fin s m (e - sc + 127)
  | y => y

/-- A nonnegative finite value rounded up to FP16. -/
def roundUpHalf (m : Nat) (e : Int) : Nat :=
  if m = 0 then 0
  else
    let lead : Int := e + bitLen m - 1
    let lsb : Int := max (lead - 10) (-24)
    let q := if lsb ≤ e then m * 2 ^ (e - lsb).toNat else (m + 2 ^ (lsb - e).toNat - 1) / 2 ^ (lsb - e).toNat
    if dyLt 2047 5 q lsb then packInf 2 false else packFloat 2 false q lsb

/-- A number rounded to the nearest integer, ties to even; NaN and infinities give the bounds `lo`, `hi`. -/
def clampRound (lo hi : Int) (x : NumVal) : Int :=
  match x with
  | .nan _ _ => lo
  | .inf s => if s then lo else hi
  | .fin s m e =>
    let mag : Nat := if 0 ≤ e then m * 2 ^ e.toNat else (rneShift m (-e).toNat).1
    max lo (min (if s then -(mag : Int) else mag) hi)

/-- The least or largest of some finite values and zero. -/
def extreme (hi : Bool) (xs : List NumVal) : NumVal :=
  xs.foldl (fun a x => if (if hi then NumVal.lt a x else NumVal.lt x a) then x else a) NumVal.zero

/-- The elements of a row that saturated, and the flags of its conversions (R87-R89, Table 6.1). -/
def cvtNotes (cs : List Cvt) : Nat × Nat := ((cs.filter (·.sat)).length, cs.foldl (fun f c => f ||| c.flags) 0)

/-- FP32 values narrowed into a row of class `c` (R226): its bytes, the elements that saturated and the flags of its conversions; `free` is
used where a value is not finite and the manual states no result (log entry 36). -/
def narrowRow (w16 c : Nat) (free : Nat) (xs : List NumVal) : List Nat × Nat × Nat :=
  let w := xs.length
  match c with
  | 0 =>
    let cs := xs.map (cvtNum w16 false .rne)
    ((cs.map (fun k => natBytes 2 k.val)).flatten, cvtNotes cs)
  | 1 =>
    let sc := rowScale 8 0xF6 free xs
    let cs := xs.map (fun x => cvtNum 4 false .rne (unscale sc x))
    (cs.map (·.val) ++ [sc], cvtNotes cs)
  | 2 =>
    if xs.any (fun x => match x with | .fin _ _ _ => false | _ => true) then
      (natBytes (w + 4) (free % 256 ^ (w + 4)), 0, 8 * b2n (xs.any NumVal.isNan))
    else
      let lo := extreme false xs
      let hi := extreme true xs
      let span := (NumVal.add hi (NumVal.flip true lo)).1
      let sc := match span with
        | .fin _ m e => if m = 0 then 0x3C00 else (let d := finDiv 70 m e 255 0; roundUpHalf d.1 d.2)
        | _ => 0x7C00
      let sn := decodeNum 2 sc
      let zp := clampRound 0 255 (NumVal.div (NumVal.flip true lo) sn).1
      let qs := xs.map (fun x => clampRound (-(2 ^ 40)) (2 ^ 40) (NumVal.div x sn).1 + zp)
      let clips := (qs.filter (fun q => q < 0 || 255 < q)).length
      (qs.map (fun q => (max 0 (min q 255)).toNat) ++ natBytes 2 sc ++ natBytes 2 (cvtNum 2 false .rne (NumVal.ofInt zp)).val,
       clips, b2n (clips != 0))
  | _ =>
    let groups := (upto ((w + 31) / 32)).map (fun g => (xs.drop (32 * g)).take 32)
    let scs := (groups.zipIdx).map (fun g => rowScale 2 0xFC (free / 256 ^ g.2) g.1)
    let cs := (xs.zipIdx).map (fun x => cvtNum 8 false .rne (unscale (nth scs (x.2 / 32) 0) x.1))
    ((upto (w / 2)).map (fun k => (nth cs (2 * k) ⟨0, false, false, false, false⟩).val % 16
        + 16 * ((nth cs (2 * k + 1) ⟨0, false, false, false, false⟩).val % 16)) ++ scs,
     cvtNotes cs)

/-! ## Shard maps (R193, R194) -/

/-- Whether every byte of [a, a + n) is mapped, has die `d` as its point of coherence, is in T1 or T2, and lies in one segment
of partition `p`. -/
def State.rangeOn (s : State) (p d a n : Nat) : Bool :=
  n != 0 && (s.segOf p a n).isSome
  && (match s.phys a, s.phys (a + n - 1) with
      | some x, some y => dieOfPhys x == d && dieOfPhys y == d && tierOf x != 3 && tierOf y != 3
          && (!(decide (0x8000000000 ≤ a) && decide (a < 0xE000000000)) || a / 4096 == (a + n - 1) / 4096)
      | _, _ => false)

/-- A shard entry of 128 bytes. -/
def shardEnt (b : List Nat) : ShardEnt :=
  { die := fieldOf b 0 1, copy := fieldOf b 1 1, dir := fieldOf b 8 8, count := fieldOf b 16 8,
    pools := (upto (fieldOf b 2 1)).map (fun p => TPool.mk (fieldOf b (32 + 16 * p) 8) (fieldOf b (40 + 16 * p) 5) (fieldOf b (45 + 16 * p) 1)) }

/-- The rules of R193 and Table 9.3 on one shard entry. -/
def State.shardOk (s : State) (r : Rec) (b : List Nat) (die copy : Nat) : Bool :=
  let e := shardEnt b
  let p := r.part 0
  let n := tLocalRows r e.die
  let pools := fieldOf b 2 1
  e.die == die && e.copy == copy && 1 ≤ pools && pools ≤ 6 && (tMixed r || pools == 1)
  && fieldOf b 3 5 == 0 && fieldOf b 24 8 == 0 && (upto pools).all (fun k => fieldOf b (46 + 16 * k) 2 == 0)
  && (if tMixed r then n == 0 || s.rangeOn p die e.dir (8 * n) else e.dir == 0)
  && (if tCount r then n == 0 || s.rangeOn p die e.count (2 * n) else e.count == 0)
  && e.pools.all (fun k => k.cls < 4 && aligned k.base 64 && (k.slots == 0 || s.rangeOn p die k.base (k.slots * slotSize k.cls (tWidth r))))
  && (tMixed r || (match e.pools.head? with | some k => decide (n ≤ k.slots) | none => false))

/-- The shard map as it lies at MAP_HANDLE: none if the handle is stale, `some none` if the map is bad. -/
def State.readMap (s : State) (r : Rec) : Option (Option (List ShardEnt)) :=
  match s.handle (r.part 0) (r.f 36 4) with
  | none => none
  | some (a, len, _) =>
    let copies := if tVersioned r then 2 else 1
    let ds := tDies r
    let n := ds.length * copies
    let h := s.readDP a 16
    let slot (i : Nat) := s.readDP (a + 16 + 128 * i) 128
    let ok := fieldOf h 0 1 == n && fieldOf h 1 1 == copies && zeroBytes h 2 16 && decide (16 + 128 * n ≤ len)
      && (upto n).all (fun i => s.shardOk r (slot i) (nth ds (i % ds.length) 0) (i / ds.length))
    some (if ok then some ((upto n).map (fun i => shardEnt (slot i))) else none)

/-- A kept map serves the passes that started after `gen` writes to TE_MAP_INVAL. -/
def TeMap.serves (m : TeMap) (gen : Nat) : Bool := match m.upto with | none => true | some g => decide (gen < g)

/-- The map that engine `eng` keeps for a table, read now if it keeps none for the pass (R193). -/
def State.tableMap (s : State) (eng : Nat) (r : Rec) (gen : Nat) : State × Option (Option (List ShardEnt)) :=
  match s.units.maps.find? (fun m => m.eng == eng && m.table == tId r && m.serves gen) with
  | some m => (s, some (some m.ents))
  | none =>
    match s.readMap r with
    | some (some es) => ({ s with units := { s.units with maps := s.units.maps ++ [{ eng := eng, table := tId r, ents := es }] } }, some (some es))
    | x => (s, x)

/-- TABLE_MAP_ERROR (R193, R194, R219). -/
def State.mapError (s : State) (cid : Nat) (r : Rec) (src : Src) (index : Nat) : State :=
  let p := (s.cmd cid).part
  s.blot { cls := 0x0408, part := p, cmd := some (cmdName cid), src := src, detail := [(tId r, 2), (index % 2 ^ 64, 8)] } (ringsGP p)

/-- The entry of a die and copy. -/
def entOf (es : List ShardEnt) (die copy : Nat) : Option ShardEnt := es.find? (fun e => e.die == die && e.copy == copy)

/-! ## Directory entries (Table 9.4) -/

/-- STATE, POOL and SLOT of a directory entry. -/
def dirState (v : Nat) : Nat := bits v 63 62
def dirPool (v : Nat) : Nat := bits v 61 59
def dirSlot (v : Nat) : Nat := bits v 39 0

/-- A directory entry breaks R194, in any STATE. -/
def dirBad (e : ShardEnt) (v : Nat) : Bool :=
  bits v 58 40 != 0 || (match e.pools[dirPool v]? with | some p => decide (p.slots ≤ dirSlot v) | none => true)

/-- A directory entry's word. -/
def dirWord (st pool slot : Nat) : Nat := st * 2 ^ 62 + pool * 2 ^ 59 + slot

/-- The class and device address of a slot of a shard: its pool's class, in a UNIFORM table too (log entry 198). -/
def rowAt (r : Rec) (e : ShardEnt) (pool slot : Nat) : Nat × Nat :=
  let p := nth e.pools pool ⟨0, 0, 0⟩
  (p.cls, p.base + slot * slotSize p.cls (tWidth r))

/-! ## The hot-row cache (R210, R211) -/

/-- Most sectors of partition `p` a die's cache holds. -/
def State.hotLimit (s : State) (p : Nat) : Nat :=
  match cfgPart s.folio.active p with | some r => r.f 15 1 * 524288 / 100 | none => 0

/-- The hot-row cache of die `d`. -/
def State.hot (s : State) (d : Nat) : List HotEnt := nth s.units.hot d []

/-- The hot-row cache of die `d` changed. -/
def State.updHot (s : State) (d : Nat) (f : List HotEnt → List HotEnt) : State :=
  { s with units := { s.units with hot := updAt s.units.hot d f } }

/-- The last element of a list that satisfies `p`: the least recently used. -/
def lastWhere (p : HotEnt → Bool) (l : List HotEnt) : Option HotEnt := (l.filter p).getLast?

/-- One sector filled. -/
def State.hotFill (s : State) (d : Nat) (h : HotEnt) : State :=
  let lim := s.hotLimit h.part
  if lim = 0 then s
  else
    let l := (s.hot d).filter (fun x => x.sector != h.sector)
    let l := if lim ≤ (l.filter (fun x => x.part == h.part)).length then
        (match lastWhere (fun x => x.part == h.part) l with | some v => l.filter (fun x => x.sector != v.sector) | none => l) else l
    let set (x : HotEnt) := x.sector % 32768 == h.sector % 32768
    let l := if 16 ≤ (l.filter set).length then
        (match lastWhere set l with | some v => l.filter (fun x => x.sector != v.sector) | none => l) else l
    s.updHot d (fun _ => h :: l)

/-- The cached sectors of die `d` dropped where they lie in [a, a + n). -/
def State.hotDrop (s : State) (d a n : Nat) : State := s.updHot d (fun l => l.filter (fun x => !(sectorsOf a n).contains x.sector))

/-- Base of the counters of table `t`, of engine `n` and of the hot-row cache of die `d` (Table 9.13). -/
def tabKey (off t : Nat) : Nat := selKey (0x200000 + off) t
def teBase (n : Nat) : Nat := 0x201000 + 0x100 * n
def hrBase (d : Nat) : Nat := 0x202000 + 0x100 * d

/-- A table counter raised. -/
def State.tabBump (s : State) (off t w n : Nat) : State := if n = 0 then s else s.bump (tabKey off t) w n

/-- Sector `x` of the hot-row cache of die `d` with its SRAM errors (R282): one bit is corrected, a sector with two is dropped; memory always
has its bytes. -/
def State.hotSram (s : State) (d x : Nat) : State :=
  if (s.hot d).any (fun h => h.sector == x) then
    match s.outcome (64 * x) with
    | .sramFixed => s.sramFix
    | .sramClean | .sramDirty _ => s.updHot d (fun l => l.filter (fun h => h.sector != x))
    | _ => s
  else s

/-- Bytes of a table read by engine `eng` for command `cid` at physical address `a`: from the hot-row cache of their die, charged to nothing,
or from memory under the sectors' checks (R213, R283); what is read from memory fills the cache. A sector that is reached through the host or
through a replica enters no cache. `row` says that it is a row, which is counted. -/
def State.rowRead (s : State) (cid eng : Nat) (r : Rec) (row cacheable : Bool) (a n : Nat) : State × UOut :=
  let d := dieOfPhys a
  let secs := sectorsOf a n
  let cacheable := cacheable && secs.all (fun x => !s.inHostBias (64 * x) && !s.pageRetired (64 * x))
  let z := if cacheable then secs.foldl (fun s x => s.hotSram d x) s else s
  if cacheable && secs.all (fun x => (z.hot d).any (fun h => h.sector == x)) then
    let s := z.updHot d (fun l => (l.filter (fun h => secs.contains h.sector)) ++ l.filter (fun h => !secs.contains h.sector))
    let s := if row then (s.bump (hrBase d) 64 1).tabBump 0x20 (tId r) 64 1 else s
    (s, .ok (s.readMem a n))
  else
    let o := z.unitSectors cid ⟨0, eng⟩ a n
    match o.2 with
    | .ok b =>
      let s := o.1.bump (teBase eng + 0x10) 64 secs.length
      let s := if row then (if cacheable then s.bump (hrBase d + 8) 64 1 else s).tabBump 0x18 (tId r) 64 1 else s
      let s := if cacheable then secs.foldl (fun s x => s.hotFill d ⟨x, tId r, r.part 0⟩) s else s
      (s, .ok b)
    | x => (if x == .ended then o.1 else s.waits o.1, x)

/-- The sectors of a hot-row cache that partitions keep under their present shares, most recently used first. -/
def keepHot (lim : Nat → Nat) : List HotEnt → List HotEnt → List HotEnt
  | kept, [] => kept.reverse
  | kept, h :: hs => if (kept.filter (fun k => k.part == h.part)).length < lim h.part then keepHot lim (h :: kept) hs else keepHot lim kept hs

/-- A lower HOTROW_PCT is in force: what a partition holds beyond its share gives way (R210). -/
def State.hotTrim (s : State) : State :=
  { s with units := { s.units with hot := s.units.hot.map (keepHot s.hotLimit []) } }

end Sys2Proof.Machine
end

