-- ==== Sys2Proof/Machine/Session.lean ====
section
/-!
DEFINITION. Saffron (11): SESSION commands and their operations, the resolution of a launch's session list, and the sweep.
-/
namespace Sys2Proof.Machine

/-! ## Session requests (R247) -/

/-- Fields of an operation entry (Table 11.4). -/
def seKey (e : List Nat) : Nat := fieldOf e 0 8
def seOp (e : List Nat) : Nat := fieldOf e 8 1
def seField (e : List Nat) : Nat := fieldOf e 9 1
def seFlags (e : List Nat) : Nat := fieldOf e 10 1
def seLen (e : List Nat) : Nat := fieldOf e 12 2
def seAddr (e : List Nat) : Nat := fieldOf e 16 8
def seTtl (e : List Nat) : Nat := fieldOf e 24 4

/-- FIELD and LEN of an operation follow Table 11.5. -/
def seLenOk (op field len : Nat) : Bool :=
  match op, field with
  | 4, 3 | 6, 3 => 1 ≤ len && len ≤ 208
  | 5, 1 => 16 ≤ len && len ≤ 1024 && aligned len 16
  | 5, 2 => 16 ≤ len && len ≤ 512 && aligned len 16
  | 6, 1 => 16 ≤ len && len ≤ 1024
  | 6, 2 => 16 ≤ len && len ≤ 512
  | 0, 0 | 1, 0 | 2, 0 | 3, 0 | 6, 0 => len == 0
  | _, _ => false

/-- The rules of R247 on an operation entry. -/
def seOk (e : List Nat) : Bool :=
  let vector := seOp e == 5 && seField e == 1
  seKey e != 0 && seOp e ≤ 6 && seFlags e < 4 && seLenOk (seOp e) (seField e) (seLen e)
  && (if vector then 1 ≤ fieldOf e 11 1 && fieldOf e 11 1 ≤ 5 else fieldOf e 11 1 == 0)
  && zeroBytes e 14 16 && zeroBytes e 28 32 && (4 ≤ seOp e || seAddr e == 0)

/-- What SESSION does once what it moves is admitted and the host has released what it writes. -/
def State.doSession (s0 : State) (queue : Nat) (host : HostView) : State :=
  match s0.startable queue 4 with
  | none => s0
  | some cid =>
    let a := (s0.cmd cid).reqAddr
    let u : UnitId := ⟨2, 0⟩
    let s := s0.updCmd cid (fun c => { c with st := .running })
    if !s.saffronOn || !aligned a 64 then s.finish cid 8 1
    else
      let h := s.unitRead cid u host a 64
      match h.2 with
      | .ok hd =>
        let n := fieldOf hd 0 2
        if n = 0 || 4096 < n || !zeroBytes hd 2 8 || !zeroBytes hd 16 64 then h.1.finish cid 8 1
        else
          let b := h.1.unitRead cid u host (a + 64) (32 * n)
          match b.2 with
          | .ok body =>
            let es := (upto n).map (fun i => (body.drop (32 * i)).take 32)
            if !es.all seOk then b.1.finish cid 8 1
            else
              let r : SesCmd := { ents := es, done := List.replicate n false, result := fieldOf hd 8 8 }
              { b.1 with units := { b.1.units with ses := Tbl.set {} b.1.units.ses cid r } }
          | _ => s0.halts b
      | _ => s0.halts h

/-- SESSION (R247): the request is read from die 0's unit (R255) and checked. -/
def execSession (queue : Nat) (host : HostView) (s : State) : Host.Outcome State Fault Refusal :=
  runMem (Instr.wf (.session queue host)) host.ecc s (fun s => s.doSession queue host)

/-! ## The slot under an operation (R250) -/

/-- The present slot of a key as Saffron reads it: charged (R255), its header checked with the other parts that the operation reaches, which
`parts` gives as (offset, length); an uncorrectable error loses the slot, which is then absent (R256). The flag is false while it cannot be
read. -/
def State.slotLook (s : State) (cid k bytes : Nat) (parts : Nat → Nat → List (Nat × Nat)) : State × Option (Nat × Nat) × Bool :=
  let p := (s.cmd cid).part.getD 0
  let d := (keyPlace k).1
  let src : Src := ⟨4, 48 + d⟩
  let s := s.unitPay cid d bytes src
  match s.findSlot p k with
  | none => (s, none, true)
  | some (d, n) =>
    let secs := ((((0, 64) :: parts d n).map (fun x => sectorsOf (slotAddr d n + x.1) x.2)).flatten.eraseDups).map (64 * ·)
    let r := secs.foldl (fun (x : State × Bool × Bool) a =>
      let o := x.1.readSector a (some p) none src
      match o.2 with
      | .data => (o.1, x.2)
      | .replica => (o.1, true, x.2.2)
      | .crcFail | .fail _ _ => (o.1, x.2.1, true)) (s, false, false)
    if r.2.1 then (r.1, none, false)
    else if r.2.2 then ((r.1.heard secs).slotLost (slotAddr d n), none, true)
    else (r.1.heard secs, some (d, n), true)

/-- A timestamp of R242 at the present TIME. -/
def State.stamp (s : State) : Nat := s.time / 1000000 % 2 ^ 32

/-- One entry appended (R242): ITEM and TS; a TS of 0 is the present timestamp (R248). -/
def State.slotAppend (s : State) (d n : Nat) (e : List Nat) : State :=
  let q := s.sf d n 12 1
  let ts := if fieldOf e 8 4 = 0 then s.stamp else fieldOf e 8 4
  let s := (s.slotPut d n (1600 + 8 * q) ((e.take 8))).slotPut d n (3264 + 4 * q) (natBytes 4 ts)
  let s := s.slotPut d n 11 [min (s.sf d n 11 1 + 1) 208, (q + 1) % 208]
  s.slotPut d n 48 (natBytes 4 (satAdd 32 (s.sf d n 48 4) 1))

/-- Ring position of the j-th newest entry (R242). -/
def ringPos (head j : Nat) : Nat := (head + 208 - 1 - j) % 208

/-- The 16-byte entry of a ring position as READ gives it. -/
def State.ringEntry (s : State) (d n q : Nat) : List Nat :=
  natBytes 8 (s.sf d n (1600 + 8 * q) 8) ++ natBytes 4 (s.sf d n (3264 + 4 * q) 4) ++ [0, 0, 0, 0]

/-- What READ of a field gives (Table 11.5). -/
def State.slotField (s : State) (d n field len : Nat) : List Nat :=
  match field with
  | 0 => s.readMem (slotAddr d n) 4096
  | 1 => s.readMem (slotAddr d n + 64) len
  | 2 => s.readMem (slotAddr d n + 1088) len
  | _ => ((upto (min len (s.sf d n 11 1))).map (fun j => s.ringEntry d n (ringPos (s.sf d n 12 1) j))).flatten

/-- Ring positions `qs` as parts of a slot. -/
def ringParts (qs : List Nat) : List (Nat × Nat) := (qs.map (fun q => [(1600 + 8 * q, 8), (3264 + 4 * q, 4)])).flatten

/-- The parts of its slot that an operation reads, or writes in part, besides the header. -/
def State.sesParts (s : State) (e : List Nat) (d n : Nat) : List (Nat × Nat) :=
  let head := s.sf d n 12 1
  match seOp e, seField e with
  | 4, _ => ringParts ((upto (seLen e)).map (fun i => (head + i) % 208))
  | 5, 2 => [(1088, seLen e)]
  | 6, 0 => [(0, 4096)]
  | 6, 1 => [(64, seLen e)]
  | 6, 2 => [(1088, seLen e)]
  | 6, _ => ringParts ((upto (min (seLen e) (s.sf d n 11 1))).map (ringPos head))
  | _, _ => []

/-- A resolution of partition `p` waits at the Saffron unit of die `d`: it comes before the partition's other operations there (R255). -/
def State.resolving (s : State) (p d : Nat) : Bool :=
  s.cids.any (fun cid =>
    let c := s.cmd cid
    c.opcode == 1 && c.st == .placed && !c.sess && c.cause.isNone && c.part == some p
    && ((sessionList c.entry).filter (· != 0)).any (fun e => (keyPlace (nth c.cb (bits e 4 0) 0)).1 == d))

/-- The result of Table 11.6. -/
def State.sesResult (s : State) (slot : Option (Nat × Nat)) (code : Nat) : Nat :=
  match slot with
  | none => code
  | some (d, n) => s.sf d n 44 4 * 2 ^ 32 + s.sf d n 11 1 * 256 + code

/-- The source data of an operation written into its slot: appended entries, a vector or scratch. -/
def State.slotStore (s : State) (d n : Nat) (e data : List Nat) : State :=
  match seOp e, seField e with
  | 4, _ => (upto (seLen e)).foldl (fun s i => s.slotAppend d n ((data.drop (16 * i)).take 16)) s
  | 5, 1 =>
    let s := s.slotPut d n 64 (data ++ List.replicate (1024 - data.length) 0)
    s.slotPut d n 13 (fieldOf e 11 1 :: natBytes 2 (seLen e / fmtBytes (fieldOf e 11 1)))
  | 5, _ => s.slotPut d n 1088 data
  | _, _ => s

/-- Bytes of the source an operation reads. -/
def seSource (e : List Nat) : Nat := if seOp e = 4 then 16 * seLen e else if seOp e = 5 then seLen e else 0

/-- The operation of an entry on its slot (Table 11.5): the state, the slot it left if any, the result's CODE, and the bytes READ
gives. `data` is its source. -/
def State.sesApply (s : State) (p : Nat) (e : List Nat) (slot : Option (Nat × Nat)) (data : List Nat) :
    State × Option (Nat × Nat) × Nat × List Nat :=
  match slot with
  | some (d, n) =>
    if seOp e = 2 then (s.slotKill d n, slot, 3, [])
    else if seOp e = 1 && bit (seFlags e) 1 then (s.slotInit d n p (seKey e) (seTtl e), slot, 1, [])
    else
      let s := if seOp e = 3 && seTtl e != 0 then s.slotPut d n 40 (natBytes 4 (seTtl e)) else s
      let s := (s.slotRefresh d n).slotStore d n e data
      (s, slot, 0, if seOp e = 6 then s.slotField d n (seField e) (seLen e) else [])
  | none =>
    let create := seOp e == 1 || (bit (seFlags e) 0 && (seOp e == 0 || seOp e == 3 || seOp e == 4 || seOp e == 5))
    if !create then (s, none, 2, [])
    else match s.slotInsert p (seKey e) (seTtl e) with
      | (s, .error c) => (s, none, c, [])
      | (s, .ok (d, n)) => (s.slotStore d n e data, some (d, n), 1, [])

/-- One operation of kind `op` reaches its die (R248-R250). -/
def State.sesStep (s0 : State) (cid entry op : Nat) (host : HostView) : State :=
  let r := Tbl.get {} s0.units.ses cid
  match r.ents[entry]? with
  | none => s0
  | some e =>
    let first := (upto entry).all (fun i => seKey (nth r.ents i []) != seKey e || nth r.done i false)
    let p := (s0.cmd cid).part.getD 0
    let d := (keyPlace (seKey e)).1
    if seOp e != op || nth r.done entry true || !first || s0.halted d || s0.resolving p d then s0
    else
      let u : UnitId := ⟨2, d⟩
      let look := s0.slotLook cid (seKey e) (128 + alignUp (seSource e) 64) (s0.sesParts e)
      if !look.2.2 then s0.waits look.1
      else
        let reads := seSource e != 0 && (look.2.1.isSome || (bit (seFlags e) 0 &&
          (match look.1.insertWay p d (keyPlace (seKey e)).2 with | .ok _ => true | .error _ => false)))
        let src := if reads then look.1.unitRead cid u host (seAddr e) (seSource e) else (look.1, UOut.ok [])
        match src.2 with
        | .ok data =>
          let o := src.1.sesApply p e look.2.1 data
          let s := o.1.bump (sesDie d + 8) 64 1
          let w := if o.2.2.2.isEmpty then (s, UOut.ok []) else s.unitWrite cid u host (seAddr e) o.2.2.2
          (match w.2 with
           | .ok _ =>
             let v := w.1.unitWrite cid u host (r.result + 8 * entry) (natBytes 8 (w.1.sesResult o.2.1 o.2.2.1))
             (match v.2 with
              | .ok _ =>
                let r := { r with done := updAt r.done entry (fun _ => true) }
                let s := { v.1 with units := { v.1.units with ses := Tbl.set {} v.1.units.ses cid r } }
                if r.done.all id then s.finish cid 0 0 else s
              | _ => s0.halts v)
           | _ => s0.halts w)
        | _ => s0.halts src

/-- FIND (R248). -/
def execSesFind (queue seq entry : Nat) (host : HostView) (ecc : Sectors) (s : State) : Host.Outcome State Fault Refusal :=
  runMem (Instr.wf (.sesFind queue seq entry host ecc)) (host.ecc ++ ecc) s (fun s => s.sesStep (cidOf queue seq) entry 0 host)

/-- INSERT (R248). -/
def execSesInsert (queue seq entry : Nat) (host : HostView) (ecc : Sectors) (s : State) : Host.Outcome State Fault Refusal :=
  runMem (Instr.wf (.sesInsert queue seq entry host ecc)) (host.ecc ++ ecc) s (fun s => s.sesStep (cidOf queue seq) entry 1 host)

/-- DELETE (R248). -/
def execSesDelete (queue seq entry : Nat) (host : HostView) (ecc : Sectors) (s : State) : Host.Outcome State Fault Refusal :=
  runMem (Instr.wf (.sesDelete queue seq entry host ecc)) (host.ecc ++ ecc) s (fun s => s.sesStep (cidOf queue seq) entry 2 host)

/-- TOUCH (R248). -/
def execSesTouch (queue seq entry : Nat) (host : HostView) (ecc : Sectors) (s : State) : Host.Outcome State Fault Refusal :=
  runMem (Instr.wf (.sesTouch queue seq entry host ecc)) (host.ecc ++ ecc) s (fun s => s.sesStep (cidOf queue seq) entry 3 host)

/-- APPEND (R248). -/
def execSesAppend (queue seq entry : Nat) (host : HostView) (ecc : Sectors) (s : State) : Host.Outcome State Fault Refusal :=
  runMem (Instr.wf (.sesAppend queue seq entry host ecc)) (host.ecc ++ ecc) s (fun s => s.sesStep (cidOf queue seq) entry 4 host)

/-- WRITE (R248). -/
def execSesWrite (queue seq entry : Nat) (host : HostView) (ecc : Sectors) (s : State) : Host.Outcome State Fault Refusal :=
  runMem (Instr.wf (.sesWrite queue seq entry host ecc)) (host.ecc ++ ecc) s (fun s => s.sesStep (cidOf queue seq) entry 5 host)

/-- READ (R248). -/
def execSesRead (queue seq entry : Nat) (host : HostView) (ecc : Sectors) (s : State) : Host.Outcome State Fault Refusal :=
  runMem (Instr.wf (.sesRead queue seq entry host ecc)) (host.ecc ++ ecc) s (fun s => s.sesStep (cidOf queue seq) entry 6 host)

/-! ## Sessions of a launch (R252) -/

/-- One used entry of a launch's session list resolved, its key being `k`: its slot, if one results. -/
def State.resolve1 (s : State) (cid e k : Nat) : State × Option (Nat × Nat) × Bool :=
  let p := (s.cmd cid).part.getD 0
  let o := s.slotLook cid k 128 (fun _ _ => [])
  if !o.2.2 then (o.1, none, false)
  else match o.2.1 with
    | some (d, n) => ((o.1.slotRefresh d n).bump (sesPart p + 8) 64 1, some (d, n), true)
    | none =>
      let s := o.1.bump (sesPart p + 0x10) 64 1
      if bit e 8 then
        (match s.slotInsert p k 0 with
         | (s, .ok x) => (s, some x, true)
         | (s, .error _) => (s, none, true))
      else (s, none, true)

/-- A slot held for a launch, once (R246); the write right of any of its entries counts. -/
def State.holdFor (s : State) (cid d n : Nat) (write : Bool) : State :=
  let c := s.cmd cid
  if c.holds.any (fun h => h.1 == d && h.2.1 == n) then
    s.setCmd cid { c with holds := c.holds.map (fun h => if h.1 = d && h.2.1 = n then (h.1, h.2.1, h.2.2 || write) else h) }
  else (s.setCmd cid { c with holds := c.holds ++ [(d, n, write)] }).slotHold d n 1

/-- The used entries of a session list resolved in turn; or the key whose slot cannot be read yet. -/
def State.resolveList (s : State) (cid : Nat) (cb : List Nat) : List Nat → State × Option Nat
  | [] => (s, none)
  | e :: es =>
    let o := s.resolve1 cid e (nth cb (bits e 4 0) 0)
    if !o.2.2 then (o.1, some (nth cb (bits e 4 0) 0))
    else
      let a := match o.2.1 with | some (d, n) => slotAddr d n | none => nullSlot
      let s := o.1.updCmd cid (fun c => { c with cb := updAt c.cb (bits e 4 0) (fun _ => a) })
      let s := match o.2.1 with | some (d, n) => s.holdFor cid d n (bit e 9) | none => s
      s.resolveList cid cb es

/-- What SESSION_RESOLVE does once what it moves is admitted and the host has released what it writes. -/
def State.doSessionResolve (s : State) (queue seq : Nat) : State :=
  let cid := cidOf queue seq
  let c := s.cmd cid
  let es := (sessionList c.entry).filter (· != 0)
  if c.opcode != 1 || c.st != .placed || c.sess || c.cause.isSome then s
  else if es.any (fun e => s.halted (keyPlace (nth c.cb (bits e 4 0) 0)).1) then s
  else
    let o := s.resolveList cid c.cb es
    match o.2 with
    | none => o.1.updCmd cid (fun c => { c with sess := true })
    | some k => s.waits (s.slotLook cid k 128 (fun _ _ => [])).1

/-- SESSION_RESOLVE (R252): every used entry of a placed launch's session list. -/
def execSessionResolve (queue seq : Nat) (ecc : Sectors) (s : State) : Host.Outcome State Fault Refusal :=
  runMem (Instr.wf (.sessionResolve queue seq ecc)) ecc s (fun s => s.doSessionResolve queue seq)

/-! ## The sweep (R244) -/

/-- What SESSION_SWEEP does once what it moves is admitted and the host has released what it writes. -/
def State.doSessionSweep (s : State) (die slot : Nat) : State :=
  if bit (s.reg 0x300000) 0 && s.saffronOn && slot < 131072 then
    let on := s.units.sweeping.filter (· != die)
    let s := { s with units := { s.units with sweeping := if slot = 131071 then on else die :: on } }
    if s.slotState die slot == 1 && s.slotExpired die slot then s.slotExpire die slot else s
  else s

/-- SESSION_SWEEP: the nib of a die visits one slot and frees it if it has expired and no launch holds it. A sweep is in progress until its
last slot has been visited (log entry 200). -/
def execSessionSweep (die slot : Nat) (s : State) : Host.Outcome State Fault Refusal :=
  runMem (Instr.wf (.sessionSweep die slot)) [] s (fun s => s.doSessionSweep die slot)

end Sys2Proof.Machine
end

