-- ==== Sys2Proof/Machine/Tables.lean ====
section
/-!
DEFINITION. Lookups (09): LOOKUP requests and their passes, classification and deduplication, pooling, outputs, access counts
and the aging sweep.
-/
namespace Sys2Proof.Machine

/-! ## Classification (R198, R199, R202) -/

/-- Where an index of a table lies: nowhere (padding), nowhere (invalid), on a die of this device, or on that of rank `rank`. -/
inductive Place where
  | padding
  | invalid
  | here (die row : Nat)
  | away (rank die row : Nat)
deriving DecidableEq, Repr

/-- The place of an index; `die` is the die that serves a REPLICATED table, `wide` says that indices have 8 bytes. -/
def tFind (r : Rec) (die : Nat) (wide : Bool) (i : Nat) : Place :=
  if i = (if wide then 2 ^ 64 - 1 else 2 ^ 32 - 1) then .padding
  else if tRows r ≤ i then .invalid
  else if tPlace r = 0 then .here die i
  else
    let x := tPlaceOf r i
    let y := tShardAt r x.1
    if y.1 = tRank r then .here y.2 x.2 else .away y.1 y.2 x.2

/-! ## Pass entries (Table 9.8) -/

def peTable (e : List Nat) : Nat := fieldOf e 0 2
def peMode (e : List Nat) : Nat := fieldOf e 2 1
def peFmt (e : List Nat) : Nat := fieldOf e 3 1
def peCtrl (e : List Nat) : Nat := fieldOf e 4 1
def peScale (e : List Nat) : Nat := fieldOf e 5 1
def peBags (e : List Nat) : Nat := fieldOf e 8 4
def pePitch (e : List Nat) : Nat := fieldOf e 12 4

/-- The rules of R201, R205 and R254 on a pass entry of partition `p`. -/
def State.passOk (s : State) (p : Nat) (e : List Nat) : Bool :=
  match cfgTable s.folio.active (peTable e) with
  | none => false
  | some r =>
    let ses := bit (peCtrl e) 3
    tShared r p && peMode e < 4 && 1 ≤ peFmt e && peFmt e ≤ 5 && peCtrl e < 16 && !bit (peCtrl e) 1 && peScale e != 255
    && zeroBytes e 6 8 && zeroBytes e 48 64 && 1 ≤ peBags e && peBags e ≤ 16777216
    && aligned (pePitch e) 16 && tWidth r * fmtBytes (peFmt e) ≤ pePitch e
    && (peMode e == 3 || fieldOf e 32 8 == 0)
    && (!ses || (bit (peCtrl e) 2 && fieldOf e 24 8 == 0 && s.saffronOn))

/-! ## Engines -/

/-- The lookup of command `cid`. -/
def State.teCmd (s : State) (cid : Nat) : TeCmd := Tbl.get {} s.units.te cid

/-- Pass `i` of a lookup. -/
def State.tePass (s : State) (cid i : Nat) : Option TePass := (s.teCmd cid).passes[i]?

/-- Pass `i` changed. -/
def State.updPass (s : State) (cid i : Nat) (f : TePass → TePass) : State :=
  { s with units := { s.units with te := Tbl.upd {} s.units.te cid (fun x => { x with passes := updAt x.passes i f }) } }

/-- Row `j` of pass `i` changed. -/
def State.updTeRow (s : State) (cid i j : Nat) (f : TeRow → TeRow) : State :=
  s.updPass cid i (fun p => { p with rows := updAt p.rows j f })

/-- Occurrences that engine `n` holds. -/
def State.teLoad (s : State) (n : Nat) : Nat :=
  sumN (s.units.te.map (fun c => sumN (c.2.passes.map (fun p => sumN ((p.rows.filter (fun r => r.eng == n && r.st != .done)).map (fun r => r.occ.length))))))

/-- The one of some engines with the least of `f`, the first on a tie. -/
def leastOf (f : Nat → Nat) (ns : List Nat) : Option Nat :=
  ns.foldl (fun m n => match m with | none => some n | some x => if f n < f x then some n else some x) none

/-- The home engine of a new pass of home die `d` (R204): none while none takes it. -/
def State.homeEngine (s : State) (d : Nat) : Option Nat := leastOf s.tePasses ((s.teFor d).filter (fun n => s.tePasses n < 8))

/-- The engine that owns the occurrences of die `d` in a new pass (R204). -/
def State.ownEngine (s : State) (d : Nat) : Option Nat := leastOf s.teLoad (s.teFor d)

/-! ## Bags (R202, R254) -/

/-- The bags of a SESSION pass: indices and weights, by session (R254, R255). `.missing` where nothing can be read yet. -/
def State.sessionBags (s : State) (cid : Nat) (ws : List Nat) (refs : List (List Nat)) : State × List (List (Nat × Nat)) × UOut :=
  let p := (s.cmd cid).part.getD 0
  if refs.any (fun ref => let d := (keyPlace (fieldOf ref 0 8)).1; s.halted d || s.resolving p d) then (s, [], .missing)
  else
    refs.foldl (fun (x : State × List (List (Nat × Nat)) × UOut) ref =>
      match x.2.2 with
      | .ok _ =>
        let ring (s : State) (d n : Nat) : List Nat := (upto (min (fieldOf ref 8 2) (s.sf d n 11 1))).map (ringPos (s.sf d n 12 1))
        let o := x.1.slotLook cid (fieldOf ref 0 8) 2560 (fun d n => ringParts (ring x.1 d n))
        if !o.2.2 then (s.waits o.1, x.2.1, .wait)
        else match o.2.1 with
          | none => (o.1, x.2.1 ++ [[]], .ok [])
          | some (d, n) =>
            let age := fieldOf ref 12 4
            let all := ((ring o.1 d n).zipIdx).map (fun q => (o.1.sf d n (1600 + 8 * q.1) 8, nth ws q.2 0, o.1.sf d n (3264 + 4 * q.1) 4))
            let young := all.takeWhile (fun it => age == 0 || (o.1.stamp + 2 ^ 32 - it.2.2) % 2 ^ 32 ≤ age)
            (o.1, x.2.1 ++ [young.map (fun it => (it.1, it.2.1))], .ok [])
      | _ => x) (s, [], UOut.ok [])

/-- A SESSION reference breaks Table 11.8. -/
def refBad (ref : List Nat) : Bool :=
  fieldOf ref 0 8 == 0 || fieldOf ref 8 2 == 0 || decide (208 < fieldOf ref 8 2) || fieldOf ref 10 2 != 0

/-- Offsets that R202 allows. -/
def offsetsOk (os : List Int) : Bool :=
  os.head? == some 0 && (os.zip (os.drop 1)).all (fun p => p.1 ≤ p.2 && p.2 ≤ p.1 + 4096) && decide (os.getLastD 0 ≤ 2 ^ 28)

/-- The bags of a pass as its home engine reads them: (index, FP16 weight) of each occurrence; none where they break R202. -/
def State.readBags (s : State) (cid : Nat) (u : UnitId) (host : HostView) (e : List Nat) : State × Option (List (List (Nat × Nat))) × UOut :=
  let b := peBags e
  let w := if bit (peCtrl e) 2 then 8 else 4
  let ia := fieldOf e 16 8
  let wa := fieldOf e 32 8
  if bit (peCtrl e) 3 then
    let o := s.unitReads cid u host ((ia, 16 * b) :: (if peMode e = 3 then [(wa, 416)] else []))
    match o.2 with
    | .ok l =>
      let refs := (upto b).map (fun i => (l.drop (16 * i)).take 16)
      if refs.any refBad then (o.1, none, .ok [])
      else
        let ws := (upto 208).map (fun j => fieldOf l (16 * b + 2 * j) 2)
        let x := o.1.sessionBags cid ws refs
        (x.1, some x.2.1, x.2.2)
    | x => (o.1, none, x)
  else
    let oa := fieldOf e 24 8
    let offs := if oa = 0 then (s, UOut.ok []) else s.unitRead cid u host oa (4 * (b + 1))
    match offs.2 with
    | .ok l =>
      let os : List Int := if oa = 0 then (upto (b + 1)).map (fun (i : Nat) => (i : Int)) else (upto (b + 1)).map (fun i => signed 32 (fieldOf l (4 * i) 4))
      if !offsetsOk os then (offs.1, none, .ok [])
      else
        let n := (os.getLastD 0).toNat
        let o := offs.1.unitReads cid u host ((ia, w * n) :: (if peMode e = 3 then [(wa, 2 * n)] else []))
        (match o.2 with
         | .ok d =>
           (o.1, some ((os.zip (os.drop 1)).map (fun p => (upto (p.2 - p.1).toNat).map (fun k =>
             let j := p.1.toNat + k
             (fieldOf d (w * j) w, fieldOf d (w * n + 2 * j) 2)))), .ok [])
         | x => (o.1, none, x))
    | x => (offs.1, none, x)

/-! ## Deduplication (R207) -/

/-- Rows of one engine's hash unit: the same engine, the same remote device. -/
def TeRow.sameUnit (a b : TeRow) : Bool := a.eng == b.eng && a.remote == b.remote && a.dflt == b.dflt

/-- One occurrence joined to the rows so far, latest first: it merges with its row in the open sub-pass, or is a new row; the
65,537th closes the sub-pass. -/
def addOcc (rows : List TeRow) (x : TeRow) : List TeRow :=
  let sub := ((rows.find? (fun r => r.sameUnit x)).map (·.sub)).getD 0
  if rows.any (fun r => r.sameUnit x && r.sub == sub && r.idx == x.idx) then
    rows.map (fun r => if r.sameUnit x && r.sub == sub && r.idx == x.idx then { r with occ := r.occ ++ x.occ } else r)
  else if (rows.filter (fun r => r.sameUnit x && r.sub == sub)).length < 65536 then { x with sub := sub } :: rows
  else { x with sub := sub + 1 } :: rows

/-- The counters of the sub-passes of a pass's rows (R207, Table 9.13). The default row of invalid indices is in no hash unit. -/
def State.dedupCount (s : State) (t : Nat) (rows : List TeRow) : State :=
  let rows := rows.filter (fun r => !r.dflt)
  let units := rows.foldl (fun (l : List TeRow) r => if l.any (fun x => x.sameUnit r) then l else l ++ [r]) []
  units.foldl (fun s u =>
    let mine := rows.filter (fun r => r.sameUnit u)
    let last := mine.foldl (fun m r => max m r.sub) 0
    let s := (upto (last + 1)).foldl (fun s k => s.maxReg (teBase u.eng + 0x18) 32 (mine.filter (fun r => r.sub == k)).length) s
    s.tabBump 0x38 t 32 last) s

/-- Every earlier sub-pass of row `j`'s unit is done. -/
def TePass.openRow (p : TePass) (j : Nat) : Bool :=
  match p.rows[j]? with
  | none => false
  | some x => x.st != .done && p.rows.all (fun r => !(r.sameUnit x) || x.sub ≤ r.sub || r.st == .done)

/-! ## Remote rows (R212) -/

/-- The shard entry a pass uses for a die: of the copy its epoch names. -/
def TePass.ent (p : TePass) (r : Rec) (es : List ShardEnt) (die : Nat) : Option ShardEnt :=
  entOf es die (if tVersioned r then p.epoch % 2 else 0)

/-- The get of one remote row, or of its directory entry, issued. -/
def State.remoteGet (s : State) (cid i j : Nat) (r : Rec) (p : TePass) (x : TeRow) : State :=
  match x.remote, (s.tableMap p.home r p.gen).2 with
  | some (rank, flow), some (some es) =>
    (match p.ent r es x.die with
     | none => s
     | some e =>
       if tMixed r then
         let o := s.lookupGet cid p.home (tId r) rank flow (e.dir + 8 * x.row) 8
         o.1.updTeRow cid i j (fun y => { y with st := .gettingDir, op := o.2 })
       else
         let a := rowAt r e 0 x.row
         let o := s.lookupGet cid p.home (tId r) rank flow a.2 (rowBytes a.1 (tWidth r))
         o.1.updTeRow cid i j (fun y => { y with st := .gettingRow, op := o.2 }))
  | _, _ => s

/-- Gets issued for every remote row whose turn it is. -/
def State.remoteKick (s : State) (cid i : Nat) : State :=
  match s.tePass cid i with
  | none => s
  | some p0 => (upto p0.rows.length).foldl (fun s j =>
      match s.tePass cid i with
      | none => s
      | some p =>
        match p.rows[j]?, cfgTable s.folio.active (peTable p.entry) with
        | some x, some r => if x.remote.isSome && x.st == .waiting && p.openRow j then s.remoteGet cid i j r p x else s
        | _, _ => s) s

/-! ## Starting a pass (R204) -/

/-- The rows of a pass from its bags: padding dropped, occurrences owned by the engines of their dies. -/
def passRows (r : Rec) (home homeDie : Nat) (wide : Bool) (own : Nat → Nat) (flow : Nat → Nat) (bags : List (List (Nat × Nat))) : List TeRow :=
  (bags.zipIdx.foldl (fun rows b => (b.1.zipIdx).foldl (fun rows o =>
    let occ := [(b.2, o.1.2, o.2)]
    match tFind r (tReplicaDie r homeDie) wide o.1.1 with
    | .padding => rows
    | .invalid => addOcc rows { eng := home, sub := 0, idx := 0, die := 0, row := 0, dflt := true, occ := occ }
    | .here d l => addOcc rows { eng := own d, sub := 0, idx := o.1.1, die := d, row := l, occ := occ }
    | .away k d l => addOcc rows { eng := home, sub := 0, idx := o.1.1, die := d, row := l, remote := some (k, flow k), occ := occ }) rows) []).reverse

/-- A waiting pass started at an engine of its home die; `.missing` and `.wait` leave it waiting. The replica that it reads is that of its home
die (R199, R204), whichever engine does its work. -/
def State.passStart (s : State) (cid i : Nat) (host : HostView) : State × UOut :=
  match s.tePass cid i with
  | none => (s, .missing)
  | some p =>
    match cfgTable s.folio.active (peTable p.entry), s.homeEngine (s.teCmd cid).die with
    | some r, some home =>
      let e := p.entry
      let own := (upto 8).map s.ownEngine
      let stale := (s.handle (r.part 0) (r.f 36 4)).isNone || (decide (1 < tDevs r) && (s.handle (r.part 0) (r.f 40 4)).isNone)
        || (tDefault r && (s.handle (r.part 0) (r.f 44 4)).isNone)
      if stale then (s.endCmd cid 9 0 [] true, .ended)
      else if s.stray (r.part 0) (r.f 36 4) || (decide (1 < tDevs r) && s.stray (r.part 0) (r.f 40 4)) || (tDefault r && s.stray (r.part 0) (r.f 44 4)) then
        (s.endCmd cid 8 1 [] true, .ended)
      else
        let m := s.tableMap home r s.units.mapGen
        (match m.2 with
         | some (some _) =>
           let b := m.1.readBags cid ⟨0, home⟩ host e
           (match b.2.2 with
            | .ok _ =>
              (match b.2.1 with
               | none => (b.1.endCmd cid 8 1 [] true, .ended)
               | some bags =>
                 let peers := ((b.1.handle (r.part 0) (r.f 40 4)).map (·.1)).getD 0
                 let wide := bit (peCtrl e) 2
                 let rows := passRows r home (s.teCmd cid).die wide (fun d => (nth own d none).getD 16)
                   (fun k => b.1.numDP (peers + 8 * k) 2) bags
                 if rows.any (fun x => x.eng == 16) then (s, .missing)
                 else
                   let pad := if wide then 2 ^ 64 - 1 else 2 ^ 32 - 1
                   let s := (b.1.dedupCount (tId r) rows).concern cid (home / 2)
                   let s := rows.foldl (fun s x => s.concern cid (x.eng / 2)) s
                   let s := s.updPass cid i (fun p => { p with
                     home := home, started := true, epoch := (s.tab (tId r)).epoch, gen := s.units.mapGen, rows := rows,
                     lens := bags.map (fun b => (b.filter (fun o => o.1 != pad)).length) })
                   ((s.maxReg (teBase home + 0x1C) 32 (s.time - p.since.getD s.time)).remoteKick cid i, .ok []))
            | x => (b.1, x))
         | some none => ((m.1.mapError cid r ⟨3, home⟩ 0).endCmd cid 8 1 [] true, .ended)
         | none => (m.1.endCmd cid 9 0 [] true, .ended))
    | _, _ => (s, .missing)

/-- Every waiting pass of a lookup that an engine takes started; where no table engine of the device remains, its launch ends (R69). -/
def State.startPasses (s : State) (cid : Nat) (host : HostView) : State :=
  (upto (s.teCmd cid).passes.length).foldl (fun s i =>
    match s.tePass cid i with
    | none => s
    | some p =>
      if p.started then s
      else if s.noEngines then s.endCmd cid 8 9 [] true
      else
        let o := s.passStart cid i host
        match o.2 with
        | .missing =>
          if (s.homeEngine (s.teCmd cid).die).isSome then s
          else s.updPass cid i (fun p => { p with since := p.since.or (some s.time) })
        | .ok _ => o.1
        | _ => s.halts o) s

/-- The unit that reads a request of a table engine before its home die is known: none while none takes work (R295). -/
def State.readerTe (s : State) (cid : Nat) : Option UnitId := (s.teFor (s.cmdDie cid)).head?.map (fun n => ⟨0, n⟩)

/-- A lookup request read at address `a` and checked (R201), its passes set up. -/
def State.lookupBegin (s0 : State) (cid a : Nat) (launch : Bool) (die : Nat) (host : HostView) : State :=
  let p := (s0.cmd cid).part.getD 0
  let bad (s : State) (d : Nat) : State := if launch then s.endCmd cid 8 d [] true else s.finish cid 8 d
  let s := if launch then s0 else s0.updCmd cid (fun c => { c with st := .running })
  if s.noEngines then bad s 9
  else if !launch && !aligned a 64 then bad s 1
  else match s0.readerTe cid with
    | none => s0
    | some u =>
      let h := s.unitRead cid u host a 64
      match h.2 with
      | .ok hd =>
        let n := fieldOf hd 0 2
        if n = 0 || 1024 < n || 8 ≤ fieldOf hd 2 1 || !zeroBytes hd 3 64 then bad h.1 1
        else
          let b := h.1.unitRead cid u host (a + 64) (64 * n)
          (match b.2 with
           | .ok body =>
             let es := (upto n).map (fun i => (body.drop (64 * i)).take 64)
             if !es.all (b.1.passOk p) then bad b.1 1
             else
               let c : TeCmd := { passes := es.map (fun e => { entry := e }), die := if launch then die else fieldOf hd 2 1 % 8, launch := launch }
               ({ b.1 with units := { b.1.units with te := Tbl.set {} b.1.units.te cid c } }).startPasses cid host
           | _ => s0.halts b)
      | _ => s0.halts h

/-- What LOOKUP does once what it moves is admitted and the host has released what it writes. -/
def State.doLookup (s : State) (queue : Nat) (going : Option Nat) (host : HostView) : State :=
  match going with
  | none => (match s.startable queue 2 with | none => s | some cid => s.lookupBegin cid (s.cmd cid).reqAddr false 0 host)
  | some seq =>
    let cid := cidOf queue seq
    let c := s.cmd cid
    if !(s.teCmd cid).passes.isEmpty then s.startPasses cid host
    else match c.lookup with
      | some a =>
        if c.st == .placed && c.sess && !c.look && c.cause.isNone then
          s.lookupBegin cid a true (dieOfTile ((c.tiles.head?).getD 0)) host
        else s
      | none => s

/-- LOOKUP (R201, R204): a LOOKUP command begins; or, with `going`, waiting passes of a command start, or a placed launch's own
lookup request begins. -/
def execLookup (queue : Nat) (going : Option Nat) (host : HostView) (s : State) : Host.Outcome State Fault Refusal :=
  runMem (Instr.wf (.lookup queue going host)) host.ecc s (fun s => s.doLookup queue going host)

/-! ## Rows (R194, R203, R208, R212) -/

/-- Bytes of table memory at a device address, piece by piece. -/
def State.tableBytes (s : State) (cid eng : Nat) (r : Rec) (a n : Nat) : State × UOut :=
  (cuts 64 n).foldl (fun (x : State × UOut) c =>
    match x.2 with
    | .ok d =>
      let o := x.1.rowRead cid eng r false false ((x.1.phys (a + c.1)).getD 0) c.2
      (match o.2 with | .ok e => (o.1, .ok (d ++ e)) | y => (o.1, y))
    | _ => x) (s, UOut.ok [])

/-- The default row (R203). -/
def State.defaultRow (s : State) (cid eng : Nat) (r : Rec) : State × List NumVal × UOut :=
  if !tDefault r then (s, List.replicate (tWidth r) NumVal.zero, .ok [])
  else if s.stray (r.part 0) (r.f 44 4) then (s.endCmd cid 8 1 [] true, [], .ended)
  else match s.handle (r.part 0) (r.f 44 4) with
    | none => (s.endCmd cid 9 0 [] true, [], .ended)
    | some (a, _, _) =>
      let o := s.tableBytes cid eng r a (4 * tWidth r)
      match o.2 with
      | .ok d => (o.1, (upto (tWidth r)).map (fun k => decodeNum 1 (fieldOf d (4 * k) 4)), .ok [])
      | x => (o.1, [], x)

/-- What one occurrence brings to each element of its bag (Table 9.10). -/
def poolTerms (vals : List NumVal) (weight : Option Nat) : List (Nat × Contrib) :=
  let w : NumVal := match weight with | some w => decodeNum 2 w | none => .fin false 1 0
  (vals.zipIdx).map (fun x => (x.2, Contrib.term {} 2 false x.1 w))

/-- FP32 encoding of a value that FP32 holds. -/
def f32 (x : NumVal) : Nat := (cvtFloat 1 true .rne x).val

/-- The NaN operands of a contribution noted: of each element the one whose place in its bag is least (R139, log entry 201). -/
def noteNan (pos : Nat) (l : List (Nat × Nat × Bool)) (ts : List (Nat × Contrib)) : List (Nat × Nat × Bool) :=
  ts.foldl (fun l t =>
    match t.2.zeroInf.or t.2.nanOp with
    | none => l
    | some sg =>
      match l.find? (fun x => x.1 == t.1) with
      | some x => if pos < x.2.1 then (t.1, pos, sg) :: l.filter (fun y => y.1 != t.1) else l
      | none => (t.1, pos, sg) :: l) l

/-- A widened row pooled for each of its occurrences at engine `eng`. -/
def State.poolRow (s : State) (cid i : Nat) (r : Rec) (x : TeRow) (vals : List NumVal) : State :=
  match s.tePass cid i with
  | none => s
  | some p =>
    let mode := peMode p.entry
    let pools := x.occ.foldl (fun (a : List TePool × Nat) o =>
      let q := (a.1.find? (fun q => q.eng == x.eng && q.bag == o.1)).getD { eng := x.eng, bag := o.1 }
      let rest := a.1.filter (fun q => !(q.eng == x.eng && q.bag == o.1))
      let terms := poolTerms vals (if mode = 3 then some o.2.1 else none)
      let q := { q with nan := noteNan o.2.2 q.nan terms }
      if mode = 2 then
        let mx := if q.mx.isEmpty then vals.map f32 else ((q.mx.zip vals).map (fun y => f32 (numMinMax true (decodeNum 1 y.1) y.2)))
        ({ q with mx := mx } :: rest, a.2 ||| (if vals.any NumVal.isNan then 8 else 0))
      else
        let g := q.bank.addGroup 1 terms
        ({ q with bank := g.bank } :: rest, a.2 ||| g.flags)) (p.pools, 0)
    let s := s.updPass cid i (fun p => { p with pools := pools.1 })
    let s := (s.raiseCmd cid pools.2).tabBump 0x10 (tId r) 64 x.occ.length
    s.bump (teBase x.eng + 8) 64 x.occ.length

/-- Row `j` done with values `vals`. -/
def State.rowDone (s : State) (cid i j : Nat) (r : Rec) (x : TeRow) (vals : List NumVal) : State :=
  ((s.poolRow cid i r x vals).updTeRow cid i j (fun y => { y with st := .done })).remoteKick cid i

/-- Row `j` takes the default row, counted for each of its uses. -/
def State.rowDefault (s : State) (cid i j : Nat) (r : Rec) (x : TeRow) (counter : Nat) : State :=
  let o := s.defaultRow cid x.eng r
  match o.2.2 with
  | .ok _ => (o.1.tabBump counter (tId r) 32 x.occ.length).rowDone cid i j r x o.2.1
  | _ => s.halts (o.1, o.2.2)

/-- A row's bytes widened for its pass; the flags are charged to the command. -/
def State.rowWiden (s : State) (cid : Nat) (r : Rec) (cls : Nat) (b : List Nat) : State × List NumVal :=
  let v := widenRow (r.f 28 1) cls (tWidth r) b
  (s.raiseCmd cid v.2, v.1)

/-! ## Counts (R195) -/

/-- The class a count places a row in. -/
def classFor (r : Rec) (count : Nat) : Nat :=
  if r.f 52 2 ≤ count then r.f 49 1 else if r.f 54 2 ≤ count then r.f 50 1 else r.f 51 1

/-- A row offered for migration where its count places it in another class; rows of VERSIONED tables never migrate (R229). -/
def State.offer (s : State) (r : Rec) (e : ShardEnt) (l count : Nat) : State :=
  let v := s.numDP (e.dir + 8 * l) 8
  let key := (e.die, tId r, l)
  if tVersioned r || dirBad e v || dirState v != 1 || (nth e.pools (dirPool v) ⟨0, 0, 0⟩).cls == classFor r count || s.units.offers.contains key
  then s
  else { s with units := { s.units with offers := s.units.offers ++ [key] } }

/-- Whether the sampling hash, which the manual does not give, selects a row (log entry 38). -/
def State.sampled (s : State) (r : Rec) : State × Bool :=
  if tCount r && bit (s.reg 0x200000) 1 then (s.useFree, s.freeVal % 2 ^ r.f 48 1 == 0) else (s, false)

/-- A count on this device raised by one, saturating. -/
def State.countRow (s : State) (r : Rec) (e : ShardEnt) (l : Nat) : State :=
  let a := e.count + 2 * l
  let v := min (s.numDP a 2 + 1) 65535
  ((s.devPut none a (natBytes 2 v)).1.bump (redBase e.die + 0x10) 64 1).offer r e l v

/-! ## ROW_FETCH_COMPLETE -/

/-- A get of a lookup has received all its bytes. -/
def QOp.full (o : QOp) : Bool := o.len ≤ sumN (o.got.map (fun g => g.2.2.2))

/-- The directory or shard entry is bad (R194). -/
def State.dirError (s : State) (cid : Nat) (r : Rec) (x : TeRow) : State :=
  (s.mapError cid r ⟨3, x.eng⟩ x.idx).endCmd cid 8 1 [] true

/-- Row `j` of a pass is the first of its sub-passes with its index: the sampling counts a distinct row of a pass once (R195). -/
def TePass.firstMet (p : TePass) (j : Nat) : Bool :=
  match p.rows[j]? with
  | none => false
  | some x => !(p.rows.take j).any (fun r => r.sameUnit x && r.idx == x.idx)

/-- A remote row, or its directory entry, has arrived (R212). -/
def State.remoteRow (s : State) (cid i j : Nat) (r : Rec) (p : TePass) (x : TeRow) (e : ShardEnt) (rank flow : Nat) : State :=
  match s.fab.ops.find? (fun o => o.id == x.op && o.full) with
  | none => s
  | some o =>
    let s := { s with fab := { s.fab with ops := s.fab.ops.filter (fun y => y.id != o.id) } }
    if x.st == .gettingDir then
      let v := fieldOf o.data 0 8
      if dirBad e v then s.dirError cid r x
      else if dirState v = 0 then s.rowDefault cid i j r x 0x34
      else
        let a := rowAt r e (dirPool v) (dirSlot v)
        let g := s.lookupGet cid p.home (tId r) rank flow a.2 (rowBytes a.1 (tWidth r))
        g.1.updTeRow cid i j (fun y => { y with st := .gettingRow, op := g.2, entry := v })
    else
      let s := s.tabBump 0x28 (tId r) 64 1
      let z := if p.firstMet j then s.sampled r else (s, false)
      let s := if z.2 then z.1.lookupCount cid p.home (tId r) rank flow (e.count + 2 * x.row) else z.1
      let v := s.rowWiden cid r (rowAt r e (dirPool x.entry) (dirSlot x.entry)).1 o.data
      v.1.rowDone cid i j r x v.2

/-- A pass has read the directory entry of a row that is migrating (R231). -/
def State.noteReader (s : State) (die table row : Nat) (who : Nat × Nat) : State :=
  let f (m : Mig) : Mig :=
    if m.die = die && m.table = table && m.row = row && !m.flipped && !m.readers.contains who then { m with readers := who :: m.readers } else m
  { s with units := { s.units with migs := s.units.migs.map f } }

/-- A row of this device read by its owning engine: first its directory entry in a MIXED table, then the row. -/
def State.localRow (s : State) (cid i j : Nat) (r : Rec) (p : TePass) (x : TeRow) (e : ShardEnt) : State :=
  if tMixed r && x.st == .waiting then
    let o := s.rowRead cid x.eng r false true ((s.phys (e.dir + 8 * x.row)).getD 0) 8
    match o.2 with
    | .ok d =>
      let v := fieldOf d 0 8
      if dirBad e v then o.1.dirError cid r x
      else if dirState v = 0 then o.1.rowDefault cid i j r x 0x34
      else
        (o.1.noteReader e.die (tId r) x.row (cid, i)).updTeRow cid i j (fun y => { y with st := .gettingRow, entry := v })
    | _ => s.halts o
  else
    let a := if tMixed r then rowAt r e (dirPool x.entry) (dirSlot x.entry) else rowAt r e 0 x.row
    let o := s.rowRead cid x.eng r true (!tNoHot r) ((s.phys a.2).getD 0) (rowBytes a.1 (tWidth r))
    match o.2 with
    | .ok d =>
      let z := if p.firstMet j then o.1.sampled r else (o.1, false)
      let s := if z.2 then z.1.countRow r e x.row else z.1
      let v := s.rowWiden cid r a.1 d
      v.1.rowDone cid i j r x v.2
    | _ => s.halts o

/-- What ROW_FETCH_COMPLETE does once what it moves is admitted and the host has released what it writes. -/
def State.doRowFetchComplete (s : State) (queue seq pass row : Nat) : State :=
  let cid := cidOf queue seq
  match s.tePass cid pass with
  | none => s
  | some p =>
    match p.rows[row]?, cfgTable s.folio.active (peTable p.entry) with
    | some x, some r =>
      if !p.started || p.done || !p.openRow row then s
      else if x.dflt then s.rowDefault cid pass row r x 0x30
      else
        let m := s.tableMap (if x.remote.isSome then p.home else x.eng) r p.gen
        (match m.2 with
         | none => m.1.endCmd cid 9 0 [] true
         | some none => m.1.dirError cid r x
         | some (some es) =>
           match p.ent r es x.die with
           | none => m.1.dirError cid r x
           | some e =>
             match x.remote with
             | some (rank, flow) => if x.st == .waiting then m.1 else m.1.remoteRow cid pass row r p x e rank flow
             | none => m.1.localRow cid pass row r p x e)
    | _, _ => s

/-- ROW_FETCH_COMPLETE (R204): a distinct row of a pass, or its directory entry, arrives at its owning engine. -/
def execRowFetchComplete (queue seq pass row : Nat) (ecc : Sectors) (s : State) : Host.Outcome State Fault Refusal :=
  runMem (Instr.wf (.rowFetchComplete queue seq pass row ecc)) ecc s (fun s => s.doRowFetchComplete queue seq pass row)

/-! ## PASS_COMPLETE (R204, R209) -/

/-- One accumulator of a partial pool as a contribution (R208). -/
def LAcc.contrib (a : LAcc) (anchor : Option Nat) : Contrib :=
  match a.cls with
  | .posInf => { pInf := true }
  | .negInf => { nInf := true }
  | .nan => { nanOp := some a.sign }
  | .finite =>
    if a.val = 0 then {}
    else
      let e := winExp (anchor.getD 0)
      { sumZ := a.val, sumE := e, lead := some (e + bitLen a.val.natAbs - 1) }

/-- A partial pool added at the home engine; dropped bits stay recorded. -/
def addPool (w : Nat) (a b : Bank) : Bank × Nat :=
  let g := a.addGroup 1 ((upto w).map (fun k => (k, (b.get k).contrib b.anchor)))
  ((upto w).foldl (fun x k => if (b.get k).sticky && (x.get k).cls == .finite then x.put k { x.get k with sticky := true } else x) g.bank, g.flags)

/-- The partial pools of a bag, the home engine's first, then by engine. -/
def TePass.bagPools (p : TePass) (b : Nat) : List TePool :=
  let mine := p.pools.filter (fun q => q.bag == b)
  mine.filter (fun q => q.eng == p.home) ++ ((upto 16).filter (· != p.home)).flatMap (fun n => mine.filter (fun q => q.eng == n))

/-- The results of a bag before conversion, with the flags of adding its partials. -/
def TePass.bagResult (p : TePass) (w b : Nat) : List NumVal × Nat :=
  let n := nth p.lens b 0
  let nans := (p.bagPools b).map (·.nan)
  -- a NaN has the sign of the NaN operand that comes first in the bag; without one, opposite infinities made it
  let fix (k : Nat) (v : NumVal) : NumVal :=
    match v with
    | .nan _ pay =>
      .nan ((((nans.flatten.filter (fun x => x.1 == k)).foldl (fun (m : Option (Nat × Bool)) x =>
        match m with | none => some x.2 | some y => if x.2.1 < y.1 then some x.2 else m) none).map (·.2)).getD false) pay
    | v => v
  let fixes (vs : List NumVal) : List NumVal := (vs.zipIdx).map (fun v => fix v.2 v.1)
  match p.bagPools b with
  | [] => (List.replicate w NumVal.zero, 0)
  | q :: qs =>
    if n = 0 then (List.replicate w NumVal.zero, 0)
    else if peMode p.entry = 2 then
      (fixes (((qs.foldl (fun (m : List Nat) x => (m.zip x.mx).map (fun y => f32 (numMinMax true (decodeNum 1 y.1) (decodeNum 1 y.2)))) q.mx)).map (decodeNum 1)), 0)
    else
      let t := qs.foldl (fun (a : Bank × Nat) x => let y := addPool w a.1 x.bank; (y.1, a.2 ||| y.2)) (q.bank, 0)
      let vals := fixes ((upto w).map (fun k => (t.1.get k).toNum t.1.anchor))
      (if peMode p.entry = 1 then vals.map (fun v => (NumVal.div v (NumVal.ofInt n)).1) else vals, t.2)

/-- An output element (R209): divided by 2^(OUT_SCALE − 127) and converted once; a NaN carries the bag's position. -/
def outElem (e : List Nat) (bag : Nat) (x : NumVal) : Cvt :=
  match x with
  | .nan sg _ => cvtFloat (peFmt e) (bit (peCtrl e) 0) .rne (.nan sg (nanPayload .nanOperand (min bag 0xFFFFFF) * 2 ^ 19))
  | y => cvtFloat (peFmt e) (bit (peCtrl e) 0) .rne (unscale (peScale e) y)

/-- The output rows of a pass written in bag order. -/
def State.writeBags (s : State) (cid : Nat) (host : HostView) (p : TePass) (w : Nat) : List Nat → State × UOut
  | [] => (s, .ok [])
  | b :: bs =>
    let v := p.bagResult w b
    let cs := v.1.map (outElem p.entry b)
    let eng := match p.bagPools b with | [q] => q.eng | _ => p.home
    let s := (s.raiseCmd cid (cs.foldl (fun f c => f ||| c.flags) v.2)).satCmd cid (cs.filter (·.sat)).length
    let o := s.unitWrite cid ⟨0, eng⟩ host (fieldOf p.entry 40 8 + b * pePitch p.entry) ((cs.map (fun c => natBytes (fmtBytes (peFmt p.entry)) c.val)).flatten)
    match o.2 with
    | .ok _ => o.1.writeBags cid host p w bs
    | x => (o.1, x)

/-- What PASS_COMPLETE does once what it moves is admitted and the host has released what it writes. -/
def State.doPassComplete (s : State) (queue seq pass : Nat) (host : HostView) : State :=
  let cid := cidOf queue seq
  match s.tePass cid pass with
  | none => s
  | some p =>
    match cfgTable s.folio.active (peTable p.entry) with
    | none => s
    | some r =>
      if !p.started || p.done || !p.rows.all (fun x => x.st == .done) then s
      else
        let o := s.writeBags cid host p (tWidth r) (upto (peBags p.entry))
        match o.2 with
        | .missing | .wait | .ended => s.halts o
        | .ok _ =>
          let s := (o.1.updPass cid pass (fun p => { p with done := true, rows := [], pools := [] })).tabBump 0x3C (tId r) 32 1
          let c := s.teCmd cid
          if !c.passes.all (·.done) then s
          else
            let s := { s with units := { s.units with te := Tbl.erase s.units.te cid } }
            if c.launch then s.updCmd cid (fun c => { c with look := true, lookSum := c.numsum, lookSats := c.sats }) else s.finish cid 0 0

/-- PASS_COMPLETE: every output row is written; with its last pass the lookup ends (R204). -/
def execPassComplete (queue seq pass : Nat) (host : HostView) (s : State) : Host.Outcome State Fault Refusal :=
  runMem (Instr.wf (.passComplete queue seq pass host)) host.ecc s (fun s => s.doPassComplete queue seq pass host)

/-! ## Maps and aging (R193, R195) -/

/-- TE_MAP_INVAL_WRITE: one or every table's map is read again at its next pass; a pass under way keeps the one it has (Table 9.14). -/
def execTeMapInvalWrite (port value : Nat) (s : State) : Host.Outcome State Fault Refusal :=
  run (Instr.wf (.teMapInvalWrite port value)) s (fun s =>
    if !s.regsOpen then s
    else
      let n := s.units.mapGen + 1
      let mark (m : TeMap) : TeMap := if bit value 16 || m.table == bits value 15 0 then { m with upto := m.upto.or (some n) } else m
      { s with units := { s.units with mapGen := n, maps := s.units.maps.map mark } })

/-- What AGING_SWEEP does once what it moves is admitted and the host has released what it writes. -/
def State.doAgingSweep (s : State) (die table : Nat) : State :=
  match cfgTable s.folio.active table with
  | none => s
  | some r =>
    if !bit (s.reg 0x200000) 0 || !tCount r || r.f 56 4 = 0 then s
    else match s.readMap r with
      | some (some es) =>
        (es.filter (fun e => e.die == die)).foldl (fun s e =>
          (upto (tLocalRows r die)).foldl (fun s l =>
            let a := e.count + 2 * l
            let v := s.numDP a 2 / 2
            (s.devPut none a (natBytes 2 v)).1.offer r e l v) s) s
      | _ => s

/-- AGING_SWEEP: the nib of a die halves every count of a table's shards there and offers the rows that belong in another
class. -/
def execAgingSweep (die table : Nat) (s : State) : Host.Outcome State Fault Refusal :=
  runMem (Instr.wf (.agingSweep die table)) [] s (fun s => s.doAgingSweep die table)

end Sys2Proof.Machine
end

