-- ==== Sys2Proof/Machine/Update.lean ====
section
/-!
DEFINITION. Online table updates (10): UPDATE requests, routing and combining, the optimizers, state planes and their scaling
records (06), and the epochs of VERSIONED tables.
-/
namespace Sys2Proof.Machine

/-! ## Pass entries and state maps (Tables 10.2, 10.4, 10.5) -/

def ueOpt (e : List Nat) : Nat := fieldOf e 2 1
def ueFmt (e : List Nat) : Nat := fieldOf e 3 1
def ueCtrl (e : List Nat) : Nat := fieldOf e 4 1
def ueGroup (e : List Nat) : Nat := groupOf (fieldOf e 5 1)
def ueCount (e : List Nat) : Nat := fieldOf e 8 4
def uePitch (e : List Nat) : Nat := fieldOf e 12 4

/-- The static rules of R217 on a pass entry of partition `p`; the FP32 state of RW_ADAGRAD is no target of stochastic rounding (R90). -/
def State.updEntryOk (s : State) (p : Nat) (e : List Nat) : Bool :=
  match cfgTable s.folio.active (peTable e) with
  | none => false
  | some r =>
    let fp8 := ueFmt e == 4 || ueFmt e == 5
    r.part 0 == p && ueOpt e < 3 && 1 ≤ ueFmt e && ueFmt e ≤ 5 && ueCtrl e < 16 && (!bit (ueCtrl e) 3 || tVersioned r)
    && !(bit (ueCtrl e) 2 && ueOpt e == 1)
    && (if fp8 then 1 ≤ fieldOf e 5 1 && fieldOf e 5 1 ≤ 3 else fieldOf e 5 1 == 0 && fieldOf e 32 8 == 0)
    && zeroBytes e 6 8 && zeroBytes e 52 64 && 1 ≤ ueCount e && ueCount e ≤ 16777216
    && aligned (uePitch e) 16 && tWidth r * fmtBytes (ueFmt e) ≤ uePitch e

/-- Pitch of a scale plane of rows of width `w` with groups of `g` (Table 10.2). -/
def scalePitch (w g : Nat) : Nat := 16 * (((w + g - 1) / g + 15) / 16)

/-- Pitch of a state plane (R219). -/
def planePitch (opt fmt w : Nat) : Nat := if opt = 1 then 4 else 64 * ((w * fmtBytes fmt + 63) / 64)

/-- M_FMT, V_FMT, GROUP of a state map. -/
def smM (m : List Nat) : Nat := fieldOf m 1 1
def smV (m : List Nat) : Nat := fieldOf m 2 1
def smGroup (m : List Nat) : Nat := groupOf (fieldOf m 3 1)
def smFp8 (m : List Nat) : Bool := smM m == 4 || smM m == 5 || smV m == 4 || smV m == 5
/-- G_REC, M_REC, V_REC. -/
def smRecs (m : List Nat) : List Nat := [fieldOf m 8 8, fieldOf m 16 8, fieldOf m 24 8]
/-- The entry of a die. -/
def smEntry (m : List Nat) (die : Nat) : List Nat :=
  (((upto (fieldOf m 4 1)).map (fun i => (m.drop (64 + 64 * i)).take 64)).find? (fun e => fieldOf e 0 1 == die)).getD []

/-- The dies whose state a map holds: all of DIES, or the primary of a REPLICATED table (R219). -/
def stateDies (r : Rec) : List Nat := if tPlace r = 0 then (tDies r).take 1 else tDies r

/-- The rules of R219 on a state map. -/
def State.stateMapOk (s : State) (r : Rec) (m : List Nat) : Bool :=
  let opt := fieldOf m 0 1
  let w := tWidth r
  let adam (f : Nat) : Bool := f == 3 || f == 4 || f == 5
  let fp8 (f : Nat) : Bool := f == 4 || f == 5
  let part := r.part 0
  let recOk (a : Nat) : Bool := a == 0 || (s.segOf part a 32).isSome
  opt < 3
  && (if opt = 2 then adam (smM m) && adam (smV m) else smM m == 0 && smV m == opt)
  && (if smFp8 m then 1 ≤ fieldOf m 3 1 && fieldOf m 3 1 ≤ 3 else fieldOf m 3 1 == 0)
  && fieldOf m 4 1 == (stateDies r).length && zeroBytes m 5 8 && zeroBytes m 32 64 && (smRecs m).all recOk
  && (fp8 (smM m) || fieldOf m 16 8 == 0) && (fp8 (smV m) || fieldOf m 24 8 == 0)
  && ((stateDies r).zipIdx).all (fun d =>
    let e := (m.drop (64 + 64 * d.2)).take 64
    let n := tLocalRows r d.1
    let plane (used : Bool) (off f : Nat) : Bool :=
      if used then n == 0 || s.rangeOn part d.1 (fieldOf e off 8) (n * planePitch opt f w) else fieldOf e off 8 == 0
    let scales (f off : Nat) : Bool :=
      if fp8 f then n == 0 || s.rangeOn part d.1 (fieldOf e off 8) (n * scalePitch w (smGroup m)) else fieldOf e off 8 == 0
    fieldOf e 0 1 == d.1 && zeroBytes e 1 8 && zeroBytes e 40 64
    && plane (opt == 2) 8 (smM m) && scales (smM m) 16 && plane (opt != 0) 24 (smV m) && scales (smV m) 32)

/-- The state map at a handle: none if it is stale. -/
def State.readStateMap (s : State) (p h : Nat) : Option (List Nat) :=
  (s.handle p h).map (fun a => s.readDP a.1 (64 + 64 * s.numDP (a.1 + 4) 1))

/-! ## Commands and passes -/

/-- The update of command `cid`. -/
def State.updOf (s : State) (cid : Nat) : UpdCmd := Tbl.get {} s.units.upd cid

/-- Pass `i` of an update changed. -/
def State.updUpd (s : State) (cid i : Nat) (f : UpdPass → UpdPass) : State :=
  { s with units := { s.units with upd := Tbl.upd {} s.units.upd cid (fun x => { x with passes := updAt x.passes i f }) } }

/-- A pass whose rows are done moves on to its step advance, its flip or its end; the command ends with its last pass. -/
def State.updNext (s : State) (cid i : Nat) : State :=
  match (s.updOf cid).passes[i]? with
  | none => s
  | some p =>
    let st : UpdSt := match p.st with
      | .running => if !p.rows.all (·.done) then .running else if bit (ueCtrl p.entry) 1 then .advance else if bit (ueCtrl p.entry) 3 then .flip else .done
      | .advance => if bit (ueCtrl p.entry) 3 then .flip else .done
      | .flip => .done
      | x => x
    let s := s.updUpd cid i (fun p => { p with st := st, rows := if st == .done then [] else p.rows })
    if (s.updOf cid).passes.all (fun p => p.st == .done) then s.finish cid 0 0 else s

/-! ## Combining (R220-R222) -/

/-- Sub-passes an engine closes for the hashes of its distinct indices, and those it discards (R222): `js` are the residues modulo `J` still
to do. -/
def subPasses (hs : List Nat) : Nat → Nat → List Nat → Nat × Nat
  | 0, _, _ => (0, 0)
  | _, _, [] => (0, 0)
  | fuel + 1, J, j :: js =>
    if (hs.filter (fun h => h % J == j)).length ≤ 65536 then let r := subPasses hs fuel J js; (1 + r.1, r.2)
    else let r := subPasses hs fuel (2 * J) ((j :: js).flatMap (fun k => [k, k + J])); (r.1, 1 + r.2)

/-- A row being combined, with its accumulators. -/
structure Combine where
  eng : Nat
  die : Nat
  row : Nat
  idx : Nat
  n : Nat
  bank : Bank
  nan : List (Nat × NumVal) := []   -- of an element, the first NaN that was combined in it (R78)
deriving DecidableEq, Repr

/-- The elements of one gradient row, widened under their group scales. -/
def gradRow (e : List Nat) (w : Nat) (data scales : List Nat) : List NumVal :=
  let b := fmtBytes (ueFmt e)
  let g := ueGroup e
  (upto w).map (fun k =>
    let x := decodeNum (ueFmt e) (fieldOf data (b * k) b)
    if g = 0 then x else scaled (nth scales (k / g) 127) x)

/-- The exponent byte of a group's amax (R144): none when every element is zero; a NaN leaves it open (log entry 39). -/
def expByte (free : Nat) (xs : List NumVal) : Option Nat :=
  if xs.any NumVal.isNan then some (free % 255)
  else if xs.any (fun x => match x with | .inf _ => true | _ => false) then some 254
  else (amaxExp xs).map (fun e => (max 0 (min (e + 127) 254)).toNat)

/-- Groups of `g` elements, or the whole row. -/
def groupsOf (g : Nat) (xs : List NumVal) : List (List NumVal) :=
  if g = 0 then [xs] else (upto ((xs.length + g - 1) / g)).map (fun k => (xs.drop (g * k)).take g)

/-- An exponent byte folded into CUR of a scaling record by command `cid`, and noted for its step (R146, R147). -/
def State.foldCur (s : State) (cid rec : Nat) (x : Option Nat) : State :=
  match x with
  | none => s
  | some v =>
    if rec = 0 then s
    else
      let cur := s.numDP (rec + 24) 1
      let s := (s.devPut none (rec + 24) [if cur = 255 then v else max cur v]).1
      let mine (n : CurNote) : Bool := n.record == rec && n.cid == cid
      let old := ((s.units.curs.find? mine).map (·.val)).getD 0
      { s with units := { s.units with curs := ⟨rec, cid, (s.cmd cid).checked, max old v⟩ :: s.units.curs.filter (fun n => !mine n) } }

/-- Index and gradient rows of a pass as its home engine reads them. -/
def State.readGrads (s : State) (cid : Nat) (u : UnitId) (host : HostView) (e : List Nat) (w : Nat) : State × List (Nat × List NumVal) × UOut :=
  let n := ueCount e
  let iw := if bit (ueCtrl e) 0 then 8 else 4
  let b := w * fmtBytes (ueFmt e)
  let g := ueGroup e
  let k := if g = 0 then 0 else (w + g - 1) / g
  let o := s.unitReads cid u host ([(fieldOf e 16 8, iw * n)] ++ (upto n).map (fun i => (fieldOf e 24 8 + i * uePitch e, b))
    ++ (if g = 0 then [] else (upto n).map (fun i => (fieldOf e 32 8 + i * scalePitch w g, k))))
  match o.2 with
  | .ok d =>
    let gr := d.drop (iw * n)
    let sc := gr.drop (b * n)
    (o.1, (upto n).map (fun i => (fieldOf d (iw * i) iw, gradRow e w ((gr.drop (b * i)).take b) ((sc.drop (k * i)).take k))), .ok [])
  | x => (o.1, [], x)

/-- The rows of an update pass combined (R220, R221): distinct rows in order of arrival with their sums, indices skipped and of
other devices, and the flags of combining. -/
def combineRows (r : Rec) (wide : Bool) (own : Nat → Nat) (gs : List (Nat × List NumVal)) : List Combine × Nat × Nat × Nat :=
  gs.foldl (fun (a : List Combine × Nat × Nat × Nat) x =>
    match tFind r (((tDies r).head?).getD 0) wide x.1 with
    | .padding => a
    | .invalid => (a.1, a.2.1 + 1, a.2.2.1, a.2.2.2)
    | .away _ _ _ => (a.1, a.2.1, a.2.2.1 + 1, a.2.2.2)
    | .here d l =>
      let c : Combine := (a.1.find? (fun c => c.idx == x.1)).getD { eng := own d, die := d, row := l, idx := x.1, n := 0, bank := Bank.clear }
      let sum := c.bank.addGroup 1 (poolTerms x.2 none)
      let nan := ((x.2.zipIdx).filter (fun v => v.1.isNan && (c.bank.get v.2).cls != .nan)).map (fun v => (v.2, v.1))
      let c' := { c with n := c.n + 1, bank := sum.bank, nan := c.nan ++ nan }
      (if c.n = 0 then a.1 ++ [c'] else a.1.map (fun y => if y.idx = x.1 then c' else y), a.2.1, a.2.2.1, a.2.2.2 ||| sum.flags)) ([], 0, 0, 0)

/-- The combined gradient of a row rounded once to FP32 (R221), as an IEEE operation overflows (log entry 203), with the flags of rounding. A
NaN is the first that was combined (R78); opposite infinities give the default one. -/
def gradOf (w : Nat) (b : Bank) (nan : List (Nat × NumVal)) : List Nat × Nat :=
  let num (k : Nat) : NumVal :=
    if (b.get k).cls = .nan then ((nan.find? (fun x => x.1 == k)).map (·.2)).getD NumVal.qnan else (b.get k).toNum b.anchor
  let cs := (upto w).map (fun k => cvtFloat 1 true .rne (num k))
  (cs.map (·.val), cs.foldl (fun f c => f ||| (c.flags &&& 9)) 0)

/-- What an update pass pays for reading its indices and gradients anew: once more for each sub-pass after the first, closed or discarded, of
each engine (R222, log entry 204); `s0` is the state before they were first read. -/
def State.readAgain (s s0 : State) (times : Nat) : State :=
  let ds := (s.memc.due.drop s0.memc.due.length).filter (fun d => d.slot < 16)
  { s with memc := { s.memc with due := s.memc.due ++ (List.replicate times ds).flatten } }

/-- A waiting update pass started (R204, R217, R220). -/
def State.updStart (s : State) (cid i : Nat) (host : HostView) : State × UOut :=
  match (s.updOf cid).passes[i]? with
  | none => (s, .missing)
  | some p =>
    let e := p.entry
    match cfgTable s.folio.active (peTable e), s.homeEngine (s.updOf cid).die with
    | some r, some home =>
      let u : UnitId := ⟨0, home⟩
      let own := (upto 8).map s.ownEngine
      let m := s.tableMap home r s.units.mapGen
      (match m.2, s.readStateMap (r.part 0) (fieldOf e 48 4) with
       | some (some _), some sm =>
         if fieldOf sm 0 1 != ueOpt e then (m.1.endCmd cid 8 1 [] true, .ended)
         else if !m.1.stateMapOk r sm then ((m.1.mapError cid r ⟨3, home⟩ 0).endCmd cid 8 1 [] true, .ended)
         else
           let hy := m.1.unitRead cid u host (fieldOf e 40 8) 32
           (match hy.2 with
            | .ok hb =>
              if !zeroBytes hb 28 32 then (hy.1.endCmd cid 8 1 [] true, .ended)
              else
                let o := hy.1.readGrads cid u host e (tWidth r)
                (match o.2.2 with
                 | .ok _ =>
                   let c := combineRows r (bit (ueCtrl e) 0) (fun d => (nth own d none).getD 16) o.2.1
                   if c.1.any (fun x => x.eng == 16) then (s, .missing)
                   else
                     let used (x : Nat × List NumVal) : Bool := match tFind r 0 (bit (ueCtrl e) 0) x.1 with | .here _ _ => true | _ => false
                     let s := if ueGroup e = 0 then o.1 else
                       (o.2.1.filter used).foldl (fun s x => (groupsOf (ueGroup e) x.2).foldl (fun s g =>
                         (if g.any NumVal.isNan then s.useFree else s).foldCur cid (fieldOf sm 8 8) (expByte s.freeVal g)) s) o.1
                     let rows := c.1.map (fun x =>
                       let g := gradOf (tWidth r) x.bank x.nan
                       (({ eng := x.eng, die := x.die, row := x.row, idx := x.idx, n := x.n, g := g.1 } : UpdRow), g.2))
                     let s := s.raiseCmd cid (rows.foldl (fun f x => f ||| x.2) c.2.2.2)
                     let s := (s.tabBump 0x48 (tId r) 32 c.2.1).tabBump 0x4C (tId r) 32 c.2.2.1
                     let runs (n : Nat) : Nat × Nat := subPasses ((c.1.filter (fun x => x.eng == n)).map (fun x => placeHash 40 x.idx)) (2 ^ 42) 1 [0]
                     let s := (upto 16).foldl (fun s n =>
                       let k := (c.1.filter (fun x => x.eng == n)).length
                       if k = 0 then s
                       else ((s.maxReg (teBase n + 0x18) 32 (min k 65536)).tabBump 0x38 (tId r) 32 ((runs n).1 - 1)).readAgain hy.1 ((runs n).1 + (runs n).2 - 1)) s
                     let s := (s.concern cid (home / 2))
                     let s := c.1.foldl (fun s x => s.concern cid (x.eng / 2)) s
                     let s := s.updUpd cid i (fun p => { p with st := .running, home := home, smap := sm, rows := rows.map (·.1), gen := s.units.mapGen,
                                                                hyper := (upto 7).map (fun k => fieldOf hb (4 * k) 4) })
                     ((s.maxReg (teBase home + 0x1C) 32 (s.time - p.since.getD s.time)).updNext cid i, .ok [])
                 | x => (o.1, x))
            | x => (hy.1, x))
       | some none, _ => ((m.1.mapError cid r ⟨3, home⟩ 0).endCmd cid 8 1 [] true, .ended)
       | _, _ => (m.1.endCmd cid 9 0 [] true, .ended))
    | _, _ => (s, .missing)

/-- Waiting passes started, those on one table in pass order (R223); where no table engine of the device remains, the command ends (R69). -/
def State.updStarts (s : State) (cid : Nat) (host : HostView) : State :=
  (upto (s.updOf cid).passes.length).foldl (fun s i =>
    match (s.updOf cid).passes[i]? with
    | none => s
    | some p =>
      let prior := ((s.updOf cid).passes.take i).all (fun q => peTable q.entry != peTable p.entry || q.st == .done)
      if p.st != .waiting || !prior then s
      else if s.noEngines then s.endCmd cid 8 9 [] true
      else
        let o := s.updStart cid i host
        match o.2 with
        | .missing =>
          if (s.homeEngine (s.updOf cid).die).isSome then s
          else s.updUpd cid i (fun p => { p with since := p.since.or (some s.time) })
        | .ok _ => o.1
        | _ => s.halts o) s

/-- An update request read and checked (R217). -/
def State.updateBegin (s0 : State) (cid : Nat) (host : HostView) : State :=
  let a := (s0.cmd cid).reqAddr
  let p := (s0.cmd cid).part.getD 0
  let s := s0.updCmd cid (fun c => { c with st := .running })
  if s.noEngines then s.finish cid 8 9
  else if !aligned a 64 then s.finish cid 8 1
  else match s0.readerTe cid with
    | none => s0
    | some u =>
      let h := s.unitRead cid u host a 64
      match h.2 with
      | .ok hd =>
        let n := fieldOf hd 0 2
        if n = 0 || 1024 < n || 8 ≤ fieldOf hd 2 1 || !zeroBytes hd 3 8 || !zeroBytes hd 16 64 then h.1.finish cid 8 1
        else
          let b := h.1.unitRead cid u host (a + 64) (64 * n)
          (match b.2 with
           | .ok body =>
             let es := (upto n).map (fun i => (body.drop (64 * i)).take 64)
             let maps := es.map (fun e => b.1.readStateMap p (fieldOf e 48 4))
             if !es.all (b.1.updEntryOk p) || es.any (fun e => b.1.stray p (fieldOf e 48 4)) then b.1.finish cid 8 1
             else if maps.any Option.isNone then b.1.finish cid 9 0
             else if (es.zip maps).any (fun x => fieldOf (x.2.getD []) 0 1 != ueOpt x.1) then b.1.finish cid 8 1
             else
               let c : UpdCmd := { passes := es.map (fun e => { entry := e }), die := fieldOf hd 2 1 % 8, seed := fieldOf hd 8 8 }
               ({ b.1 with units := { b.1.units with upd := Tbl.set {} b.1.units.upd cid c } }).updStarts cid host
           | _ => s0.halts b)
      | _ => s0.halts h

/-- What UPDATE does once what it moves is admitted and the host has released what it writes. -/
def State.doUpdate (s : State) (queue : Nat) (going : Option Nat) (host : HostView) : State :=
  match going with
  | none => (match s.startable queue 3 with | none => s | some cid => s.updateBegin cid host)
  | some seq => s.updStarts (cidOf queue seq) host

/-- UPDATE (R217): a command begins, or with `going` its waiting passes start. -/
def execUpdate (queue : Nat) (going : Option Nat) (host : HostView) (s : State) : Host.Outcome State Fault Refusal :=
  runMem (Instr.wf (.update queue going host)) host.ecc s (fun s => s.doUpdate queue going host)

/-! ## Reads and writes of an update unit (R223, R225) -/

/-- Bytes at a physical address read under the sectors' checks and charged to the command; what is then written back is the same action. -/
def State.physRead (s : State) (cid : Nat) (u : UnitId) (x n : Nat) : State × UOut :=
  let o := s.unitSectors cid u x n
  match o.2 with
  | .ok _ => (o.1.heard ((sectorsOf x n).map (64 * ·)), o.2)
  | _ => o

/-! ## Optimizers (R224) -/

/-- An FP32 operation: the result and its flags. -/
def op32 (r : NumVal × Bool) : NumVal × Nat := let v := ieee 1 r; (decodeNum 1 v.1, v.2)

/-- FP32 operations of the update unit, each rounded once; they raise no flag (Table 6.1). -/
def F32.of (v : Nat) : NumVal := decodeNum 1 v
def F32.add (a b : NumVal) : NumVal := (op32 (NumVal.add a b)).1
/-- A difference; a NaN that is subtracted keeps its sign (R78). -/
def F32.sub (a b : NumVal) : NumVal := (op32 (NumVal.add a (if b.isNan then b else NumVal.flip true b))).1
def F32.mul (a b : NumVal) : NumVal := (op32 (NumVal.mul a b)).1
def F32.div (a b : NumVal) : NumVal := (op32 (NumVal.div a b)).1
def F32.sqrt (a : NumVal) : NumVal := (op32 (NumVal.sqrt a)).1

/-- sgd: w' = w − lr × (g + wd × w). -/
def sgdElem (lr wd w g : NumVal) : NumVal := F32.sub w (F32.mul lr (F32.add g (F32.mul wd w)))

/-- rw_adagrad's row mean: the exact sum of g × g over the row, divided by the width and rounded once. -/
def rowMean (gs : List NumVal) : NumVal :=
  let sum := gs.foldl (fun a g => (NumVal.add a (NumVal.mul g g).1).1) NumVal.zero
  (op32 (NumVal.div sum (NumVal.ofInt gs.length))).1

/-- rw_adagrad: w' = w − lr × g / (sqrt(a') + eps). -/
def adagradElem (lr eps a w g : NumVal) : NumVal := F32.sub w (F32.div (F32.mul lr g) (F32.add (F32.sqrt a) eps))

/-- adam: m', v' and w'. -/
def adamElem (h : List Nat) (m v w g : NumVal) : NumVal × NumVal × NumVal :=
  let f (k : Nat) : NumVal := F32.of (nth h k 0)
  let one : NumVal := .fin false 1 0
  let m' := F32.add (F32.mul (f 2) m) (F32.mul (F32.sub one (f 2)) g)
  let v' := F32.add (F32.mul (f 3) v) (F32.mul (F32.sub one (f 3)) (F32.mul g g))
  let step := F32.add (F32.div (F32.mul m' (f 5)) (F32.add (F32.sqrt (F32.mul v' (f 6))) (f 4))) (F32.mul (f 1) w)
  (m', v', F32.sub w (F32.mul (f 0) step))

/-! ## State planes (R145, R146, R219, R226) -/

/-- The scale R145 chooses for a group whose stored values are `old`; a value that is not finite leaves it open (log entry 39). -/
def State.adaptScale (s : State) (rec fmt stored k : Nat) (old : List NumVal) : Nat :=
  if bit (s.numDP (rec + 19) 1) 0 then stored
  else if old.any (fun x => match x with | .fin _ _ _ => false | _ => true) then Config.freeValue (s.free + k) % 255
  else
    let hist := (s.readDP rec 16).filter (· != 255)
    let ceil : Int := match hist with
      | [] => (s.numDP (rec + 25) 1 : Int) - 127
      | h :: t => ((t.foldl max h : Nat) : Int) - 127
    let prev := (amaxExp old).getD ceil
    let basis := max prev (ceil - (s.numDP (rec + 17) 1 : Int)) + 2
    (max 0 (min (basis - (if fmt = 4 then 8 else 15) + 127) 254)).toNat

/-- A plane's row as stored: FP32 values widened under its scales. -/
def planeVals (fmt g w : Nat) (data scales : List Nat) : List NumVal :=
  let b := fmtBytes fmt
  (upto w).map (fun k =>
    let x := decodeNum fmt (fieldOf data (b * k) b)
    if fmt = 4 || fmt = 5 then scaled (nth scales (k / g) 127) x else x)

/-- New values of a plane's row converted: bytes, scale bytes, the record's CUR and CLIP brought up to date, and the flags. `at'` is the row's
byte address; `seed` the seed of a stochastic store. -/
def State.planeStore (s : State) (cid fmt g rec at' : Nat) (seed : Option Nat) (old new : List NumVal) (scales : List Nat) : State × List Nat × List Nat × Nat :=
  let b := fmtBytes fmt
  let rnd (k : Nat) : Rnd := match seed with | some z => .stoch (stochNumber z (at' + b * k)) | none => .rne
  if fmt = 4 || fmt = 5 then
    let gs := groupsOf g old
    let scs := (gs.zipIdx).map (fun x => s.adaptScale rec fmt (nth scales x.2 127) x.2 x.1)
    let cs := (new.zipIdx).map (fun x => cvtFloat fmt false (rnd x.2) (unscale (nth scs (x.2 / g) 127) x.1))
    let clips := (cs.filter (·.sat)).length
    let s := { s with free := s.free + gs.length }
    let s := (groupsOf g new).foldl (fun s x => (if x.any NumVal.isNan then s.useFree else s).foldCur cid rec (expByte s.freeVal x)) s
    let s := if clips = 0 then s else (s.devPut none (rec + 20) (natBytes 4 (satAdd 32 (s.numDP (rec + 20) 4) clips))).1
    (s, cs.map (·.val), scs, (cvtNotes cs).2)
  else
    let cs := (new.zipIdx).map (fun x => cvtFloat fmt false (rnd x.2) x.1)
    (s, (cs.map (fun c => natBytes b c.val)).flatten, [], (cvtNotes cs).2)

/-! ## Rows of an update (R220, R225, R226, R228) -/

/-- The state of a table changed. -/
def State.updTab (s : State) (t : Nat) (f : TabSt → TabSt) : State :=
  { s with units := { s.units with tabs := Tbl.upd {} s.units.tabs t f } }

/-- The copy updates write (R228). -/
def State.shadowCopy (s : State) (r : Rec) : Nat := if tVersioned r then ((s.tab (tId r)).epoch + 1) % 2 else 0

/-- Where a row of a shard lies: class, address, and its directory STATE (1 without a directory); none for a bad entry. -/
def State.rowPlace (s : State) (r : Rec) (e : ShardEnt) (l : Nat) : Option (Nat × Nat × Nat) :=
  if tMixed r then
    let v := s.numDP (e.dir + 8 * l) 8
    if dirBad e v then none
    else
      let a := rowAt r e (dirPool v) (dirSlot v)
      some (a.1, a.2, dirState v)
  else
    let a := rowAt r e 0 l
    some (a.1, a.2, 1)

/-- A row an update wrote recorded in the dirty log of its die; a full log overflows (R228). -/
def State.noteDirty (s : State) (r : Rec) (die l : Nat) : State :=
  let t := s.tab (tId r)
  if !tVersioned r || t.dirty.contains (die, l) || t.ovf.contains die then s
  else if s.dirtyOn die < 1048576 then (s.updTab (tId r) (fun t => { t with dirty := t.dirty ++ [(die, l)] }))
  else s.updTab (tId r) (fun t => { t with ovf := t.ovf ++ [die] })

/-- A row copied from the live copy to the shadow (R229). -/
def State.copyRow (s : State) (r : Rec) (es : List ShardEnt) (die l : Nat) : State :=
  match entOf es die ((s.tab (tId r)).epoch % 2), entOf es die (s.shadowCopy r) with
  | some a, some b =>
    (match s.rowPlace r a l, s.rowPlace r b l with
     | some x, some y => if x.2.2 = 0 || y.2.2 = 0 then s else (s.devPut none y.2.1 (s.readDP x.2.1 (rowBytes x.1 (tWidth r)))).1
     | _, _ => s)
  | _, _ => s

/-- Whether a row has still to be caught up (R229). -/
def TabSt.behind (t : TabSt) (die l : Nat) : Bool :=
  t.catching && (t.copy.contains (die, l) || (t.copyAll.contains die && !t.copied.contains (die, l)))

/-- A row that is not caught up copied first (R229 step 4). -/
def State.catchUp (s : State) (r : Rec) (es : List ShardEnt) (die l : Nat) : State :=
  if (s.tab (tId r)).behind die l then
    ((s.copyRow r es die l).updTab (tId r) (fun t => { t with copy := t.copy.filter (· != (die, l)), copied := t.copied ++ [(die, l)] }))
  else s

/-- The new values of a row written into its place on one die (R226, R231): in its class, with the flags of its conversions (Table 6.1), with
the delta buffer of a migration, and noted in the dirty log. `count` says that its clipped elements are counted. -/
def State.putRow (s : State) (cid : Nat) (r : Rec) (e : ShardEnt) (l : Nat) (new : List NumVal) (count : Bool) : State × Bool :=
  match s.rowPlace r e l with
  | none => (s, true)
  | some (cls, a, st) =>
    if st = 0 then (s, true)
    else
      let n := narrowRow (r.f 28 1) cls s.freeVal new
      let s := (if new.any (fun x => match x with | .fin _ _ _ => false | _ => true) then s.useFree else s).raiseCmd cid n.2.2
      let o := s.unitStores cid ⟨1, e.die⟩ ((s.phys a).getD 0) n.1
      let s := if count then o.1.tabBump 0x50 (tId r) 32 n.2.1 else o.1
      let f (m : Mig) : Mig := if m.die = e.die && m.table = tId r && m.row = l && !m.flipped then { m with delta := new.map f32 } else m
      let s := if st = 2 then { s with units := { s.units with migs := s.units.migs.map f } } else s
      (s.noteDirty r e.die l, o.2)

/-- The new row and state values of a row (R224): w', m', v'; a NaN gradient or state raises INVALID. -/
def optimize (opt : Nat) (h : List Nat) (gs : List Nat) (w m v : List NumVal) : List NumVal × List NumVal × List NumVal × Nat :=
  let f (k : Nat) : NumVal := F32.of (nth h k 0)
  let g := gs.map F32.of
  let fl := 8 * b2n ((g ++ m ++ v).any NumVal.isNan)
  match opt with
  | 0 => ((w.zip g).map (fun x => sgdElem (f 0) (f 1) x.1 x.2), [], [], fl)
  | 1 =>
    let a := F32.add (nth v 0 NumVal.zero) (rowMean g)
    ((w.zip g).map (fun x => adagradElem (f 0) (f 4) a x.1 x.2), [], [a], fl)
  | _ =>
    let r := ((w.zip g).zip (m.zip v)).map (fun x => adamElem h x.2.1 x.2.2 x.1.1 x.1.2)
    (r.map (fun x => x.2.2), r.map (fun x => x.1), r.map (fun x => x.2.1), fl)

/-- A plane's row and its scales read. -/
def State.planeRead (s : State) (cid : Nat) (u : UnitId) (fmt g base sbase pitch w l : Nat) (one : Bool) : State × List Nat × List Nat × UOut :=
  if fmt = 0 then (s, [], [], .ok [])
  else
    let o := s.physRead cid u ((s.phys (base + l * pitch)).getD 0) (if one then 4 else w * fmtBytes fmt)
    match o.2 with
    | .ok d =>
      if fmt = 4 || fmt = 5 then
        let q := o.1.physRead cid u ((o.1.phys (sbase + l * scalePitch w g)).getD 0) ((w + g - 1) / g)
        (match q.2 with | .ok e => (q.1, d, e, .ok []) | x => (q.1, [], [], x))
      else (o.1, d, [], .ok [])
    | x => (o.1, [], [], x)

/-- A plane's row written with its new values. -/
def State.planeWrite (s : State) (cid : Nat) (u : UnitId) (fmt g base sbase pitch w l rec : Nat) (seed : Option Nat) (old new : List NumVal) (scales : List Nat) :
    State × Bool :=
  if fmt = 0 then (s, true)
  else
    let at' := base + l * pitch
    let o := s.planeStore cid fmt g rec at' seed old new scales
    let s := o.1.raiseCmd cid o.2.2.2
    let a := s.unitStores cid u ((s.phys at').getD 0) o.2.1
    if !a.2 || o.2.2.1.isEmpty then a
    else a.1.unitStores cid u ((a.1.phys (sbase + l * scalePitch w g)).getD 0) o.2.2.1

/-- Lookup passes of a table that latched another epoch and are not complete. -/
def State.oldPasses (s : State) (t : Nat) : Bool :=
  s.units.te.any (fun c => c.2.passes.any (fun p => p.started && !p.done && peTable p.entry == t && p.epoch != (s.tab t).epoch))

/-- One distinct row applied by optimizer `opt` as one action (R225). The shadow of a table is not written while a pass that latched the old
epoch still reads it (R206, R229). -/
def State.updRow (s0 : State) (cid i j opt : Nat) : State :=
  match (s0.updOf cid).passes[i]? with
  | none => s0
  | some p =>
    match p.rows[j]?, cfgTable s0.folio.active (peTable p.entry) with
    | some x, some r =>
      if p.st != .running || x.done || ueOpt p.entry != opt || s0.halted x.die || (tVersioned r && s0.oldPasses (tId r)) then s0
      else
        let u : UnitId := ⟨1, x.die⟩
        let m := s0.tableMap x.eng r p.gen
        let mark (s : State) : State := (s.updUpd cid i (fun p => { p with rows := updAt p.rows j (fun y => { y with done := true }) })).updNext cid i
        (match m.2 with
         | some (some es) =>
           (match entOf es x.die (m.1.shadowCopy r) with
            | none => m.1
            | some e =>
              match m.1.rowPlace r e x.row with
              | none => (m.1.mapError cid r u.src x.idx).endCmd cid 8 1 [] false
              | some (cls, a, st) =>
                if st = 0 then mark (m.1.tabBump 0x48 (tId r) 32 x.n)
                else
                  let s := m.1.catchUp r es x.die x.row
                  let row := s.physRead cid u ((s.phys a).getD 0) (rowBytes cls (tWidth r))
                  match row.2 with
                  | .ok d =>
                    let w := tWidth r
                    let g := smGroup p.smap
                    let en := smEntry p.smap (((stateDies r).find? (· == x.die)).getD (((stateDies r).head?).getD 0))
                    let mp := planePitch opt (smM p.smap) w
                    let vp := planePitch opt (smV p.smap) w
                    let rm := row.1.planeRead cid u (smM p.smap) g (fieldOf en 8 8) (fieldOf en 16 8) mp w x.row false
                    (match rm.2.2.2 with
                     | .ok _ =>
                       let rv := rm.1.planeRead cid u (smV p.smap) g (fieldOf en 24 8) (fieldOf en 32 8) vp w x.row (opt == 1)
                       (match rv.2.2.2 with
                        | .ok _ =>
                          let wide := widenRow (r.f 28 1) cls w d
                          let mo := planeVals (smM p.smap) g (if opt = 2 then w else 0) rm.2.1 rm.2.2.1
                          let vo := planeVals (smV p.smap) g (if opt = 2 then w else opt) rv.2.1 rv.2.2.1
                          let o := optimize opt p.hyper x.g wide.1 mo vo
                          let s := rv.1.raiseCmd cid (wide.2 ||| o.2.2.2)
                          let seed := if bit (ueCtrl p.entry) 2 then some (s0.updOf cid).seed else none
                          let rowW := s.putRow cid r e x.row o.1 true
                          if !rowW.2 then rowW.1
                          else
                            let others := if tPlace r = 0 then (tDies r).filter (· != x.die) else []
                            let reps := others.foldl (fun (y : State × Bool) d2 =>
                              if !y.2 then y
                              else match entOf es d2 (y.1.shadowCopy r) with
                                | some e2 => (y.1.catchUp r es d2 x.row).putRow cid r e2 x.row o.1 false
                                | none => y) (rowW.1, true)
                            if !reps.2 then reps.1
                            else
                              let mw := reps.1.planeWrite cid u (smM p.smap) g (fieldOf en 8 8) (fieldOf en 16 8) mp w x.row (fieldOf p.smap 16 8) seed mo o.2.1 rm.2.2.1
                              if !mw.2 then mw.1
                              else
                                let vw := mw.1.planeWrite cid u (smV p.smap) g (fieldOf en 24 8) (fieldOf en 32 8) vp w x.row (fieldOf p.smap 24 8) seed vo o.2.2.1 rv.2.2.1
                                if !vw.2 then vw.1 else mark (vw.1.tabBump 0x40 (tId r) 64 1)
                        | x => s0.halts (rv.1, x))
                     | x => s0.halts (rm.1, x))
                  | _ => s0.halts row)
         | some none => (m.1.mapError cid r u.src x.idx).endCmd cid 8 1 [] false
         | none => m.1.endCmd cid 9 0 [] false)
    | _, _ => s0

/-- SGD (R224). -/
def execSgd (queue seq pass row : Nat) (ecc : Sectors) (s : State) : Host.Outcome State Fault Refusal :=
  runMem (Instr.wf (.sgd queue seq pass row ecc)) ecc s (fun s => s.updRow (cidOf queue seq) pass row 0)

/-- RW_ADAGRAD (R224). -/
def execRwAdagrad (queue seq pass row : Nat) (ecc : Sectors) (s : State) : Host.Outcome State Fault Refusal :=
  runMem (Instr.wf (.rwAdagrad queue seq pass row ecc)) ecc s (fun s => s.updRow (cidOf queue seq) pass row 1)

/-- ADAM (R224). -/
def execAdam (queue seq pass row : Nat) (ecc : Sectors) (s : State) : Host.Outcome State Fault Refusal :=
  runMem (Instr.wf (.adam queue seq pass row ecc)) ecc s (fun s => s.updRow (cidOf queue seq) pass row 2)

/-! ## Step advances and epochs (R147, R229) -/

/-- A store that was noted counts toward a step after that of command `cid`: its command was fetched later. -/
def State.laterNote (s : State) (cid : Nat) (n : CurNote) : Bool :=
  n.cid != cid && (decide ((s.cmd cid).checked < n.at') || (n.at' == (s.cmd cid).checked && n.cid / 2 ^ 23 == cid / 2 ^ 23 &&
    (let back (c : Nat) : Nat := ((s.queue (cid / 2 ^ 23)).j + 2 ^ 23 - c % 2 ^ 23) % 2 ^ 23
     decide (back n.cid < back cid))))

/-- A record advanced by command `cid` (R147): CUR into HIST[POS], POS modulo 16, CUR empty; what commands fetched later have stored stays in CUR
and is left out of HIST, unless CUR holds more than was stored since the last advance. -/
def State.advanceRec (s : State) (cid rec : Nat) : State :=
  if rec = 0 then s
  else
    let pos := s.numDP (rec + 16) 1 % 16
    let cur := s.numDP (rec + 24) 1
    let ns := s.units.curs.filter (fun n => n.record == rec)
    let late := ns.filter (s.laterNote cid)
    let top (l : List CurNote) : Nat := if l.isEmpty then 255 else l.foldl (fun m n => max m n.val) 0
    let hist := if late.isEmpty || (cur != 255 && top ns != 255 && decide (top ns < cur)) then cur else top (ns.filter (fun n => !s.laterNote cid n))
    let s := (s.devPut none (rec + pos) [hist]).1
    let s := (s.devPut none (rec + 16) [(pos + 1) % 16]).1
    let s := (s.devPut none (rec + 24) [top late]).1
    { s with units := { s.units with curs := s.units.curs.filter (fun n => n.record != rec || late.contains n) } }

/-- Whether an update command fetched before `cid` has stores left (R147). -/
def State.storesBefore (s : State) (cid : Nat) : Bool :=
  s.cids.any (fun c => c != cid && (s.cmd c).opcode == 3 && (s.cmd c).cause.isNone
    && ((s.cmd c).st == .fetched || (s.cmd c).st == .running)
    && ((s.cmd c).checked < (s.cmd cid).checked || ((s.cmd c).checked == (s.cmd cid).checked && (s.cmd c).queue == (s.cmd cid).queue && s.earlier c cid)))

/-- What STEP_ADVANCE does once what it moves is admitted and the host has released what it writes. -/
def State.doStepAdvance (s : State) (queue seq : Nat) : State :=
  let cid := cidOf queue seq
  match (s.updOf cid).passes.findIdx? (fun p => p.st == .advance) with
  | none => s
  | some i =>
    if s.storesBefore cid then s
    else
      let m := ((s.updOf cid).passes[i]?.map (·.smap)).getD []
      ((smRecs m).foldl (fun s a => s.advanceRec cid a) s).updNext cid i

/-- STEP_ADVANCE: the first pass of the command that waits for it advances its records, once every store of every update
command fetched before is complete. -/
def execStepAdvance (queue seq : Nat) (s : State) : Host.Outcome State Fault Refusal :=
  runMem (Instr.wf (.stepAdvance queue seq)) [] s (fun s => s.doStepAdvance queue seq)

/-- EPOCH_FLIP (R229 steps 1 and 2). -/
def execEpochFlip (queue seq pass : Nat) (s : State) : Host.Outcome State Fault Refusal :=
  run (Instr.wf (.epochFlip queue seq pass)) s (fun s =>
    let cid := cidOf queue seq
    match (s.updOf cid).passes[pass]? with
    | none => s
    | some p =>
      let t := peTable p.entry
      let x := s.tab t
      if p.st != .flip || x.catching then s
      else
        let s := s.tabBump 0x58 t 32 x.ovf.length
        let s := s.updTab t (fun x => { x with epoch := (x.epoch + 1) % 2 ^ 32, catching := true, copying := false,
                                               copy := x.dirty.filter (fun d => !x.ovf.contains d.1), copyAll := x.ovf, copied := [], dirty := [], ovf := [] })
        s.updNext cid pass)

/-- EPOCH_CATCHUP_START (R229 step 3): once every pass of the old epoch is complete. -/
def execEpochCatchupStart (table : Nat) (s : State) : Host.Outcome State Fault Refusal :=
  run (Instr.wf (.epochCatchupStart table)) s (fun s =>
    if (s.tab table).catching && !s.oldPasses table then s.updTab table (fun x => { x with copying := true }) else s)

/-- What EPOCH_CATCHUP_COMPLETE does once what it moves is admitted and the host has released what it writes. -/
def State.doEpochCatchupComplete (s : State) (table : Nat) : State :=
  let x := s.tab table
  match cfgTable s.folio.active table with
  | none => s
  | some r =>
    if !x.catching || !x.copying then s
    else match s.readMap r with
      | some (some es) =>
        let s := x.copy.foldl (fun s d => s.copyRow r es d.1 d.2) s
        let s := x.copyAll.foldl (fun s d => ((upto (tLocalRows r d)).filter (fun l => !x.copied.contains (d, l))).foldl (fun s l => s.copyRow r es d l) s) s
        (s.updTab table (fun x => { x with catching := false, copying := false, copy := [], copyAll := [], copied := [] }))
      | _ => s

/-- EPOCH_CATCHUP_COMPLETE (R229): every row left is copied from the live copy to the shadow. -/
def execEpochCatchupComplete (table : Nat) (s : State) : Host.Outcome State Fault Refusal :=
  runMem (Instr.wf (.epochCatchupComplete table)) [] s (fun s => s.doEpochCatchupComplete table)

end Sys2Proof.Machine
end

