-- ==== Sys2Proof/Machine/Post.lean ====
section
/-!
DEFINITION. Quill operations as tasks post them (18, R420-R433): post rings, descriptors, puts, gets, atomic adds, collectives,
multicast, and how an operation completes.
-/
namespace Sys2Proof.Machine

/-! ## Groups (R426) -/

/-- A group's DESC0 and what the device read of its flow list. -/
def State.grpDesc (s : State) (g : Nat) : Nat := s.reg (selKey 0x400308 g)
def State.grp (s : State) (g : Nat) : GrpSt := Tbl.get {} s.fab.groups g
/-- RANKS, MY_RANK, PART_ID, KIND, VALID. -/
def gRanks (d : Nat) : Nat := bits d 63 48
def gRank (d : Nat) : Nat := bits d 47 32
def gPart (d : Nat) : Nat := bits d 31 28
def gMulti (d : Nat) : Bool := bit d 1
def gValid (d : Nat) : Bool := bit d 0

/-- A group has an operation in progress. -/
def State.grpBusy (s : State) (g : Nat) : Bool := s.fab.ops.any (fun o => o.group == some g)

/-! ## Post rings (R420) -/

/-- Descriptors taken and posted of a task's ring. -/
def State.posted (s : State) (cid task : Nat) : PostSt := Tbl.get {} s.fab.rings (cid * 32 + task)

/-- A task's ring changed. -/
def State.updPosted (s : State) (cid task : Nat) (f : PostSt → PostSt) : State :=
  { s with fab := { s.fab with rings := Tbl.upd {} s.fab.rings (cid * 32 + task) f } }

/-- The tile that holds task `task` of a command now. -/
def State.taskTile (s : State) (cid task : Nat) : Option Nat :=
  (s.tilesOf cid).find? (fun t => match (s.tile t).task with | some k => k.idx == task && !k.shadow | none => false)

/-- The Quill engine takes descriptors of a task: it runs or waits for a semaphore, or has ended while its launch runs. -/
def State.mayPost (s : State) (cid task : Nat) : Bool :=
  (s.cmd cid).cause.isNone &&
  (match s.taskTile cid task with
   | some t => (match (s.tile t).task with
     | some k => (match k.st with | .run | .semWait _ _ => true | _ => false)
     | none => false)
   | none => (s.cmd cid).st == .running && decide (task < (s.cmd cid).tiles.length))

/-- The tile that a task's operations are charged to. -/
def State.postTile (s : State) (cid task : Nat) : Nat := (s.taskTile cid task).getD (nth (s.cmd cid).tiles task 0)

/-- POST_WORD_WRITE: a task's write sets its ring's tail; a value of 2^m or more sets nothing. -/
def execPostWordWrite (queue seq task tail : Nat) (s : State) : Host.Outcome State Fault Refusal :=
  run (Instr.wf (.postWordWrite queue seq task tail)) s (fun s =>
    let cid := cidOf queue seq
    match (s.cmd cid).posts[task]? with
    | none => s
    | some r => if s.mayPost cid task && tail < 2 ^ r.2.1 then s.updPosted cid task (fun x => { x with tail := tail }) else s)

/-! ## Descriptors (R421, Table 18.9) -/

/-- A descriptor as the operation it posts. -/
def State.descOp (s : State) (cid task : Nat) (d : List Nat) : QOp :=
  let k := fieldOf d 0 1
  let tgt := fieldOf d 4 2
  { id := 0, kind := k, fence := bit (fieldOf d 1 1) 0, cid := cid, task := task, tile := s.postTile cid task,
    token := if bit (fieldOf d 1 1) 7 then none else some (fieldOf d 2 1 % 16),
    group := if 4 ≤ k then some tgt else none,
    flows := if 4 ≤ k then (s.grp tgt).flows else [tgt],
    my := if 4 ≤ k then gRank (s.grpDesc tgt) else 0,
    dtype := fieldOf d 3 1, rop := fieldOf d 6 1, loc := fieldOf d 8 8, rem := fieldOf d 16 8, len := fieldOf d 24 4, seq := fieldOf d 28 4,
    stage := fieldOf d 32 8 }

/-- ⌈LENGTH / RANKS⌉, the chunk of an all-reduce. -/
def QOp.chunk (o : QOp) : Nat := (o.len + o.flows.length - 1) / max 1 o.flows.length

/-- Bytes of the chunk of rank `r`. -/
def QOp.chunkLen (o : QOp) (r : Nat) : Nat := min o.chunk (o.len - r * o.chunk)

/-- A descriptor is faulty (R421). -/
def State.descFaulty (s : State) (cid : Nat) (d : List Nat) (o : QOp) : Bool :=
  let part := (s.cmd cid).part.getD 0
  let k := o.kind
  let scaledT := o.dtype == 3 || o.dtype == 4
  k == 0 || decide (7 < k) || bits (fieldOf d 1 1) 6 1 != 0 || fieldOf d 2 1 / 16 != 0 || fieldOf d 7 1 != 0 || !zeroBytes d 40 64
  || o.len == 0 || decide (268435456 < o.len)
  || (match k with
      | 3 => decide (7 ≤ o.dtype) || (if scaledT then decide (4 ≤ o.rop) else o.rop != 0) || !aligned o.len (redBytes o.dtype)
      | 4 => !([0, 1, 2, 5].contains o.dtype) || decide (3 ≤ o.rop) || !aligned o.len (redBytes o.dtype) || !aligned o.chunk (redBytes o.dtype)
      | _ => o.dtype != 0 || o.rop != 0)
  || (k != 4 && o.stage != 0)
  || (match o.group with
      | none => (s.flow (nth o.flows 0 0)).st != 1 || s.flowPart (nth o.flows 0 0) != part
      | some g =>
        let x := s.grpDesc g
        decide (1023 < g) || !gValid x || gPart x != part || gMulti x != (k == 7) || (k == 7 && o.my != 0))

/-- What an operation has still to send or have acknowledged on flow `f` (R422). -/
def State.partBusy (s : State) (o : QOp) (f : Nat) : Bool :=
  let x := s.flow f
  x.queue.any (fun k => k.op == o.id) || x.sent.any (fun k => k.op == o.id)
  || o.kind == 2 || (o.kind == 4 && !o.combined) || (o.kind == 7 && decide (o.fan < o.len) && !o.ejected.contains f)

/-- A fenced descriptor waits for earlier ones of its ring on its flows (R422). -/
def State.fenceHolds (s : State) (o : QOp) : Bool :=
  s.fab.ops.any (fun e => e.cid == o.cid && e.task == o.task && 1 ≤ e.kind && e.kind ≤ 7 && o.uses.any (fun f => e.uses.contains f && s.partBusy e f))

/-- The next descriptor of a task's ring taken if it is of kind `kind`; `go` starts its operation. A put also takes a descriptor
of no kind, which is faulty. -/
def State.postStep (s0 : State) (cid task kind : Nat) (host : HostView) (go : State → QOp → UnitId → State × UOut) : State :=
  match (s0.cmd cid).posts[task]? with
  | none => s0
  | some (base, m, _) =>
    let x := s0.posted cid task
    if !s0.mayPost cid task || x.head == x.tail then s0
    else
      let u : UnitId := ⟨4, dieOfTile (s0.postTile cid task)⟩
      let rd := s0.unitRead cid u host (base + 64 * x.head) 64
      match rd.2 with
      | .missing => s0
      | .wait | .ended => rd.1
      | .ok d =>
        let o := rd.1.descOp cid task d
        if o.kind != kind && !(kind == 1 && (o.kind == 0 || 7 < o.kind)) then s0
        else if rd.1.descFaulty cid d o then rd.1.endCmd cid 8 1 [] false
        else if o.fence && rd.1.fenceHolds o then s0
        else
          let r := go rd.1 o u
          match r.2 with
          | .missing => s0
          | .ok _ => if (r.1.cmd cid).posts.isEmpty then r.1 else r.1.updPosted cid task (fun x => { x with head := (x.head + 1) % 2 ^ m })
          | _ => r.1

/-! ## One-sided operations (R424) -/

/-- What PUT does once what it moves is admitted and the host has released what it writes. -/
def State.doPut (s : State) (queue seq task : Nat) (host : HostView) : State :=
  s.postStep (cidOf queue seq) task 1 host (fun s o u =>
    let rd := s.unitRead o.cid u host o.loc o.len
    match rd.2 with
    | .ok d =>
      let f := nth o.flows 0 0
      let a := rd.1.addOp o
      ((a.1.enqueue f (dataPkts 1 a.2 (s.maxPayload f) 0 d (fun off => o.rem + off) 0 0)).sendFlow f, .ok [])
    | x => (rd.1, x))

/-- PUT: a posted put sends its data to the peer. -/
def execPut (queue seq task : Nat) (host : HostView) (s : State) : Host.Outcome State Fault Refusal :=
  runMem (Instr.wf (.put queue seq task host)) host.ecc s (fun s => s.doPut queue seq task host)

/-- What GET does once what it moves is admitted and the host has released what it writes. -/
def State.doGet (s : State) (queue seq task : Nat) (host : HostView) : State :=
  s.postStep (cidOf queue seq) task 2 host (fun s o _ =>
    let f := nth o.flows 0 0
    let a := s.addOp o
    ((a.1.enqueue f (getPkts a.2)).sendFlow f, .ok []))

/-- GET: a posted get asks the peer for its bytes. -/
def execGet (queue seq task : Nat) (host : HostView) (s : State) : Host.Outcome State Fault Refusal :=
  runMem (Instr.wf (.get queue seq task host)) host.ecc s (fun s => s.doGet queue seq task host)

/-- What ATOMIC_ADD does once what it moves is admitted and the host has released what it writes. -/
def State.doAtomicAdd (s : State) (queue seq task : Nat) (host : HostView) : State :=
  s.postStep (cidOf queue seq) task 3 host (fun s o u =>
    let rd := s.unitRead o.cid u host o.loc o.len
    match rd.2 with
    | .ok d =>
      let f := nth o.flows 0 0
      let a := rd.1.addOp o
      let s := if redFloat o.dtype then a.1.updCmd o.cid (fun c => { c with numsum := c.numsum ||| 2 ^ 14 }) else a.1
      ((s.enqueue f (dataPkts 4 a.2 (s.maxPayload f) 0 d (fun off => o.rem + off) 0 (o.dtype + 16 * o.rop))).sendFlow f, .ok [])
    | x => (rd.1, x))

/-- ATOMIC_ADD: a posted atomic add sends its operands; a floating type makes the launch unordered. -/
def execAtomicAdd (queue seq task : Nat) (host : HostView) (s : State) : Host.Outcome State Fault Refusal :=
  runMem (Instr.wf (.atomicAdd queue seq task host)) host.ecc s (fun s => s.doAtomicAdd queue seq task host)

/-! ## Collectives (R427) -/

/-- INFO of a collective's packets. -/
def QOp.info (o : QOp) : Nat := o.kind + 8 * o.dtype + 64 * o.rop

/-- Data of a collective queued for rank `r`, to lie from byte `base` of its result. -/
def State.collSend (s : State) (o : QOp) (step r base : Nat) (data : List Nat) : State :=
  let f := nth o.flows r 0
  if r = o.my || data.isEmpty then s
  else s.enqueue f (dataPkts 5 o (s.maxPayload f) 0 data (fun off => base + off) step o.info)

/-- A collective started: refused at once where it was aborted before, or a member's flow is not open. -/
def State.collStart (s : State) (o : QOp) : State × QOp × Bool :=
  let a := s.addOp o
  let beyond := match o.group with | some g => (s.grp g).ended.contains o.seq | none => false
  if beyond || o.uses.any (fun f => (s.flow f).st != 1) then (a.1.opFails a.2 3 7, a.2, false) else (a.1, a.2, true)

/-- The combination of the contributions to one element, in rank order (R427): its encoding and flags. -/
def collCombine (dtype rop : Nat) (xs : List Nat) : Nat × Nat :=
  if dtype = 5 then
    let zs := xs.map (signed 32)
    match zs with
    | [] => (0, 0)
    | z :: t => (ofInt 32 (t.foldl (fun a b => if rop = 0 then signed 32 (ofInt 32 (a + b)) else if rop = 1 then min a b else max a b) z), 0)
  else
    match xs.map (decodeNum (redFmt dtype)) with
    | [] => (0, 0)
    | x :: t =>
      let r := t.foldl (fun (a : NumVal × Nat) y =>
        if rop = 0 then (let v := op32 (NumVal.add a.1 y); (v.1, a.2 ||| v.2)) else (numMinMax (rop == 2) a.1 y, a.2)) (x, 0)
      let c := cvtFloat (redFmt dtype) (dtype == 0) .rne r.1
      (c.val, r.2 ||| c.flags)

/-- Received bytes of a step. -/
def QOp.received (o : QOp) (step : Nat) : Nat := sumN ((o.got.filter (fun g => g.1 == step)).map (fun g => g.2.2.2))

/-- Place of rank `r`'s contribution in STAGE_ADDR. -/
def QOp.stageAt (o : QOp) (r : Nat) : Nat := o.stage + (if r < o.my then r else r - 1) * o.chunk

/-- An all-reduce whose chunk is complete is combined, kept and sent on as step 1. -/
def State.collCombineAll (s : State) (id : Nat) (host : HostView) : State × UOut :=
  match s.fab.ops.find? (fun o => o.id == id) with
  | none => (s, .ok [])
  | some o =>
    let n := o.chunkLen o.my
    if o.kind != 4 || o.combined || o.received 0 < (o.flows.length - 1) * n then (s, .ok [])
    else
      let u : UnitId := ⟨4, dieOfTile o.tile⟩
      let rs := (upto o.flows.length).filter (· != o.my)
      let rd := s.unitReads o.cid u host (rs.map (fun r => (o.stageAt r, n)))
      match rd.2 with
      | .ok d =>
        let w := redBytes o.dtype
        let mine := (o.src.drop (o.my * o.chunk)).take n
        let part (r : Nat) : List Nat := if r = o.my then mine else (d.drop ((if r < o.my then r else r - 1) * n)).take n
        let out := (upto (n / w)).map (fun k => collCombine o.dtype o.rop ((upto o.flows.length).map (fun r => fieldOf (part r) (w * k) w)))
        let bytes := (out.map (fun x => natBytes w x.1)).flatten
        let s := rd.1.raiseCmd o.cid (out.foldl (fun f x => f ||| x.2) 0)
        let wr := s.unitWrite o.cid u host (o.rem + o.my * o.chunk) bytes
        (match wr.2 with
         | .ok _ =>
           let s := wr.1.updOp id (fun o => { o with combined := true })
           (((upto o.flows.length).foldl (fun s r => s.collSend o 1 r (o.my * o.chunk) bytes) s).sendAll, .ok [])
         | x => (wr.1, x))
      | x => (rd.1, x)

/-- What ALL_REDUCE does once what it moves is admitted and the host has released what it writes. -/
def State.doAllReduce (s : State) (queue seq task : Nat) (host : HostView) : State :=
  s.postStep (cidOf queue seq) task 4 host (fun s o u =>
    let rd := s.unitRead o.cid u host o.loc o.len
    match rd.2 with
    | .ok d =>
      let c := rd.1.collStart { o with src := d }
      if !c.2.2 then (c.1, .ended)
      else
        let s := ((upto o.flows.length).foldl (fun s r =>
          s.collSend c.2.1 0 r (r * o.chunk) ((d.drop (r * o.chunk)).take (o.chunkLen r))) c.1).sendAll
        s.collCombineAll c.2.1.id host
    | x => (rd.1, x))

/-- ALL_REDUCE: chunk r of the local data goes to rank r. -/
def execAllReduce (queue seq task : Nat) (host : HostView) (s : State) : Host.Outcome State Fault Refusal :=
  runMem (Instr.wf (.allReduce queue seq task host)) host.ecc s (fun s => s.doAllReduce queue seq task host)

/-- What ALL_TO_ALL does once what it moves is admitted and the host has released what it writes. -/
def State.doAllToAll (s : State) (queue seq task : Nat) (host : HostView) : State :=
  s.postStep (cidOf queue seq) task 5 host (fun s o u =>
    let rd := s.unitRead o.cid u host o.loc (o.len * o.flows.length)
    match rd.2 with
    | .ok d =>
      let c := rd.1.collStart o
      if !c.2.2 then (c.1, .ended)
      else
        let block (r : Nat) : List Nat := (d.drop (r * o.len)).take o.len
        let wr := c.1.unitWrite o.cid u host (o.rem + o.my * o.len) (block o.my)
        (match wr.2 with
         | .ok _ => (((upto o.flows.length).foldl (fun s r => s.collSend c.2.1 0 r (o.my * o.len) (block r)) wr.1).sendAll, .ok [])
         | x => (wr.1, x))
    | x => (rd.1, x))

/-- ALL_TO_ALL: block i of the local data goes to rank i. -/
def execAllToAll (queue seq task : Nat) (host : HostView) (s : State) : Host.Outcome State Fault Refusal :=
  runMem (Instr.wf (.allToAll queue seq task host)) host.ecc s (fun s => s.doAllToAll queue seq task host)

/-- What ALL_GATHER does once what it moves is admitted and the host has released what it writes. -/
def State.doAllGather (s : State) (queue seq task : Nat) (host : HostView) : State :=
  s.postStep (cidOf queue seq) task 6 host (fun s o u =>
    let rd := s.unitRead o.cid u host o.loc o.len
    match rd.2 with
    | .ok d =>
      let c := rd.1.collStart o
      if !c.2.2 then (c.1, .ended)
      else
        let wr := c.1.unitWrite o.cid u host (o.rem + o.my * o.len) d
        (match wr.2 with
         | .ok _ => (((upto o.flows.length).foldl (fun s r => s.collSend c.2.1 0 r (o.my * o.len) d) wr.1).sendAll, .ok [])
         | x => (wr.1, x))
    | x => (rd.1, x))

/-- ALL_GATHER: the local data goes to every rank. -/
def execAllGather (queue seq task : Nat) (host : HostView) (s : State) : Host.Outcome State Fault Refusal :=
  runMem (Instr.wf (.allGather queue seq task host)) host.ecc s (fun s => s.doAllGather queue seq task host)

/-! ## Multicast (R432, R433) -/

/-- Bytes of a multicast that a member has cumulatively acknowledged. -/
def State.mcAcked (s : State) (o : QOp) (f : Nat) : Nat :=
  let x := s.flow f
  let open' := (x.queue.filter (fun k => k.op == o.id)).map (·.off) ++ (x.sent.filter (fun k => k.op == o.id)).map (·.off)
  open'.foldl min (if o.ejected.contains f then o.len else o.fan)

/-- The payload of a multicast's packets: what every member's flow takes. -/
def State.mcPayload (s : State) (o : QOp) : Nat := (o.uses.map s.maxPayload).foldl min 4096

/-- A member whose lag exceeds 1 MiB ejected: its queued packets dropped, a catch-up of every byte beyond its cumulative
acknowledgement queued. -/
def State.mcEject (s : State) (id f : Nat) : State :=
  match s.fab.ops.find? (fun o => o.id == id) with
  | none => s
  | some o =>
    let acked := s.mcAcked o f
    let lag := o.fan - acked
    if o.ejected.contains f || lag ≤ 1048576 then s
    else
      let s := s.updFlow f (fun x => { x with queue := x.queue.filter (fun k => k.op != id) })
      let s := s.updOp id (fun o => { o with ejected := o.ejected ++ [f] })
      let s := s.enqueue f (dataPkts 1 o (s.maxPayload f) acked (o.src.drop acked) (fun off => o.rem + off) 0 0)
      let s := s.bump 0x40002C 32 1
      s.blotCmd o.cid 0x0607 ⟨7, dieOfTile o.tile⟩ 0 [(o.group.getD 0, 2), ((o.flows.findIdx? (· == f)).getD 0, 2), (lag, 8)] false

/-- The next packet of a multicast sent to the fan-out while some member still in it has nothing queued. `fuel` bounds the
packets. -/
def State.mcFan : Nat → State → Nat → State
  | 0, s, _ => s
  | fuel + 1, s, id =>
    match s.fab.ops.find? (fun o => o.id == id) with
    | none => s
    | some o =>
      let ms := o.uses.filter (fun f => !o.ejected.contains f)
      if o.kind != 7 || o.len ≤ o.fan || !ms.any (fun f => !((s.flow f).queue.any (fun k => k.op == id))) then s
      else
        let n := min (s.mcPayload o) (o.len - o.fan)
        let k : TxPkt := { kind := 1, opid := o.id, op := o.id, cid := some o.cid, die := some o.die, flags := 4 * b2n o.fence + (if o.fan + n = o.len then 8 else 0), off := o.fan,
                           fields := opExt (o.rem + o.fan) n o.fan 0 0 0 0, data := (o.src.drop o.fan).take n }
        let s := s.updOp id (fun o => { o with fan := o.fan + n })
        let s := ms.foldl (fun s f => (s.enqueue f [k]).sendFlow f) s
        State.mcFan fuel (ms.foldl (fun s f => s.mcEject id f) s) id

/-- Every multicast goes on as far as it may. -/
def State.mcAll (s : State) : State :=
  (s.fab.ops.filter (fun o => o.kind == 7)).foldl (fun s o => State.mcFan (o.len / 1024 + 2) s o.id) s

/-- What MCAST_PUT does once what it moves is admitted and the host has released what it writes. -/
def State.doMcastPut (s : State) (queue seq task : Nat) (host : HostView) : State :=
  s.postStep (cidOf queue seq) task 7 host (fun s o u =>
    let rd := s.unitRead o.cid u host o.loc o.len
    match rd.2 with
    | .ok d =>
      let a := rd.1.addOp { o with src := d }
      if o.uses.any (fun f => (s.flow f).st != 1) then (a.1.opFails a.2 3 7, .ended)
      else (State.mcFan (o.len / 1024 + 2) a.1 a.2.id, .ok [])
    | x => (rd.1, x))

/-- MCAST_PUT: the root sends its data to every member (R432). -/
def execMcastPut (queue seq task : Nat) (host : HostView) (s : State) : Host.Outcome State Fault Refusal :=
  runMem (Instr.wf (.mcastPut queue seq task host)) host.ecc s (fun s => s.doMcastPut queue seq task host)

/-! ## Completion (R422) -/

/-- An operation of a ring has completed (R424, R427, R432). -/
def State.opDone (s : State) (o : QOp) : Bool :=
  !s.opBusy o.id && !s.host.goWait.any (fun w => w.op == o.id) &&
  (match o.kind with
   | 1 | 3 => true
   | 2 => decide (o.len ≤ sumN (o.got.map (fun g => g.2.2.2)))
   | 4 => o.combined && decide (o.len - o.chunkLen o.my ≤ o.received 1)
   | 5 | 6 => decide ((o.flows.length - 1) * o.len ≤ o.received 0)
   | 7 => decide (o.len ≤ o.fan)
   | _ => false)

/-- A token raised by one, in the frame of a saved task or on its tile; above 255 the launch ends (R178). -/
def State.raiseToken (s : State) (o : QOp) (k : Nat) : State :=
  let key := frameKey o.cid o.task
  let f := Tbl.get {} s.saved key
  if f.task.isSome then
    if 255 ≤ nth f.tokens k 0 then s.endCmd o.cid 8 7 [] false
    else { s with saved := Tbl.set {} s.saved key { f with tokens := updAt f.tokens k (· + 1) } }
  else match s.taskTile o.cid o.task with
    | none => s
    | some t => if 255 ≤ s.token t k then s.invalidAt t else s.setToken t k (s.token t k + 1)

/-- QUILL_OPERATION_COMPLETE: an operation that has completed raises its token. -/
def execQuillOperationComplete (op : Nat) (s : State) : Host.Outcome State Fault Refusal :=
  run (Instr.wf (.quillOperationComplete op)) s (fun s =>
    match s.fab.ops.find? (fun o => o.id == op) with
    | none => s
    | some o =>
      if !s.opDone o then s
      else
        let s := { s with fab := { s.fab with ops := s.fab.ops.filter (fun x => x.id != op) } }
        let s := match o.group with | some g => if o.kind < 7 then s.collOver g o.seq else s | none => s
        match o.token with | some k => s.raiseToken o k | none => s)

end Sys2Proof.Machine
end

