-- ==== Sys2Proof/Machine/Fabric.lean ====
section
/-!
DEFINITION. Fabric ports, flows and groups (18): links, frames that are not Quill, the flow commands, the timers of a flow, and
group definitions.
-/
namespace Sys2Proof.Machine

/-! ## Ports (R400, R401) -/

/-- What follows a change of links, windows or credits: waiting packets are sent, and multicasts go on. -/
def State.fabGo (s : State) : State := s.sendAll.mcAll

/-- Sub-port `sub` of port `n` uses a lane that a failure entry names, in MODE `mode` (Table 19.6). -/
def State.laneFails (s : State) (n sub mode : Nat) : Bool :=
  s.nib.lanes.any (fun l => l / 8 == n && l % 8 / (8 / 2 ^ mode) == sub)

/-- FABRIC_LINK_UP: a sub-port of an enabled port comes up in an allowed mode, unless it is held down or the reference clock is stopped
(R43, R400). -/
def execFabricLinkUp (eport sub mode : Nat) (s : State) : Host.Outcome State Fault Refusal :=
  run (Instr.wf (.fabricLinkUp eport sub mode)) s (fun s =>
    let ctl := s.reg (fabPort eport)
    let st := s.reg (fabPort eport + 4)
    if !s.pace.refRun || !bit ctl 0 || !bit ctl (4 + mode) || 2 ^ mode ≤ sub || s.laneFails eport sub mode || bit st sub || (bits st 7 0 != 0 && bits st 11 10 != mode) then s
    else
      let s := s.setReg (fabPort eport + 4) (setBits (setBit st sub true) 11 10 mode)
      (s.blot { cls := 0x0602, src := ⟨7, eport⟩, detail := [(eport, 1), (sub, 1)] } [ringG]).fabGo)

/-- FABRIC_LINK_DOWN: a sub-port's link fails; the others run. -/
def execFabricLinkDown (eport sub : Nat) (s : State) : Host.Outcome State Fault Refusal :=
  run (Instr.wf (.fabricLinkDown eport sub)) s (fun s =>
    let st := s.reg (fabPort eport + 4)
    if !bit st sub then s
    else
      let s := s.setReg (fabPort eport + 4) (setBit st sub false)
      s.blot { cls := 0x0601, src := ⟨7, eport⟩, detail := [(eport, 1), (sub, 1)] } [ringG])

/-- IPv4 and IPv6 address of a sub-port, as registers hold them. -/
def State.subIp4 (s : State) (n sub : Nat) : Nat := s.reg (fabPort n + 0x40 + 0x20 * sub + 0x10)
def State.subIp6 (s : State) (n sub : Nat) : Nat :=
  s.reg (fabPort n + 0x40 + 0x20 * sub) + 2 ^ 64 * s.reg (fabPort n + 0x40 + 0x20 * sub + 8)

/-- FRAME_RECEIVE: a frame that is not Quill. Kinds: 0 ARP request, 1 Neighbor Solicitation, 2 ICMP and 3 ICMPv6 Echo Request, with the
address asked for first; 4 PTP; every other is discarded (R401). -/
def execFrameReceive (eport sub kind : Nat) (fields : List Nat) (s : State) : Host.Outcome State Fault Refusal :=
  run (Instr.wf (.frameReceive eport sub kind fields)) s (fun s =>
    if !bit (s.reg (fabPort eport + 4)) sub then s
    else
      let s := s.bump (fabPort eport + 0x18) 64 1
      let mine := if kind % 2 = 0 then s.subIp4 eport sub else s.subIp6 eport sub
      let ptp := s.reg 0x10010
      if kind < 4 && mine != 0 && nth fields 0 0 == mine then
        let answer := if kind < 2 then [mine, s.reg (fabPort eport + 8) + sub] else fields
        (s.emit (.frame eport sub kind answer)).bump (fabPort eport + 0x10) 64 1
      else if kind = 4 && bit ptp 0 && bits ptp 3 1 = eport && sub = 0 then s
      else s.bump (fabPort eport + 0x20) 64 1)

/-! ## Timers (R408, R411, R412, R418) -/

/-- ACK_DELAY_TIMER: 2 µs after the first packet that no ACK covers. -/
def execAckDelayTimer (flow : Nat) (s : State) : Host.Outcome State Fault Refusal :=
  run (Instr.wf (.ackDelayTimer flow)) s (fun s =>
    let x := s.flow flow
    if x.st = 1 && 1 ≤ x.owed && x.owedAt + 2000 ≤ s.time then s.ackNow flow else s)

/-- The retransmission timer of a packet (R412). -/
def Flow.timer (x : Flow) (k : TxPkt) : Nat := min 4000000 (max 16000 (2 * x.srtt) * 2 ^ (k.sends - 1))

/-- RETRANSMIT_TIMEOUT: the packet counts as lost, and CWND becomes 1 (R412, R415). -/
def execRetransmitTimeout (flow psn : Nat) (s : State) : Host.Outcome State Fault Refusal :=
  run (Instr.wf (.retransmitTimeout flow psn)) s (fun s =>
    let x := s.flow flow
    match x.sent.find? (fun k => k.psn == psn) with
    | none => s
    | some k =>
      if x.st = 1 && k.refused.isNone && k.again.isNone && k.sentAt + x.timer k ≤ s.time then
        ((s.updFlow flow (fun x => { x with cwnd := 256 })).resend flow psn true).fabGo
      else s)

/-- FLOW_PROGRESS_TIMEOUT: no acknowledgement has advanced for 20 ms while packets were outstanding (R412). -/
def execFlowProgressTimeout (flow : Nat) (s : State) : Host.Outcome State Fault Refusal :=
  run (Instr.wf (.flowProgressTimeout flow)) s (fun s =>
    let x := s.flow flow
    if x.st = 1 && !x.sent.isEmpty && x.advance + 20000000 ≤ s.time then (s.flowFails flow 1).fabGo else s)

/-- NAK_RETRY_TIMER: a packet refused with NOT_READY is sent again after 4 µs, not as a retransmission (Table 18.8). -/
def execNakRetryTimer (flow psn : Nat) (s : State) : Host.Outcome State Fault Refusal :=
  run (Instr.wf (.nakRetryTimer flow psn)) s (fun s =>
    let x := s.flow flow
    match (x.sent.find? (fun k => k.psn == psn && k.again.isNone)).bind (·.refused) with
    | none => s
    | some t => if x.st = 1 && t + 4000 ≤ s.time then s.resend flow psn false else s)

/-- KEY_RETIRE_TIMER: the old receiving key is retired (R408). -/
def execKeyRetireTimer (flow : Nat) (s : State) : Host.Outcome State Fault Refusal :=
  run (Instr.wf (.keyRetireTimer flow)) s (fun s =>
    let x := s.flow flow
    match x.retireAt, x.rxNext with
    | some t, some k =>
      if t ≤ s.time then s.updFlow flow (fun x => { x with rx := k, rxNext := none, rxEpoch := !x.rxEpoch, retireAt := none }) else s
    | _, _ => s)

/-! ## Flow commands (R405-R409) -/

/-- FAB_FLOW_SEL. -/
def State.flowSel (s : State) : Nat := s.field 0x400100 15 0

/-- A descriptor keeps the ranges of Table 18.6. -/
def State.flowDescOk (s : State) (f : Nat) : Bool :=
  let b (off n : Nat) : Nat := s.fdesc f off n
  b 0 2 < 2 ^ 15 && b 4 1 < 16 && b 5 1 < 2 && b 6 1 < 64 && b 7 1 != 0
  && [1024, 2048, 4096].contains (b 8 2) && 1 ≤ b 10 1 && b 10 1 ≤ 4 && b 11 5 == 0 && b 88 40 == 0
  && (bit (b 5 1) 0 || (upto (b 10 1)).all (fun i => b (16 + 16 * i) 12 == 0))

/-- Open flows of a partition. -/
def State.openFlows (s : State) (p : Nat) : Nat := (s.fab.flows.filter (fun e => e.2.st = 1 && s.flowPart e.1 == p)).length

/-- The result of a flow command. -/
def State.flowErr (s : State) (f e : Nat) : State := s.updFlow f (fun x => { x with err := e })

/-- The starting state of R406 under given keys. -/
def Flow.start (x : Flow) (tx rx : List Nat) : Flow := { st := 1, keys := x.keys, tx := tx, rx := rx }

/-- A flow command takes registers like any write outside the nib block (R440). -/
def State.flowCmd (s : State) (f : State → Nat → State) : State := if s.regsOpen then f s s.flowSel else s

/-- OPEN: the selected flow opens, or FAB_FLOW_STATUS.ERROR says why not (R406). -/
def execFlowOpen (port : Nat) (s : State) : Host.Outcome State Fault Refusal :=
  run (Instr.wf (.flowOpen port)) s (fun s => s.flowCmd (fun s f =>
    let x := s.flow f
    let p := s.flowPart f
    let quota := match cfgPart s.folio.active p with | some r => r.f 48 4 | none => 0
    if x.st != 0 then s.flowErr f 3
    else if !s.flowDescOk f then s.flowErr f 2
    else if !s.serving p then s.flowErr f 5
    else if quota ≤ s.openFlows p then s.flowErr f 1
    else if bits x.keySet 7 0 != 255 then s.flowErr f 4
    else if !bit (s.reg 0x400000) 0 || !s.fab.devSet then s.flowErr f 3
    else s.updFlow f (fun x => x.start (x.keys.take 4) ((x.keys.drop 4).take 4))))

/-- CLOSE: the flow's operations end, nothing more is sent, and it is FREE (R409). -/
def execFlowClose (port : Nat) (s : State) : Host.Outcome State Fault Refusal :=
  run (Instr.wf (.flowClose port)) s (fun s => s.flowCmd (fun s f =>
    if (s.flow f).st = 0 then s.flowErr f 3
    else ((s.flowDown f 0).updFlow f (fun _ => {})).fabGo))

/-- RESET: a failed or quarantined flow starts again under its current keys (R409). -/
def execFlowReset (port : Nat) (s : State) : Host.Outcome State Fault Refusal :=
  run (Instr.wf (.flowReset port)) s (fun s => s.flowCmd (fun s f =>
    let x := s.flow f
    if x.st = 2 || x.st = 3 then s.updFlow f (fun x => { x.start x.tx x.rx with keySet := x.keySet }) else s.flowErr f 3))

/-- RX_NEXT: the flow accepts both epochs (R408). -/
def execRxNext (port : Nat) (s : State) : Host.Outcome State Fault Refusal :=
  run (Instr.wf (.rxNext port)) s (fun s => s.flowCmd (fun s f =>
    let x := s.flow f
    let e := b2n !x.rxEpoch
    if x.st != 1 || x.retireAt.isSome then s.flowErr f 3
    else if bits x.keySet 11 8 != 15 then s.flowErr f 4
    else s.updFlow f (fun x => { x with rxNext := some (x.keys.drop 8), keySet := x.keySet % 256, err := 0,
                                        high := updAt x.high e (fun _ => 0), seen := updAt x.seen e (fun _ => []) })))

/-- SWITCH_TX: the sender inverts KEY_EPOCH and restarts TXSEQ (R408). -/
def execSwitchTx (port : Nat) (s : State) : Host.Outcome State Fault Refusal :=
  run (Instr.wf (.switchTx port)) s (fun s => s.flowCmd (fun s f =>
    let x := s.flow f
    if x.st != 1 then s.flowErr f 3
    else if bits x.keySet 3 0 != 15 then s.flowErr f 4
    else (s.updFlow f (fun x => { x with tx := x.keys.take 4, keySet := x.keySet / 16 * 16, epoch := !x.epoch, txseq := 0, err := 0 })).fabGo))

/-! ## Groups (R426) -/

/-- The flows a group's list names, if the list lies in T1 in a segment of the partition. -/
def State.flowList (s : State) (p ranks a : Nat) : Option (List Nat) :=
  if aligned a 64 && (s.segOf p a (2 * ranks)).isSome
      && (match s.phys a, s.phys (a + 2 * ranks - 1) with | some x, some y => tierOf x == 1 && tierOf y == 1 | _, _ => false) then
    some ((upto ranks).map (fun i => s.numDP (a + 2 * i) 2))
  else none

/-- GROUP_DEFINE: a write of FAB_GRP_DESC0. -/
def execGroupDefine (port value : Nat) (s : State) : Host.Outcome State Fault Refusal :=
  run (Instr.wf (.groupDefine port value)) s (fun s =>
    let g := s.field 0x400300 9 0
    if !s.regsOpen then s
    else if s.grpBusy g then s.barError port 0x400308 8 value
    else
      let v := value &&& (ones 63 28 ||| 3)
      let p := gPart v
      let n := gRanks v
      let list := if gValid v && 2 ≤ n && n ≤ 4096 && gRank v < n then s.flowList p n (s.reg (selKey 0x400310 g)) else none
      let fl := list.getD []
      let ok := list.isSome && (fl.zipIdx).all (fun f => f.2 == gRank v || ((s.flow f.1).st == 1 && s.flowPart f.1 == p))
      let s := s.setReg (selKey 0x400308 g) (setBit v 0 ok)
      { s with fab := { s.fab with groups := Tbl.set {} s.fab.groups g { flows := if ok then fl else [], ended := [] } } })

end Sys2Proof.Machine
end

