-- ==== Sys2Proof/Machine/Measure.lean ====
section
/-!
DEFINITION. The measurements (19, R445) and the anti-rollback counters (R436).
-/
namespace Sys2Proof.Machine

/-- The value of an anti-rollback counter: its last row programmed. -/
def counterOf (rows : List Nat) : Nat := (rows.getLast?).getD 0

/-- Rows of a counter (R436). -/
def counterRows : Nat := 64

/-- The retirement list and the page-retirement list as bytes, in flash order. -/
def State.listBytes (s : State) : List Nat :=
  (s.folio.retired.map (fun u => natBytes 1 u.1 ++ natBytes 2 u.2.1 ++ natBytes 4 u.2.2)).flatten
  ++ (s.memc.pages.map (fun p => natBytes 8 (4096 * p))).flatten

/-- The raw value of index 10 (Table 19.7). -/
def State.measRaw (s : State) : List Nat :=
  natBytes 48 ((s.flash.owners.getLast?).getD 0) ++ natBytes 4 (counterOf s.flash.folioRows) ++ natBytes 4 (counterOf s.flash.bootRows)
  ++ [s.flash.owners.length, 0, 0, 0]

/-- Measurement `i` (Table 19.7): 48 bytes, or the raw value of index 10. -/
def State.meas (s : State) (i : Nat) : List Nat :=
  let runs := !s.nib.bootRun.isEmpty
  match i with
  | 1 => natBytes 48 (if runs then Config.romDigest else 0)
  | 2 => natBytes 48 (if runs then Config.sha384 s.nib.bootRun else 0)
  | 3 | 4 | 5 => natBytes 48 (nth s.nib.fw (i - 3) 0)
  | 6 => natBytes 48 (if s.folio.full.isEmpty then 0 else Config.sha384 s.folio.full)
  | 7 => natBytes 48 s.nib.chain
  | 8 => natBytes 48 s.nib.recDig
  | 9 => natBytes 48 (Config.sha384 s.listBytes)
  | 10 => s.measRaw
  | _ => natBytes 48 0

/-- MEASUREMENT_CHANGED for every index that differs from `before` (R445). -/
def State.measChanged (s before : State) : State :=
  (upto 10).foldl (fun a k =>
    if s.meas (k + 1) == before.meas (k + 1) then a
    else a.blot { cls := 0x0204, src := ⟨5, s.leadDie⟩, detail := [(k + 1, 1), (fieldOf (s.meas (k + 1)) 0 16, 16)] } [ringG]) s

/-- Measurement 7 after a patch or repair of digest `d` is applied. -/
def State.chained (s : State) (d : Nat) : State :=
  { s with nib := { s.nib with chain := Config.sha384 (natBytes 48 s.nib.chain ++ natBytes 48 d) } }

end Sys2Proof.Machine
end

