-- ==== Sys2Proof/Machine/FolioCheck.lean ====
section
/-!
DEFINITION. The folio container and its validation (03, R50-R61): the checks of Table 3.14 in their order.
-/
namespace Sys2Proof.Machine

/-! ## Container (R50-R54) -/

/-- A section table entry (Table 3.2). -/
structure FSec where
  typ : Nat
  action : Nat
  count : Nat
  off : Nat
  size : Nat
  rsize : Nat
  res : Nat
deriving DecidableEq, Repr

/-- MAGIC of a folio: "LN7FOLIO". -/
def folioMagic : List Nat := [0x4C, 0x4E, 0x37, 0x46, 0x4F, 0x4C, 0x49, 0x4F]

/-- KIND, TARGET_PART and the digest of a folio (R51, R52). -/
def folioKind (b : List Nat) : Nat := fieldOf b 10 2
def folioTarget (b : List Nat) : Nat := fieldOf b 48 1 % 16
def folioSerial (b : List Nat) : Nat := fieldOf b 32 8
def folioSecver (b : List Nat) : Nat := fieldOf b 28 4

/-- Section `i` of a folio. -/
def folioSec (b : List Nat) (i : Nat) : FSec :=
  let o := fieldOf b 52 4 + 32 * i
  ⟨fieldOf b o 2, fieldOf b (o + 2) 2, fieldOf b (o + 4) 4, fieldOf b (o + 8) 8, fieldOf b (o + 16) 8, fieldOf b (o + 24) 4,
   fieldOf b (o + 28) 4⟩

/-- The section table, of at most 1,024 entries. -/
def folioSecs (b : List Nat) : List FSec := (upto (min (fieldOf b 24 4) 1024)).map (folioSec b)

/-- FIRMWARE records: 64 bytes and the image, each rounded up to 64 (R59). -/
def fwRecs : Nat → List Nat → List Rec
  | 0, _ => []
  | n + 1, l =>
    let k := 64 + fieldOf l 4 4
    ⟨secFirmware, l.take k⟩ :: fwRecs n (l.drop (alignUp k 64))

/-- The records of a section. -/
def secRecs (b : List Nat) (x : FSec) : List Rec :=
  if x.typ = secFirmware then fwRecs (min x.count 4) ((b.drop x.off).take x.size)
  else (upto x.count).map (fun i => ⟨x.typ, (b.drop (x.off + i * x.rsize)).take x.rsize⟩)

/-- The records of a folio with the ACTION of each. -/
def folioRecs (b : List Nat) : List (Nat × Rec) :=
  ((folioSecs b).map (fun x => (secRecs b x).map (fun r => (x.action, r)))).flatten

/-- Bytes per record of a section type (Table 3.3, R190); a FIRMWARE section's RECORD_SIZE is the 64 bytes before each image (log entry 207). -/
def recSize (typ : Nat) : Nat := nth [0, 16, 64, 32, 16, 16, 64, 80, 32, 64, 16] typ 0

/-- The partition a record belongs to. -/
def Rec.owner (r : Rec) : Option Nat :=
  if r.typ = secQueue then some (r.part 2) else if r.typ = secModel then some (r.part 4)
  else if 2 ≤ r.typ && r.typ ≤ 8 then some (r.part 0) else none

/-- The key of a record (R54), with its type. -/
def Rec.key (r : Rec) : List Nat :=
  r.typ :: (match r.typ with
    | 2 => [r.part 0]
    | 3 => [r.part 0, r.f 4 2]
    | 4 => [r.part 0, r.f 1 1, r.f 2 1]
    | 5 => [r.f 0 2]
    | 6 => [r.part 4, r.f 0 4]
    | 7 => [r.f 4 4]
    | 8 => [r.part 0, r.f 2 2, r.f 8 8]
    | 9 => [r.f 0 1]
    | 10 => [r.f 0 1, r.f 2 2]
    | _ => [])

/-- One record of a patch applied to a configuration (R54). -/
def applyRec (cfg : List Rec) (a : Nat × Rec) : List Rec :=
  if a.1 = 2 then cfg.filter (fun r => r.key != a.2.key)
  else if cfg.any (fun r => r.key == a.2.key) then cfg.map (fun r => if r.key == a.2.key then a.2 else r)
  else cfg ++ [a.2]

/-- The configuration that results: the new full folio, or the active one with the patch applied (R60). -/
def resulting (active : List Rec) (b : List Nat) : List Rec :=
  if folioKind b = 1 then (folioRecs b).map (·.2) else (folioRecs b).foldl applyRec active

/-! ## Checks 0x01 to 0x07 -/

/-- Check 0x01. ACTIONs of RETIRE sections are left to check 0x0C (R70). A FULL folio that names a partition or a base digest fails here too
(log entry 207). -/
def failsFormat (b : List Nat) (kind : Nat) : Bool :=
  let full := decide (kind = 1)
  let secBad (x : FSec) : Bool :=
    x.typ = 0 || 10 < x.typ || 2 < x.action || x.res != 0
    || (x.typ != secRetire && (if full then x.action != 0 else x.action == 0))
  b.take 8 != folioMagic || fieldOf b 8 2 != 1 || folioKind b != kind || fieldOf b 12 4 != 512 || folioSerial b == 0
  || (if full then fieldOf b 48 1 != 0xFF || fieldOf b 56 48 != 0 else 15 < fieldOf b 48 1)
  || 1 < fieldOf b 49 1 || !zeroBytes b 50 52 || !zeroBytes b 248 512
  || (upto (min (fieldOf b 24 4) 1024)).any (fun i => decide (fieldOf b 52 4 + 32 * i + 32 ≤ b.length) && secBad (folioSec b i))

/-- Check 0x02. -/
def failsSize (b : List Nat) (kind : Nat) : Bool :=
  decide (b.length < 512) || decide ((if kind = 1 then 268435456 else 16777216) < fieldOf b 16 8) || fieldOf b 16 8 != b.length

/-- The owner key's digest: the highest programmed slot (R437). -/
def State.ownerKey (s : State) : Option Nat := s.flash.owners.getLast?

/-- The message a folio's signature covers (R52). -/
def signedBytes (b : List Nat) (off : Nat) : List Nat := b.take off ++ List.replicate 96 0 ++ b.drop (off + 96)

/-- Check 0x03 (R52, Table 3.15): SIGNER tells which of the keys SIGNER_KEY_ID must be (log entry 207). -/
def State.failsSignature (s : State) (b : List Nat) (kind : Nat) : Bool :=
  let id := fieldOf b 104 48
  let allowed := if fieldOf b 49 1 = 0 then s.ownerKey == some id else decide (kind = 3) && id == Config.identityKeyId
  !allowed || !Config.ecdsaVerify id (signedBytes b 152) (fieldOf b 152 96)

/-- Check 0x04. -/
def State.failsSecver (s : State) (b : List Nat) : Bool :=
  let m := counterOf s.flash.folioRows
  decide (folioSecver b < m) || (folioRecs b).any (fun a => a.2.typ == secFirmware && decide (a.2.f 12 4 < m))

/-- Check 0x05. -/
def failsTarget (b : List Nat) : Bool := fieldOf b 40 8 != 0 && fieldOf b 40 8 != Config.serial

/-- Check 0x06. -/
def State.failsBase (s : State) (b : List Nat) (kind : Nat) : Bool :=
  kind != 1 && (s.folio.full.isEmpty || fieldOf b 56 48 != Config.sha384 s.folio.full)

/-- Whether two half-open ranges share a byte. -/
def meets (a b : Nat × Nat) : Bool := decide (a.1 < b.2) && decide (b.1 < a.2) && decide (a.1 < a.2) && decide (b.1 < b.2)

/-- Whether some two of a list of ranges share a byte. -/
def anyMeet : List (Nat × Nat) → Bool
  | [] => false
  | x :: xs => xs.any (fun y => meets x y) || anyMeet xs

/-- A section keeps the limits of Table 3.3 on what it carries. -/
def secLimit (b : List Nat) (x : FSec) : Bool :=
  let rs := secRecs b x
  let per (n : Nat) : Bool := (upto 16).all (fun p => decide ((rs.filter (fun r => r.owner == some p)).length ≤ n))
  match x.typ with
  | 1 => decide (x.count ≤ 1)
  | 2 => 1 ≤ x.count && x.count ≤ 16
  | 3 => x.count ≤ 1024 && per 64
  | 4 => x.count ≤ 416 && per 26
  | 5 => decide (x.count ≤ 4095)
  | 6 => x.count ≤ 4096 && per 256
  | 7 => decide (x.count ≤ 65536)
  | 8 => decide (x.count ≤ 1024)
  | 9 => decide (x.count ≤ 3)
  | _ => decide (x.count ≤ 256)

/-- Check 0x07. Bodies may lie before the section table: no check names the order of the two (log entry 207). -/
def failsLayout (b : List Nat) (kind : Nat) : Bool :=
  let n := fieldOf b 24 4
  let t := fieldOf b 52 4
  let xs := folioSecs b
  let body (x : FSec) : Bool :=
    x.off % 64 != 0 || b.length < x.off + x.size || x.rsize != recSize x.typ
    || (if x.typ = secFirmware then sumN ((secRecs b x).map (fun r => alignUp (64 + r.f 4 4) 64)) != x.size else x.size != x.count * x.rsize)
  n = 0 || 1024 < n || t < 512 || t % 64 != 0 || b.length < t + 32 * n || xs.any body
  || anyMeet ((0, 512) :: (t, t + 32 * n) :: xs.map (fun x => (x.off, x.off + x.size)))
  || xs.any (fun x => !secLimit b x)
  || (kind = 1 && (sumN ((xs.filter (fun x => x.typ == secPackage)).map (·.count)) != 1
                   || sumN ((xs.filter (fun x => x.typ == secPartition)).map (·.count)) = 0))

/-! ## Check 0x08 -/

/-- The reserved fields of a record are zero. -/
def Rec.reservedOk (r : Rec) : Bool :=
  let z (lo hi : Nat) : Bool := zeroBytes r.data lo hi
  let p (o : Nat) : Bool := decide (r.f o 1 < 16)
  match r.typ with
  | 1 => r.f 0 4 < 8 && z 7 8 && z 12 16
  | 2 => p 0 && r.f 8 4 < 4 && z 60 64
  | 3 => p 0 && r.f 3 1 < 16 && z 24 32
  | 4 => p 0 && z 3 4 && z 12 16
  | 5 => p 2 && r.f 0 2 < 4096 && r.f 4 2 < 4096 && z 7 8 && z 12 16
  | 6 => p 4 && r.f 6 1 < 2 && z 7 8
  | 7 => p 0 && z 1 2 && r.f 4 4 < 65536 && z 8 16 && r.f 16 8 < 2 ^ 41 && r.f 31 1 < 16 && z 60 80
  | 8 => p 0 && z 1 2 && z 6 8 && z 24 32
  | 9 => z 1 4
  | 10 => z 1 2
  | _ => false

/-- A table descriptor within the ranges of Table 9.1 and R191. -/
def Rec.tableOk (r : Rec) : Bool :=
  let rows := r.f 16 8
  let dies := r.f 30 1
  let flags := r.f 31 1
  let n := r.f 32 2
  let shards := n * popCount 8 dies
  let mixed := r.f 26 1 == 1
  let w16 := mixed || r.f 27 1 == 0
  1 ≤ rows && rows ≤ 2 ^ 40 && 16 ≤ r.f 24 2 && r.f 24 2 ≤ 1024 && r.f 24 2 % 16 == 0 && r.f 26 1 < 2
  && (if mixed then r.f 27 1 == 0 else decide (r.f 27 1 < 4)) && (!w16 || r.f 28 1 == 2 || r.f 28 1 == 3) && r.f 29 1 < 3 && dies != 0
  && 1 ≤ n && n ≤ 256 && r.f 34 2 < n && (n != 1 || r.f 40 4 == 0) && (bit flags 2 || r.f 44 4 == 0)
  && (!bit flags 3 || (r.f 48 1 < 16 && r.f 49 1 < 4 && r.f 50 1 < 4 && r.f 51 1 < 4 && r.f 54 2 ≤ r.f 52 2 && r.f 56 4 ≤ 3600000))
  && (match r.f 29 1 with
      | 0 => n == 1
      | 1 => decide (shards ≤ rows)
      | _ => 2 ≤ rows && 2 ^ Nat.log2 rows == rows && 2 ^ Nat.log2 shards == shards && shards ≤ rows)
  && (mixed || !bit flags 3)

/-- A record within its own ranges. -/
def Rec.fieldOk (r : Rec) : Bool :=
  let mib2 (o : Nat) : Bool := r.f o 8 % 2097152 == 0
  r.reservedOk && (match r.typ with
  | 1 => (r.f 4 2 == 6400 || r.f 4 2 == 8000) && r.f 6 1 ≤ 8 && (r.f 8 4 == 0 || r.f 8 4 == 1048576)
  | 2 => r.f 1 1 < 3 && (r.f 1 1 != 1 || (1100 ≤ r.f 2 2 && r.f 2 2 ≤ 1900)) && 1 ≤ r.f 12 2 && r.f 12 2 ≤ 400 && r.f 14 1 < 8
         && r.f 15 1 ≤ 100 && 1 ≤ r.f 16 4 && r.f 16 4 ≤ 16777216 && mib2 24 && mib2 32 && mib2 40
  | 3 => 1 ≤ r.f 1 1 && r.f 1 1 ≤ 3 && r.f 2 1 < 2 && r.f 4 2 < 64 && r.f 6 1 < 2 && (r.f 6 1 == 0 || r.f 1 1 == 1)
         && (if r.f 6 1 = 0 && r.f 1 1 = 1 then decide (r.f 7 1 < 8) else r.f 7 1 == 0)
         && r.f 8 8 % 2097152 == 0 && (r.f 16 8 + 1) % 2097152 == 0 && r.f 8 8 ≤ r.f 16 8
  | 4 => r.f 1 1 < 4 && r.f 2 1 < (if r.f 1 1 = 2 then 2 else 8) && r.f 4 4 ≤ r.f 8 4
  | 5 => 1 ≤ r.f 0 2 && r.f 3 1 < 8 && 6 ≤ r.f 6 1 && r.f 6 1 ≤ 16 && 50 ≤ r.f 8 4 && r.f 8 4 ≤ 100000
  | 6 => decide (r.f 5 1 < 2)
  | 7 => r.tableOk
  | 8 => r.f 8 8 % 64 == 0 && r.f 16 8 % 64 == 0
  | 9 => r.f 0 1 < 3 && r.f 4 4 ≤ 8388608 && Config.sha384 ((r.data.drop 64).take (r.f 4 4)) == fieldOf r.data 16 48
  | 10 => r.f 0 1 < 3 && r.f 2 2 < unitCount (r.f 0 1)
  | _ => false)

/-- The key fields of a record that a patch deletes are within their ranges (R54). -/
def Rec.keyOk (r : Rec) : Bool :=
  match r.typ with
  | 3 => decide (r.f 4 2 < 64)
  | 4 => r.f 1 1 < 4 && r.f 2 1 < (if r.f 1 1 = 2 then 2 else 8)
  | 5 => decide (1 ≤ r.f 0 2)
  | 8 => r.f 8 8 % 64 == 0
  | 9 => decide (r.f 0 1 < 3)
  | 10 => r.f 0 1 < 3 && r.f 2 2 < unitCount (r.f 0 1)
  | _ => true

/-- The physical bytes of a segment, as half-open ranges (R259, R260). -/
def physRanges (r : Rec) : List (Nat × Nat) :=
  let b := r.f 8 8
  let l := r.f 16 8 + 1
  if r.f 6 1 = 1 then (upto 8).map (fun d => (d * sliceSize + (b - 0x8000000000) / 8, d * sliceSize + (l - 0x8000000000) / 8)) else [(b, l)]

/-- A segment lies within one mapped range of its tier (R263); `s` has the configuration in force. -/
def State.segInRange (s : State) (r : Rec) : Bool :=
  let b := r.f 8 8
  let l := r.f 16 8
  let within (lo n : Nat) : Bool := lo ≤ b && l < lo + n
  match r.f 1 1 with
  | 1 => if r.f 6 1 = 1 then within 0x8000000000 0x6000000000 else within (r.f 7 1 * sliceSize) sliceSize
  | 2 => (upto 8).any (fun d => within (0x10000000000 + d * 0x8000000000) (s.t2Size d))
  | _ => (upto 8).any (fun w => s.t3Defined w && within (0x80000000000 + w * 0x20000000000) (s.field (0x106000 + 0x40 * w) 13 2 * giB))

/-- A REPLICA record keeps R59; one that names no segment is left to check 0x0B. -/
def replicaOk (cfg : List Rec) (r : Rec) : Bool :=
  match cfgSeg cfg (r.part 0) (r.f 2 2), cfgSeg cfg (r.part 0) (r.f 4 2) with
  | some a, some b =>
    let fits (g : Rec) : Bool := r.f 8 8 + r.f 16 8 ≤ g.f 16 8 + 1 - g.f 8 8
    a.f 1 1 != b.f 1 1 && fits a && fits b
  | _, _ => true

/-- The ranges that depend on another record or on the device (R60); `s` has the resulting configuration in force. -/
def State.crossOk (s : State) : Bool :=
  let cfg := s.folio.active
  let pk := cfgPackage cfg
  (recsOf cfg secQueue).all (fun r => match cfgPart cfg (r.part 2) with | some p => r.f 3 1 ≤ p.f 14 1 | none => true)
  && (recsOf cfg secSegment).all (fun r => s.segInRange r)
  && (recsOf cfg secReplica).all (replicaOk cfg)
  && (upto (pk.f 6 1)).all (fun w => bit (s.reg (0x106000 + 0x40 * w)) 0)
  && (pk.f 4 2 != 8000 || (upto 16).all (fun c => let st := s.reg (0x104000 + 0x40 * c); !bit st 0 || bits st 21 20 != 1))

/-- Check 0x08. -/
def State.failsField (s : State) (b : List Nat) : Bool :=
  (folioRecs b).any (fun a => if a.1 = 2 then !(a.2.reservedOk && a.2.keyOk) else !a.2.fieldOk) || !s.crossOk

/-! ## Checks 0x09 to 0x0D, on the resulting configuration -/

/-- The package's own bytes of T1 (Table 12.2). -/
def packageRanges (saffron : Bool) : List (Nat × Nat) :=
  (0xBE0000000, 0xC00000000) :: (if saffron then (upto 8).map (fun d => (saffronBase d, saffronBase d + 0x20000000)) else [])

/-- Whether no two elements of a list are equal. -/
def distinctKeys : List (List Nat) → Bool
  | [] => true
  | x :: xs => !xs.contains x && distinctKeys xs

/-- Whether the clusters of two partitions, or their segments, overlap. -/
def partsMeet (cfg : List Rec) (p q : Nat) : Bool :=
  let cl (n : Nat) : Nat := match cfgPart cfg n with | some r => r.f 4 4 | none => 0
  cl p &&& cl q != 0
  || (cfgSegs cfg p).any (fun a => (cfgSegs cfg q).any (fun c => (physRanges a).any (fun x => (physRanges c).any (fun y => meets x y))))

/-- Check 0x09. -/
def failsOwnership (cfg : List Rec) (b : List Nat) : Bool :=
  let pkg := packageRanges ((cfgPackage cfg).f 8 4 == 1048576)
  !distinctKeys ((folioRecs b).map (·.2.key)) || !distinctKeys (cfg.map (·.key))
  || (upto 16).any (fun q => (upto q).any (fun p => partsMeet cfg p q))
  || (recsOf cfg secSegment).any (fun r => (physRanges r).any (fun x => pkg.any (fun y => meets x y)))

/-- Bytes per µs of a resource slot (R61). -/
def slotCapacity (cfg : List Rec) (slot : Nat) : Nat :=
  if slot < 8 then 2000000 else if slot < 16 then 128000 * (cfgPackage cfg).f 4 2 / 8000 else if slot < 18 then 128000 else 200000

/-- Sum of a field of the PARTITION records. -/
def partSum (cfg : List Rec) (off size : Nat) : Nat := sumN ((recsOf cfg secPartition).map (fun r => r.f off size))

/-- Bytes of the segments of a partition in a tier. -/
def tierBytes (cfg : List Rec) (p tier : Nat) : Nat :=
  sumN (((cfgSegs cfg p).filter (fun r => r.f 1 1 == tier)).map (fun r => r.f 16 8 + 1 - r.f 8 8))

/-- The configuration holds no more records of a type than Table 3.3 allows. -/
def countsOk (cfg : List Rec) : Bool :=
  let n (t : Nat) : Nat := (recsOf cfg t).length
  let per (t m : Nat) : Bool := (upto 16).all (fun p => decide (((recsOf cfg t).filter (fun r => r.owner == some p)).length ≤ m))
  n 1 ≤ 1 && 1 ≤ n 2 && n 2 ≤ 16 && per 3 64 && per 4 26 && n 5 ≤ 4095 && per 6 256 && n 7 ≤ 65536 && n 8 ≤ 1024 && n 9 ≤ 3 && n 10 ≤ 256

/-- Check 0x0A (R61); `s` has the resulting configuration in force. -/
def State.failsCapacity (s : State) : Bool :=
  let cfg := s.folio.active
  let slots := (cfgPackage cfg).f 8 4
  let t2 := sumN ((upto 8).map s.t2Size)
  let t3 := sumN ((upto 8).map (fun w => if s.t3Defined w then s.field (0x106000 + 0x40 * w) 13 2 * giB else 0))
  !countsOk cfg
  || decide (8 * sliceSize < partSum cfg 24 8 + 4096 * slots + 0x20000000) || decide (t2 < partSum cfg 32 8) || decide (t3 < partSum cfg 40 8)
  || (recsOf cfg secPartition).any (fun r =>
       decide (r.f 24 8 < tierBytes cfg (r.part 0) 1) || decide (r.f 32 8 < tierBytes cfg (r.part 0) 2) || decide (r.f 40 8 < tierBytes cfg (r.part 0) 3)
       || (r.f 1 1 == 2 && !bit ((cfgPackage cfg).f 0 4) 0))
  || decide (slots < partSum cfg 20 4) || decide (65536 < partSum cfg 48 4) || decide (65536 < partSum cfg 56 4) || decide (100 < partSum cfg 15 1)
  || (upto 26).any (fun slot => decide (9 * slotCapacity cfg slot < 10 * sumN ((upto 16).map (fun p => match cfgReg cfg p slot with | some r => r.f 4 4 | none => 0))))

/-- A handle field names a handle that partition `p` has (Table 3.14). -/
def handleDefined (cfg : List Rec) (p h : Nat) : Bool :=
  match cfgPart cfg p with | some r => bits h 31 8 != 0 && decide (bits h 31 8 < r.f 16 4) | none => false

/-- Every reference of a record is defined. -/
def Rec.refsOk (cfg : List Rec) (r : Rec) : Bool :=
  let need (o : Nat) (must : Bool) : Bool := (!must && r.f o 4 == 0) || handleDefined cfg (r.part 0) (r.f o 4)
  (match r.owner with | some p => (cfgPart cfg p).isSome | none => true)
  && (match r.typ with
      | 6 => handleDefined cfg (r.part 4) (r.f 8 4)
      | 7 => need 36 true && need 40 (decide (1 < r.f 32 2)) && need 44 (bit (r.f 31 1) 2)
      | 8 => (cfgSeg cfg (r.part 0) (r.f 2 2)).isSome && (cfgSeg cfg (r.part 0) (r.f 4 2)).isSome
      | _ => true)

/-- Check 0x0B: an undefined reference, or a delete that names no record (R54). -/
def failsReference (active cfg : List Rec) (b : List Nat) : Bool :=
  cfg.any (fun r => !r.refsOk cfg) || (folioRecs b).any (fun a => a.1 == 2 && !active.any (fun r => r.key == a.2.key))

/-- Check 0x0C. Of a record to be deleted, the active one with its key counts, not its own fields outside the key (R54). -/
def failsScope (active : List Rec) (b : List Nat) (kind : Nat) : Bool :=
  let p := folioTarget b
  (folioSecs b).any (fun x =>
    (kind == 2 && !(2 ≤ x.typ && x.typ ≤ 8)) || (kind == 3 && x.typ != secRetire)
    || (x.typ == secRetire && (if kind = 1 then x.action != 0 else x.action != 1)))
  || (kind != 1 && (folioRecs b).any (fun a =>
       (a.1 != 2 && (match a.2.owner with | some q => q != p | none => false))
       || active.any (fun r => r.key == a.2.key && (match r.owner with | some q => q != p | none => false))))

/-- Check 0x0D, of a record to be deleted by the active one (R54). -/
def failsShared (active : List Rec) (b : List Nat) (kind : Nat) : Bool :=
  let shared (r : Rec) : Bool := r.typ == secTable && setBit (r.f 2 2) (r.part 0) false != 0
  kind == 2 && (folioRecs b).any (fun a => (a.1 != 2 && shared a.2) || active.any (fun r => r.key == a.2.key && shared r))

/-! ## Validation (R60) -/

/-- The first check that a folio of the kind wanted fails, or the configuration that results. -/
def State.folioCheck (s : State) (kind : Nat) (b : List Nat) : Except Nat (List Rec) :=
  let active := s.folio.active
  let cfg := resulting active b
  let t := { s with folio := { s.folio with active := cfg } }
  if b.length < 512 then .error 2
  else if failsFormat b kind then .error 1
  else if failsSize b kind then .error 2
  else if s.failsSignature b kind then .error 3
  else if s.failsSecver b then .error 4
  else if failsTarget b then .error 5
  else if s.failsBase b kind then .error 6
  else if failsLayout b kind then .error 7
  else if t.failsField b then .error 8
  else if failsOwnership cfg b then .error 9
  else if t.failsCapacity then .error 0xA
  else if failsReference active cfg b then .error 0xB
  else if failsScope active b kind then .error 0xC
  else if failsShared active b kind then .error 0xD
  else .ok cfg

end Sys2Proof.Machine
end

