-- ==== Sys2Proof/Machine/Migrate.lean ====
section
/-!
DEFINITION. Row migration (10, R230-R232): a row of a MIXED table moves to a slot of another class through the states of its
directory entry.
-/
namespace Sys2Proof.Machine

/-- MEM_MIG_d_CTRL. -/
def migBase (d : Nat) : Nat := 0x108000 + 0x100 * d

/-- Migrations in MIGRATING or FLIPPED on die `d`. -/
def State.migsOn (s : State) (d : Nat) : Nat := (s.units.migs.filter (fun m => m.die == d)).length

/-- The shard entry of a table on a die, of a table that is not VERSIONED. -/
def State.nibShard (s : State) (table die : Nat) : Option (Rec × ShardEnt) :=
  match cfgTable s.folio.active table with
  | none => none
  | some r => match s.readMap r with
    | some (some es) => (entOf es die 0).map (fun e => (r, e))
    | _ => none

/-- Whether slot `slot` of a pool is free (R230): no directory entry and no migration names it, and no retired page overlaps it
(R290). -/
def State.slotUnused (s : State) (r : Rec) (e : ShardEnt) (pool slot : Nat) : Bool :=
  let a := rowAt r e pool slot
  let n := slotSize a.1 (tWidth r)
  decide (slot < (nth e.pools pool ⟨0, 0, 0⟩).slots)
  && (upto (tLocalRows r e.die)).all (fun l =>
    let v := s.numDP (e.dir + 8 * l) 8
    dirState v == 0 || dirPool v != pool || dirSlot v != slot)
  && s.units.migs.all (fun m => m.die != e.die || m.table != tId r ||
    !((m.oldPool == pool && m.oldSlot == slot) || (m.newPool == pool && m.newSlot == slot)))
  && (sectorsOf ((s.phys a.2).getD 0) n).all (fun x => !s.pageRetired (64 * x))

/-- A migration of a row. -/
def State.mig (s : State) (die table row : Nat) : Option Mig :=
  s.units.migs.find? (fun m => m.die == die && m.table == table && m.row == row)

/-- A migration changed, or removed. -/
def State.setMig (s : State) (m : Mig) (nxt : Option Mig) : State :=
  let rest := s.units.migs.filter (fun x => !(x.die == m.die && x.table == m.table && x.row == m.row))
  { s with units := { s.units with migs := match nxt with | some x => rest ++ [x] | none => rest } }

/-- A directory entry written by the nib (R231). -/
def State.dirPut (s : State) (e : ShardEnt) (row st pool slot : Nat) : State :=
  (s.devPut none (e.dir + 8 * row) (natBytes 8 (dirWord st pool slot))).1

/-- FP32 values narrowed into the class of a slot and written there; its saturations go to TE_TAB_UPD_CLIP (R226, R232). -/
def State.slotFill (s : State) (r : Rec) (e : ShardEnt) (pool slot : Nat) (xs : List NumVal) : State :=
  let a := rowAt r e pool slot
  let n := narrowRow (r.f 28 1) a.1 s.freeVal xs
  let s := if xs.any (fun x => match x with | .fin _ _ _ => false | _ => true) then s.useFree else s
  ((s.devPut none a.2 n.1).1).tabBump 0x50 (tId r) 32 n.2.1

/-- The passes that have read the entry of a row and are still to get the row itself (R231). -/
def State.entryReaders (s : State) (die table row : Nat) : List (Nat × Nat) :=
  (s.units.te.map (fun (c : Nat × TeCmd) => (c.2.passes.zipIdx.filter (fun (x : TePass × Nat) =>
    x.1.started && !x.1.done && peTable x.1.entry == table
      && x.1.rows.any (fun y => y.remote.isNone && y.die == die && y.row == row && y.st == .gettingRow))).map (fun x => (c.1, x.2)))).flatten

/-- What MIGRATION_TAKE does once what it moves is admitted and the host has released what it writes. -/
def State.doMigrationTake (s : State) (die table row slot : Nat) : State :=
  if !s.units.offers.contains (die, table, row) then s
  else
    let gone := { s with units := { s.units with offers := s.units.offers.filter (· != (die, table, row)) } }
    let ctrl := s.reg (migBase die)
    match s.nibShard table die with
    | none => gone
    | some (r, e) =>
      let v := s.numDP (e.dir + 8 * row) 8
      let cls := classFor r (s.numDP (e.count + 2 * row) 2)
      let old := rowAt r e (dirPool v) (dirSlot v)
      let pools := (upto e.pools.length).filter (fun p => (nth e.pools p ⟨0, 0, 0⟩).cls == cls)
      let bad := (sectorsOf ((s.phys old.2).getD 0) (rowBytes old.1 (tWidth r))).any (fun x => (s.sector (64 * x)).poison || s.pageRetired (64 * x))
      if !bit ctrl 0 || bits ctrl 5 1 ≤ s.migsOn die || dirBad e v || dirState v != 1 || old.1 == cls || bad then gone
      else match pools.find? (fun p => (upto (nth e.pools p ⟨0, 0, 0⟩).slots).any (fun k => s.slotUnused r e p k)) with
        | none => gone
        | some p =>
          if !s.slotUnused r e p slot then s
          else
            let s := gone.dirPut e row 2 (dirPool v) (dirSlot v)
            let w := widenRow (r.f 28 1) old.1 (tWidth r) (s.readDP old.2 (rowBytes old.1 (tWidth r)))
            let s := s.slotFill r e p slot w.1
            let m : Mig := { die := die, table := table, row := row, oldPool := dirPool v, oldSlot := dirSlot v, newPool := p, newSlot := slot, since := s.time,
                             readers := s.entryReaders die table row }
            ({ s with units := { s.units with migs := s.units.migs ++ [m] } }).bump (migBase die + 8) 64 1

/-- MIGRATION_TAKE (R232 steps 1 and 2): the nib takes an offered row while EN is 1 and fewer than MAX_INFLIGHT run, choosing `slot` among
the free slots of the lowest pool of the target class that has one. An offer it does not take is gone until the next sweep. -/
def execMigrationTake (die table row slot : Nat) (s : State) : Host.Outcome State Fault Refusal :=
  runMem (Instr.wf (.migrationTake die table row slot)) [] s (fun s => s.doMigrationTake die table row slot)

/-- What MIGRATION_FLIP does once what it moves is admitted and the host has released what it writes. -/
def State.doMigrationFlip (s : State) (die table row : Nat) : State :=
  match s.mig die table row, s.nibShard table die with
  | some m, some (r, e) =>
    if m.flipped || m.since + 20000 ≤ s.time then s
    else
      let s := if m.delta.isEmpty then s else s.slotFill r e m.newPool m.newSlot (m.delta.map (decodeNum 1))
      (s.dirPut e row 3 m.newPool m.newSlot).setMig m (some { m with flipped := true, delta := [] })
  | _, _ => s

/-- MIGRATION_FLIP (R232 step 3): the delta, if any, goes to the new slot, and FLIPPED names it. -/
def execMigrationFlip (die table row : Nat) (s : State) : Host.Outcome State Fault Refusal :=
  runMem (Instr.wf (.migrationFlip die table row)) [] s (fun s => s.doMigrationFlip die table row)

/-- What MIGRATION_ABANDON does once what it moves is admitted and the host has released what it writes. -/
def State.doMigrationAbandon (s : State) (die table row : Nat) : State :=
  match s.mig die table row, s.nibShard table die with
  | some m, some (_, e) =>
    if m.flipped || s.time < m.since + 20000 then s
    else ((s.dirPut e row 1 m.oldPool m.oldSlot).setMig m none).tabBump 0x64 table 32 1
  | _, _ => s

/-- MIGRATION_ABANDON (R232): 20 µs after MIGRATING without a flip the entry is VALID again with the old slot. -/
def execMigrationAbandon (die table row : Nat) (s : State) : Host.Outcome State Fault Refusal :=
  runMem (Instr.wf (.migrationAbandon die table row)) [] s (fun s => s.doMigrationAbandon die table row)

/-- A pass that read the entry before the flip is complete. -/
def State.readerDone (s : State) (x : Nat × Nat) : Bool := match s.tePass x.1 x.2 with | some p => p.done | none => true

/-- What MIGRATION_COMPLETE does once what it moves is admitted and the host has released what it writes. -/
def State.doMigrationComplete (s : State) (die table row : Nat) : State :=
  match s.mig die table row, s.nibShard table die with
  | some m, some (r, e) =>
    if !m.flipped || !m.readers.all s.readerDone then s
    else
      let a := rowAt r e m.oldPool m.oldSlot
      (((s.dirPut e row 1 m.newPool m.newSlot).setMig m none).hotDrop die ((s.phys a.2).getD 0) (slotSize a.1 (tWidth r))).tabBump 0x60 table 32 1
  | _, _ => s

/-- MIGRATION_COMPLETE (R232 step 4): when every earlier reader is done the entry is VALID, the old slot is free and its cached
sectors are gone. -/
def execMigrationComplete (die table row : Nat) (s : State) : Host.Outcome State Fault Refusal :=
  runMem (Instr.wf (.migrationComplete die table row)) [] s (fun s => s.doMigrationComplete die table row)

end Sys2Proof.Machine
end

