-- ==== Sys2Proof/Machine/Sched.lean ====
section
/-!
DEFINITION. Scheduling and sharing (17): boundary marks, tasks, saves and restores, the watchdog, semaphores, the model
cache and accounting.
-/
namespace Sys2Proof.Machine

/-! ## Boundary marks (R377, R383, R391) -/

/-- Every channel of tile `t` has completed its requests, and no vector instruction waits for a bank (R180, R377). -/
def State.tileQuiet (s : State) (t : Nat) : Bool :=
  (s.tile t).chans.all (fun e => e.2.reqs.isEmpty) && (s.tile t).vec.claimWait.isNone

/-- YIELD (R377, R383). `live` lists the scratch locations live at the mark. -/
def execYield (t : Nat) (live : List (Nat × Nat)) (s : State) : Host.Outcome State Fault Refusal :=
  run (Instr.wf (.yield t live)) s (fun s =>
    if s.tileRuns t && s.tileQuiet t then (s.updTask t (fun k => { k with yieldAt := s.time, live := live })).atYield t
    else s)

/-- LAYER: the cluster nib switches control words; a bad one ends the launch as under ABORT (R127, R377). -/
def execLayer (t : Nat) (ctl : List Nat) (s : State) : Host.Outcome State Fault Refusal :=
  run (Instr.wf (.layer t ctl)) s (fun s =>
    if !s.tileRuns t then s
    else if !ctl.all ctlOk || 2 < ctl.length then s.invalidAt t
    else (ctl.zipIdx).foldl (fun s w => s.setReg (engBase t w.2) w.1) s)

/-- SEM_ACQ: the launch holds the semaphore already, takes it, or waits for it, at a yield point while it holds no other
(R383, R391). -/
def execSemAcq (t sem holdNs : Nat) (live : List (Nat × Nat)) (s : State) : Host.Outcome State Fault Refusal :=
  run (Instr.wf (.semAcq t sem holdNs live)) s (fun s =>
    match s.tileCmd t with
    | none => s
    | some cid =>
      let c := s.cmd cid
      let p := c.part.getD 0
      if !s.tileRuns t || !s.tileQuiet t || !bit c.hdr.semMask sem then s
      else match (s.sem p sem).holder with
        | none => s.updSem p sem (fun _ => { holder := some cid, since := s.time, holdNs := holdNs })
        | some h =>
          if h = cid then s
          else
            let s := s.updSem p sem (fun m => { m with waiters := if m.waiters.contains cid then m.waiters else m.waiters ++ [cid] })
            (s.updTask t (fun k => { k with st := .semWait sem holdNs, live := live })).atYield t)

/-- SEM_REL: the last task of the holder to pass the mark releases the semaphore (R391). -/
def execSemRel (t sem : Nat) (s : State) : Host.Outcome State Fault Refusal :=
  run (Instr.wf (.semRel t sem)) s (fun s =>
    match s.tileCmd t with
    | none => s
    | some cid =>
      let p := (s.cmd cid).part.getD 0
      if !s.tileRuns t || (s.sem p sem).holder != some cid then s
      else
        let s := s.updTask t (fun k => { k with passedSem := if k.passedSem.contains sem then k.passedSem else sem :: k.passedSem })
        let ts := s.tilesOf cid
        if ts.all (fun u => match (s.tile u).task with | some k => k.passedSem.contains sem | none => true) then
          ((ts.foldl (fun s u => s.updTask u (fun k => { k with passedSem := k.passedSem.filter (· != sem) })) s).semRelease p sem).restYield cid
        else s)

/-! ## The model cache (R266, R393-R395) -/

/-- Model state. -/
def State.model (s : State) (p m : Nat) : ModelSt := Tbl.get {} s.sched.models (modelKey p m)

/-- FOOTPRINT of a model. -/
def State.footprint (s : State) (p m : Nat) : Nat := match cfgModel s.folio.active p m with | some r => r.f 12 4 | none => 0

/-- A model of STREAM_MODE WINDOW. -/
def State.isWindow (s : State) (p m : Nat) : Bool := match cfgModel s.folio.active p m with | some r => r.f 5 1 == 0 | none => false

/-- Launch `cid` has a window in a cluster. -/
def State.windowOpen (s : State) (cid cl : Nat) : Bool := s.sched.wins.any (fun w => w.cid == cid && w.cl == cl)

/-- Bytes of models resident or loading in a cluster, and of windows in use (R393). -/
def State.pinnedBytes (s : State) (cl : Nat) : Nat :=
  s.sched.models.foldl (fun n e => if bit (e.2.resident ||| e.2.loading) cl then n + s.footprint (e.1 / 2 ^ 32) (e.1 % 2 ^ 32) else n) 0
  + sumN ((s.sched.wins.filter (fun w => w.cl == cl)).map (fun w => s.windowRoom w.cid))

/-- A launch of the model that has tiles, or is preempted. -/
def State.modelUser (s : State) (p m c : Nat) : Bool :=
  let x := s.cmd c
  x.opcode == 1 && x.part == some p && x.model == m && x.st != .none && x.st != .fetched && x.st != .ready && x.st != .fencing && x.st != .fenced

/-- Whether a running or preempted task of the model is in the cluster. -/
def State.modelBusy (s : State) (p m cl : Nat) : Bool :=
  s.cids.any (fun c => s.modelUser p m c && (s.cmd c).tiles.any (fun t => clusterOfTile t == cl))

/-- The models of cluster `cl` that may be evicted, least recently started first (R394). -/
def State.evictable (s : State) (cl : Nat) : List Nat :=
  let es := s.sched.models.filter (fun e => bit e.2.resident cl && !bit e.2.pinned cl && !s.modelBusy (e.1 / 2 ^ 32) (e.1 % 2 ^ 32) cl
    && s.footprint (e.1 / 2 ^ 32) (e.1 % 2 ^ 32) != 0)
  (sortBy (fun a b => a.2.started ≤ b.2.started) es).map (·.1)

/-- Models evicted from cluster `cl` until `need` more bytes fit in 10 MiB (R393, R394). -/
def State.evictFor (s : State) (cl need : Nat) : List Nat → State
  | [] => s
  | k :: rest =>
    if s.pinnedBytes cl + need ≤ 10485760 then s
    else
      let p := k / 2 ^ 32
      let m := k % 2 ^ 32
      let s := s.updModel p m (fun x => { x with resident := x.resident &&& (2 ^ 32 - 1 - 2 ^ cl), layers := Tbl.set 0 x.layers cl 0 })
      (s.bump (selKey 0x40118 k) 32 1).evictFor cl need rest

/-- The model cache holds, or loads, the model from where launch `cid` found its image; one found elsewhere is dropped once no launch that
found it there uses it (R265, log entry 133). None while such a launch does. -/
def State.modelFrom (s : State) (cid p m : Nat) : Option State :=
  let c := s.cmd cid
  let x := s.model p m
  if x.img = c.img then some s
  else if x.img.2 != 0 && x.resident ||| x.loading != 0 && s.cids.any (fun d => s.modelUser p m d && (s.cmd d).img == x.img) then none
  else some (s.updModel p m (fun x =>
    if x.img.2 = 0 then { x with img := c.img, lays := c.lays }
    else { x with resident := 0, loading := 0, layers := [], img := c.img, lays := c.lays }))

/-- A load of the model begun in the cluster of waiting launch `cid`, or joined (R394); without room it waits. For a window room is made. -/
def State.modelMiss (s : State) (cid p m cl : Nat) : State :=
  if s.isWindow p m then s.evictFor cl (s.windowRoom cid) (s.evictable cl)
  else match s.modelFrom cid p m with
    | none => s
    | some s =>
      if bit (s.model p m).loading cl then s
      else
        let need := s.footprint p m
        let s := s.evictFor cl need (s.evictable cl)
        if s.pinnedBytes cl + need ≤ 10485760 then
          let s := s.updModel p m (fun x => { x with loading := x.loading ||| 2 ^ cl, layers := Tbl.set 0 x.layers cl 0 })
          s.bump (selKey 0x40110 (modelKey p m)) 64 1
        else s

/-- Whether launch `cid` of the model may step in the cluster: its image is resident there, or its first layer pinned, or a WINDOW model's
window fits, which each launch fills for itself (R266, R267, R393). -/
def State.modelReady (s : State) (cid p m cl : Nat) : Bool :=
  let x := s.model p m
  (cfgModel s.folio.active p m).isSome
  && (if s.isWindow p m then s.windowOpen cid cl || decide (s.pinnedBytes cl + s.windowRoom cid ≤ 10485760)
      else x.img == (s.cmd cid).img && (bit x.resident cl || Tbl.get 0 x.layers cl != 0))

/-- The window of launch `cid` opened in a cluster, and filled as far as it goes (R267 step 1). -/
def State.openWindow (s : State) (cid cl : Nat) : State :=
  let c := s.cmd cid
  if s.isWindow (c.part.getD 0) c.model && !s.windowOpen cid cl then
    { s with sched := { s.sched with wins := s.sched.wins ++ [Win.mk cid cl c.winDone 0] } }.winPumps cl
  else s

/-! ## Loads (R266, R394) -/

/-- The launches that read the model from a cluster where it loads, each with its tiles there. -/
def State.loadUsers (s : State) (p m cl : Nat) : List (Nat × List Nat) :=
  ((s.cids.filter (fun c => s.modelUser p m c && (s.cmd c).img == (s.model p m).img)).map (fun c => (c, (s.tilesOf c).filter (fun t => clusterOfTile t == cl)))).filter
    (fun x => !x.2.isEmpty)

/-- The command that stands for a load on which no launch waits, for its turn at a bucket (log entry 30). -/
def loadCid (cl : Nat) : Nat := cidOf 4097 cl

/-- One sector of an image read into a cluster, for the launch that waits for the load or for none; no answer while it must wait. -/
def State.loadSector (s : State) (p : Nat) (cid : Option Nat) (cl x : Nat) : State × Option ReadOut :=
  let src : Src := ⟨2, cl⟩
  let s' := match cid with | some c => s.concern c (dieOfPhys x) | none => s
  let pay (s : State) (slot : Nat) : State := s.owe p (cid.getD (loadCid cl)) slot 64 src
  if s.unzeroed x 64 || s.biHeld x then (s, none)
  else if s.inHostBias x then
    let port := s.biasPort x
    let s' := ((pay s' (26 + port)).emit (.hostRead (cl / 4) x none 64)).portBytes port false 64
    match s.outcome x with
    | .host _ => (s', some .data)
    | .failed c => ((s'.tierFailed x c false (some p) cid src).lineLost x 1 cid src, some (.fail 2 (x / 64 % 65536)))
    | _ => (s, none)
  else
    let o := (pay s' (slotOfPhys x false)).readSector x (some p) cid src
    match o.2 with
    | .replica => (s.waits o.1, none)
    | r => (o.1, some r)

/-- Sectors read in turn for a load: how the first that does not give its data turns out, `some none` where it must wait. -/
def State.loadSectors (s : State) (p : Nat) (cid : Option Nat) (cl : Nat) : List Nat → State × Option (Nat × Option ReadOut)
  | [] => (s, none)
  | x :: xs =>
    let o := s.loadSector p cid cl x
    match o.2 with
    | some .data => o.1.loadSectors p cid cl xs
    | r => (o.1, some (x, r))

/-- The physical sectors of a range of device addresses. -/
def State.sectorsAt (s : State) (r : Nat × Nat) : List Nat :=
  (sectorsOf r.1 r.2).filterMap (fun k => s.phys (64 * k))

/-- The load of a model in a cluster given up. -/
def State.dropLoad (s : State) (p m cl : Nat) : State :=
  (s.updModel p m (fun x => { x with loading := x.loading &&& (2 ^ 32 - 1 - 2 ^ cl), layers := Tbl.set 0 x.layers cl 0 })).pumpSt .model

/-- A load whose sector `x` fails: its launches fare as readers of the sector do (Table 13.2), and the load is over. -/
def State.loadFailed (s : State) (p m cl x : Nat) (r : ReadOut) : State :=
  let us := s.loadUsers p m cl
  let s := s.dropLoad p m cl
  s.endReaders ⟨2, cl⟩ (us.map (fun u => (u.1, u.2, x, r)))

/-- The next layer of a load, or all that is left of it where `whole`, is pinned (R266). -/
def State.loadPin (s : State) (p m cl : Nat) (whole : Bool) : State :=
  let x := s.model p m
  let n := Tbl.get 0 x.layers cl
  let at' (l : Nat × Nat) : Nat × Nat := (x.img.1 + l.1, l.2)
  let had := ((x.lays.take n).map (fun l => s.sectorsAt (at' l))).flatten
  let xs := if whole then (s.sectorsAt x.img).filter (fun a => !had.contains a) else (((x.lays[n]?).map at').map s.sectorsAt).getD []
  let o := s.loadSectors p ((s.loadUsers p m cl).head?.map (·.1)) cl xs
  match o.2 with
  | none =>
    ((o.1.updModel p m (fun x =>
      if whole then { x with resident := x.resident ||| 2 ^ cl, loading := x.loading &&& (2 ^ 32 - 1 - 2 ^ cl), layers := Tbl.set 0 x.layers cl 0 }
      else { x with layers := Tbl.set 0 x.layers cl (n + 1) })).pinTrim cl).pumpSt .model
  | some (_, none) => s.waits o.1
  | some (a, some r) => o.1.loadFailed p m cl a r

/-- What MODEL_LOAD_COMPLETE does once what it moves is admitted and the host has released what it writes. -/
def State.doModelLoadComplete (s : State) (part model cluster layer : Nat) (whole : Bool) : State :=
  let s' := if (s.model part model).img.2 = 0 then s.updModel part model (fun x =>
      let img := s.imageOf part model
      { x with img := img, lays := layersOf (s.readDP img.1 img.2) }) else s
  let x := s'.model part model
  match cfgModel s.folio.active part model with
  | none => s
  | some r =>
    if !bit x.loading cluster || x.img.2 = 0 then s
    else if Config.sha384 (s.readDP x.img.1 x.img.2) = fieldOf r.data 16 48 then
      (if whole || (layer == Tbl.get 0 x.layers cluster && decide (layer < x.lays.length)) then s'.loadPin part model cluster whole else s)
    else
      let us := s'.loadUsers part model cluster
      let s := (s'.updModel part model (fun x => { x with bad := true })).dropLoad part model cluster
      us.foldl (fun s u => s.endCmd u.1 8 7 [] true) s

/-- MODEL_LOAD_COMPLETE: the next layer in order, or the whole model, is pinned in a cluster (R266, R394); an image whose digest differs is
IMAGE_BAD, is not loaded and fails its launches (R58, R395). `whole.2` says how the image's sectors read. A load for no launch finds its image
when it first can. -/
def execModelLoadComplete (part model cluster layer : Nat) (whole : Bool × Sectors) (s : State) : Host.Outcome State Fault Refusal :=
  runMem (Instr.wf (.modelLoadComplete part model cluster layer whole)) whole.2 s (fun s => s.doModelLoadComplete part model cluster layer whole.1)

/-! ## Tasks (R359, R126, R148, R169, R178) -/

/-- A channel loaded with its stroke (R169, R171): `cb` is the constant buffer. -/
def loadChan (hdr : List Nat) (prog : List Nat) (cb : List Nat) : Chan :=
  { active := true, flags := fieldOf hdr 2 1, swz := fieldOf hdr 3 1, lineBytes := fieldOf hdr 6 2, pitch := fieldOf hdr 8 2,
    btab := fieldOf hdr 12 4, prog := prog,
    base := (upto 4).map (fun n =>
      let b := fieldOf hdr (16 + 8 * n) 8
      if bit (fieldOf hdr 4 1) n then
        -- the 8 bytes of the constant buffer at byte offset BASEn[7:0]
        let bytes := (cb.map (natBytes 8)).flatten
        fieldOf bytes (b % 256) 8
      else b) }

/-- The task of tile `t` loaded with its image and started. Its banks start cleared (log entry 212). -/
def State.loadTask (s : State) (t : Nat) (img : TaskImage) (cb : List Nat) : State :=
  let s := (upto 2).foldl (fun s e => (s.setReg (engBase t e) (nth img.ctl e 0x40000000)).setReg (engBase t e + 0xC) 0) s
  let s := (s.setReg (tileBase t + 0x204) 0).setReg (tileBase t + 0x308) 0
  s.updTile t (fun x => { x with
    eng := x.eng.map (fun e => { inject := e.inject, busy := true })
    vec := { x.vec with s := (upto 16).map (fun i => (nth cb (i / 2) 0 / 2 ^ (32 * (i % 2))) % 2 ^ 32), claims := 0, claimWait := none, reps := [], outFull := false, inEmpty := false, aload := [], stall := none }
    sel := { k := x.sel.k, ord := x.sel.ord }
    chans := img.strokes.foldl (fun m h => Tbl.set {} m (fieldOf h.1 0 1) (loadChan h.1 h.2 cb)) []
    tokens := (upto 16).map (fun i => nth img.tokens i 0)
    task := x.task.map (fun k => { k with st := .run, yieldAt := s.time }) })

/-- The checks of R127 and R172 on a task's image. -/
def taskImageOk (img : TaskImage) : Bool :=
  img.ctl.length == 2 && img.ctl.all ctlOk && img.strokes.all (fun h => strokeOk h.1 h.2)
  && decide ((img.strokes.map (fun h => fieldOf h.1 0 1)).Nodup) && img.tokens.length ≤ 16 && img.tokens.all (fun v => v < 256)

/-- TASK_START: a placed task loads and takes its first step; a bad image fails the launch before it; an absent model is loaded
first (R127, R172, R359, R394). It waits for session resolution and the launch's lookup request (R252, R204). -/
def execTaskStart (t : Nat) (img : TaskImage) (s : State) : Host.Outcome State Fault Refusal :=
  run (Instr.wf (.taskStart t img)) s (fun s =>
    match (s.tile t).task with
    | none => s
    | some k =>
      let c := s.cmd k.cid
      let p := c.part.getD 0
      if k.st != .loaded || c.cause.isSome || !c.sess || !c.look then s
      else if !taskImageOk img then s.endCmd k.cid 8 7 [] true
      else if !s.modelReady k.cid p c.model (clusterOfTile t) then
        (s.updTask t (fun k => { k with miss := k.miss.or (some s.time) })).modelMiss k.cid p c.model (clusterOfTile t)
      else
        let s := s.chargeStall t (k.miss.map (fun since => (since, 7)))
        let s := (s.loadTask t img c.cb).updTask t (fun k => { k with miss := none })
        let s := if c.st == .placed then s.updCmd k.cid (fun c => { c with st := .running }) else s
        let s := { s with sched := { s.sched with order := s.sched.order + 1 } }
        let s := s.updModel p c.model (fun x => { x with started := s.sched.order })
        (s.openWindow k.cid (clusterOfTile t)).stepped k.cid)

/-- TIMESLICE_EXPIRY: the launch becomes a candidate for preemption at equal priority (R382). -/
def execTimesliceExpiry (queue seq : Nat) (s : State) : Host.Outcome State Fault Refusal :=
  run (Instr.wf (.timesliceExpiry queue seq)) s (fun s =>
    let cid := cidOf queue seq
    let c := s.cmd cid
    if c.opcode = 1 && (c.st == .placed || c.st == .running) then (s.updCmd cid (fun c => { c with sliceEnd := true })).placeFor cid else s)

/-- The tile as its frame holds it (R385): with its control words, its sticky flags and its count of lanes since SINIT (R159). -/
def State.frameOf (s : State) (t : Nat) : Tile :=
  { s.tile t with frame := [s.reg (engBase t 0), s.reg (engBase t 1), s.reg (engBase t 0 + 0xC), s.reg (engBase t 1 + 0xC), s.reg (tileBase t + 0x204), s.reg (tileBase t + 0x218)] }

/-- A tile left by a saved task. -/
def State.clearTile (s : State) (t : Nat) : State :=
  let cid := s.tileCmd t
  let s := (s.setReg (engBase t 0) 0x40000000).setReg (engBase t 1) 0x40000000
  let s := ((s.endStalls t).updTile t Tile.idle).dropWaits t
  match cid with | some c => s.closeWindow c (clusterOfTile t) | none => s

/-- The traffic of `n` frames of command `cid` at the save segment, charged to the STACK regulator of its die (R384): SAVE_MAX bytes a
frame, in sectors (log entry 205). -/
def State.frameTraffic (s : State) (cid n : Nat) : State :=
  let c := s.cmd cid
  match s.saveSeg (c.part.getD 0) with
  | some g =>
    let d : Due := ⟨c.part.getD 0, cid, g.f 7 1, 64, ⟨1, ((s.tilesOf cid).head?).getD 0⟩⟩
    { s with memc := { s.memc with due := s.memc.due ++ List.replicate (n * ((c.hdr.saveMax + 63) / 64)) d } }
  | none => s

/-- Index of a task among its launch's frames: its own, or 16 more for a shadow. -/
def Task.slot (k : Task) : Nat := k.idx + (if k.shadow then 16 else 0)

/-- What SAVE_COMPLETE does once what it moves is admitted and the host has released what it writes. -/
def State.doSaveComplete (s : State) (queue seq : Nat) : State :=
  let cid := cidOf queue seq
  let c := s.cmd cid
  let ts := s.tilesOf cid
  let all := ts.all (fun t => match (s.tile t).task with | some k => k.st == .saving | none => false)
  if c.st != .saving || ts.isEmpty || !all then s
  else
    let p := c.part.getD 0
    let s := s.frameTraffic cid ts.length
    let s := ts.foldl (fun s t => match (s.tile t).task with
      | some k => { s with saved := Tbl.set {} s.saved (frameKey cid k.slot) (s.frameOf t) }.clearTile t
      | none => s) s
    let s := s.maxReg (0x41020 + 0x100 * p) 32 (s.time - c.saveFrom)
    let s := (upto 32).foldl (fun s n => if (s.sem p n).waiters.contains cid then s.updSem p n (fun m => { m with waiters := m.waiters.filter (· != cid) }) else s) s
    (s.updCmd cid (fun c => { c with st := .saved, preemptReq := false, sliceEnd := false })).place p

/-- SAVE_COMPLETE: every frame is written and the tiles are free (R383-R386). -/
def execSaveComplete (queue seq : Nat) (s : State) : Host.Outcome State Fault Refusal :=
  runMem (Instr.wf (.saveComplete queue seq)) [] s (fun s => s.doSaveComplete queue seq)

/-- Scratch after a restore: live locations as saved, every other undefined from now on (R385). -/
def restoreScratch (x : Tile) (live : List (Nat × Nat)) (seed : Nat) : Tile :=
  let inLive (l : Nat) : Bool := live.any (fun (r : Nat × Nat) => r.1 ≤ l && l < r.1 + r.2)
  let kept := match x.undef with
    | some u => (live.map (fun (r : Nat × Nat) => (upto r.2).map (fun i => r.1 + i))).flatten.foldl
        (fun m l => if Tbl.get 0 m l = 0 then Tbl.set 0 m l (Config.freeValue (u + l) % 256 + 1) else m) x.scratch
    | none => (live.map (fun (r : Nat × Nat) => (upto r.2).map (fun i => r.1 + i))).flatten.foldl
        (fun m l => if Tbl.get 0 m l = 0 then Tbl.set 0 m l 1 else m) x.scratch
  { x with scratch := kept.filter (fun e => inLive e.1), undef := some seed }

/-- The frame of a task put back on tile `t` (R385); injections armed on the tile stay there (R129). -/
def State.restoreTile (s : State) (t : Nat) (k : Task) : State :=
  let f := Tbl.get {} s.saved (frameKey k.cid k.slot)
  match f.task with
  | none => s
  | some old =>
    let s := (s.setReg (engBase t 0) (nth f.frame 0 0x40000000)).setReg (engBase t 1) (nth f.frame 1 0x40000000)
    let s := ((s.setReg (engBase t 0 + 0xC) (nth f.frame 2 0)).setReg (engBase t 1 + 0xC) (nth f.frame 3 0)).setReg (tileBase t + 0x204) (nth f.frame 4 0)
    let s := s.setReg (tileBase t + 0x218) (nth f.frame 5 0)
    let x := restoreScratch f old.live s.free
    let s := { s with free := s.free + 2 ^ 21 }
    s.setTile t { x with frame := [], eng := (x.eng.zip (s.tile t).eng).map (fun e => { e.1 with inject := e.2.inject }), reprobe := (s.tile t).reprobe, task := some { old with idx := k.idx, st := old.was, yieldAt := s.time } }

/-- A model miss of the clusters of some tiles in which launch `cid` may not step yet (R394). -/
def State.missAt (s : State) (cid : Nat) (ts : List Nat) : State :=
  let c := s.cmd cid
  ts.foldl (fun s t =>
    let cl := clusterOfTile t
    if s.modelReady cid (c.part.getD 0) c.model cl then s
    else (s.updTask t (fun k => { k with miss := k.miss.or (some s.time) })).modelMiss cid (c.part.getD 0) c.model cl) s

/-- What RESTORE_COMPLETE does once what it moves is admitted and the host has released what it writes. -/
def State.doRestoreComplete (s : State) (queue seq : Nat) : State :=
  let cid := cidOf queue seq
  let c := s.cmd cid
  let p := c.part.getD 0
  let ts := s.tilesOf cid
  if c.st != .restoring then s
  else if !ts.all (fun t => s.modelReady cid p c.model (clusterOfTile t)) then s.missAt cid ts
  else
    let s := ts.foldl (fun s t => s.chargeStall t (((s.tile t).task.bind (·.miss)).map (fun since => (since, 7)))) (s.frameTraffic cid ts.length)
    let s := ts.foldl (fun s t => match (s.tile t).task with | some k => s.restoreTile t k | none => s) s
    let s := s.freeFrames cid
    let s := s.maxReg (0x41024 + 0x100 * p) 32 (s.time - c.placedAt)
    let pre := match c.preemptAt with | some t0 => s.time - t0 | none => 0
    let s := s.updCmd cid (fun c => { c with st := .running, preemptAt := none, preNs := c.preNs + pre, sliceAt := s.time + (s.queue c.queue).sliceUs * 1000 })
    let s := ((ts.map clusterOfTile).eraseDups).foldl (fun s cl => s.openWindow cid cl) s
    ts.foldl (fun s t => match (s.tile t).task with
      | some k => (match k.st with
        | .semWait n h =>
          (match (s.sem p n).holder with
           | none => (s.updSem p n (fun _ => { holder := some cid, since := s.time, holdNs := h })).semWake cid n
           | some _ => s.updSem p n (fun m => { m with waiters := if m.waiters.contains cid then m.waiters else m.waiters ++ [cid] }))
        | _ => s)
      | none => s) s

/-- RESTORE_COMPLETE: every frame is restored and the launch steps; a task that waited for a semaphore asks for it again
(R385, R386, R391). In a cluster without its model it waits for the load first (R394). -/
def execRestoreComplete (queue seq : Nat) (s : State) : Host.Outcome State Fault Refusal :=
  runMem (Instr.wf (.restoreComplete queue seq)) [] s (fun s => s.doRestoreComplete queue seq)

/-- YIELD_LATE: counted and written; the preemption stands (R388). -/
def execYieldLate (queue seq lateNs : Nat) (s : State) : Host.Outcome State Fault Refusal :=
  run (Instr.wf (.yieldLate queue seq lateNs)) s (fun s =>
    let cid := cidOf queue seq
    let c := s.cmd cid
    if !c.preemptReq || c.opcode != 1 then s
    else
      let p := c.part.getD 0
      (s.bump (0x4100C + 0x100 * p) 32 1).blotCmd cid 0x0305 ⟨1, ((s.tilesOf cid).head?).getD 0⟩ 0 [(lateNs, 8)] false)

/-- The clocks of a launch pause now (R390): it is preempted, or a task of it waits for a model load, for a recovery from a replica or for
memory to be zeroed. -/
def State.clockPaused (s : State) (cid : Nat) : Bool :=
  (s.cmd cid).preemptAt.isSome || (s.tilesOf cid).any (fun t =>
    (match (s.tile t).task with | some k => k.miss.isSome | none => false)
    || (s.tile t).chans.any (fun e => e.2.reqs.any (fun r => r.st == .model || r.st == .zero))
    || (s.cache (clusterOfTile t)).fills.any (fun f => f.heal && f.wait.any (fun w => w.1 == t)))

/-- WCET_WATCHDOG_EXPIRY: a clock of a watched launch passes its limit (R390). -/
def execWcetWatchdogExpiry (queue seq clock : Nat) (s : State) : Host.Outcome State Fault Refusal :=
  run (Instr.wf (.wcetWatchdogExpiry queue seq clock)) s (fun s =>
    let cid := cidOf queue seq
    let c := s.cmd cid
    let runs := c.opcode == 1 && c.watched && (c.st == .placed || c.st == .running || c.st == .fencing) && !s.clockPaused cid
    let lim := (if clock = 0 then c.hdr.preNs else c.hdr.wcetNs) * 5 / 4
    let from' := if clock = 0 then c.placedAt else c.firstStep.getD 0
    if !runs || lim = 0 || (clock = 0 && c.firstStep.isSome) || (clock != 0 && c.firstStep.isNone) || 1 < clock || c.cause.isSome then s
    else
      let p := c.part.getD 0
      let s := s.bump (0x41018 + 0x100 * p) 32 1
      let s := s.blotCmd cid 0x0306 ⟨1, (c.tiles.head?).getD 0⟩ 0 [(clock, 1), (lim, 8), (s.time - from' - c.preNs, 8)] true
      if c.st == .fencing then s.updCmd cid (fun c => { c with cause := some (5, 0), replay := false }) else s.endCmd cid 5 0 [] true)

/-- SEM_HOLD_OVERRUN: a hold past 1.25 × HOLD_NS ends the holder (R391). -/
def execSemHoldOverrun (part sem : Nat) (s : State) : Host.Outcome State Fault Refusal :=
  run (Instr.wf (.semHoldOverrun part sem)) s (fun s =>
    let m := s.sem part sem
    match m.holder with
    | none => s
    | some cid =>
      if s.clockPaused cid then s
      else
      let s := s.bump (0x41018 + 0x100 * part) 32 1
      let s := s.blotCmd cid 0x0307 ⟨1, ((s.tilesOf cid).head?).getD 0⟩ 0 [(sem, 1), (m.holdNs, 4), (s.time - m.since, 8)] true
      s.endCmd cid 5 0 [] true)

/-! ## Accounting (R397, R398) -/

/-- The registers of the accounting snapshot of a client. -/
def acctRegs : List Nat := [0x40008, 0x40010, 0x40018, 0x4001C, 0x40020] ++ (upto 16).map (fun i => 0x40040 + 4 * i)

/-- Bucket of a wait (R397). -/
def waitBucket (w : Nat) : Nat := if w < 2000 then 0 else min 15 (Nat.log2 (w / 1000))

/-- A command's wait and time preempted charged to its client. -/
def State.charge (s : State) (client wait preNs : Nat) : State :=
  let k (r : Nat) := selKey r client
  let s := ((s.bump (k 0x40008) 64 wait).bump (k 0x40010) 64 1).maxReg (k 0x40018) 32 wait
  (s.bump (k 0x40020) 64 preNs).bump (k (0x40040 + 4 * waitBucket wait)) 32 1

/-- ACCT_SEL_WRITE: one indivisible snapshot of the client's counters (R398). -/
def execAcctSelWrite (port value : Nat) (s : State) : Host.Outcome State Fault Refusal :=
  run (Instr.wf (.acctSelWrite port value)) s (fun s =>
    if !s.regsOpen then s
    else
      let cl := value % 4096
      acctRegs.foldl (fun s r => s.setReg r (s.reg (selKey r cl))) (s.setReg 0x40000 cl))

/-- MDL_STATE of a model (Table 17.7). -/
def State.modelState (s : State) (p m : Nat) : Nat :=
  let x := s.model p m
  (if x.bad then 3 else if x.loading != 0 then 1 else if x.resident != 0 then 2 else 0) + 4 * b2n (x.pinned != 0) + 8 * b2n (x.degraded.any (fun a => (s.sector a).poison || s.pageRetired a))

/-- A write of ACCT_MDL_SEL: the selected model's registers latched (R398). -/
def State.modelSelect (s : State) (value : Nat) : State :=
  let p := bits value 35 32
  let m := bits value 31 0
  let s := (s.setReg 0x40100 (value % 2 ^ 36)).setReg 0x40108 (s.modelState p m)
  let s := s.setReg 0x4010C (s.model p m).resident
  (s.setReg 0x40110 (s.reg (selKey 0x40110 (modelKey p m)))).setReg 0x40118 (s.reg (selKey 0x40118 (modelKey p m)))

/-- ACCT_MDL_SEL_WRITE: one 64-bit write (R12, R398). -/
def execAcctMdlSelWrite (port value : Nat) (s : State) : Host.Outcome State Fault Refusal :=
  run (Instr.wf (.acctMdlSelWrite port value)) s (fun s =>
    if s.regsOpen then (s.whole64 port 0x40100).modelSelect value else s)

/-- ACCT_CLEAR: one client's counters, or every client's, cleared (R398). -/
def execAcctClear (port value : Nat) (s : State) : Host.Outcome State Fault Refusal :=
  run (Instr.wf (.acctClear port value)) s (fun s =>
    if !s.regsOpen then s
    else if bit value 12 then
      { s with regs := s.regs.filter (fun e => !(0x4000000 ≤ e.1 && acctRegs.contains (e.1 % 0x4000000))) }
    else acctRegs.foldl (fun s r => s.setReg (selKey r (value % 4096)) 0) s)

end Sys2Proof.Machine
end

