-- ==== Sys2Proof/Machine/Folio.lean ====
section
/-!
DEFINITION. The folio operations (03, R62-R73): full loads, reconfigurations of one partition, repairs, commits, and the zeroing of
released memory.
-/
namespace Sys2Proof.Machine

/-! ## Registers and results -/

/-- PKG_STATE set (Table 3.18). -/
def State.setPkg (s : State) (v : Nat) : State := s.setField 0x20000 11 8 v

/-- State of partition `p` set (Table 3.16). -/
def State.setPart (s : State) (p v : Nat) : State := s.setField (0x20100 + 0x20 * p) 2 0 v

/-- ERROR and OP of an operation that has ended (Table 3.18). -/
def State.folioStatus (s : State) (op err : Nat) : State := (s.setField 0x20000 23 16 err).setField 0x20000 15 12 op

/-- LAST_ERROR of partition `p` (Table 3.19). -/
def State.partError (s : State) (p err : Nat) : State := s.setField (0x20100 + 0x20 * p) 15 8 err

/-- PHASE of the shutdown (Table 19.13). -/
def State.phase (s : State) : Nat := s.field 0x800014 2 0

/-- The commands of partition `p`. -/
def State.partCmds (s : State) (p : Nat) : List Nat := s.cids.filter (fun c => (s.cmd c).part == some p)

/-- A command has started: it is executing, or ending (R66). -/
def Cmd.begun (c : Cmd) : Bool := c.firstEver.isSome || !(c.st == .fetched || c.st == .ready || c.st == .placed)

/-- A command that has not started goes back to the front end, without its relocation (R66). -/
def State.unstart (s : State) (cid : Nat) : State :=
  let s := ((s.tilesOf cid).foldl (fun s t => s.updTile t (fun x => { x with task := none })) s).releaseHolds cid
  let s := { s with units := { s.units with te := Tbl.erase s.units.te cid, ses := Tbl.erase s.units.ses cid },
                    flt := { s.flt with shadows := s.flt.shadows.filter (fun w => w.cid != cid) } }
  s.updCmd cid (fun c => { c with st := .fetched, cb := c.rawCb, tiles := [], shadow := [], reserved := [], victims := [], hdr := {},
                                  budgets := [], posts := [], sess := false, look := false, lookup := none, numsum := 0, sats := 0 })

/-- A command that has started ends ABORTED at its next yield point, or at its end (R66). -/
def State.abortCmd (s : State) (cid : Nat) : State :=
  if s.mayYield cid then s.endCmd cid 1 2 [] false
  else s.updCmd cid (fun c => { c with cause := c.cause.or (some (1, 2)) })

/-- The work of partition `p` ended as in ABORT mode. -/
def State.abortPart (s : State) (p : Nat) : State :=
  (s.partCmds p).foldl (fun s c => if (s.cmd c).begun then s.abortCmd c else s.unstart c) s

/-- No command of partition `p` is under way; under DRAIN none is left at all. -/
def State.partQuiet (s : State) (p : Nat) (drain : Bool) : Bool :=
  (s.partCmds p).all (fun c => !drain && (s.cmd c).st == .fetched)

/-- A shutdown begins once no folio operation and no start is in progress: QUIESCING, every queue stops fetching and every partition's work ends
as in ABORT mode (R448). -/
def State.shutdownBegin (s : State) : State :=
  if s.nib.down && s.phase == 0 && s.folio.op.isNone && (s.stage == 6 || s.stage == 15) then
    let s := s.setField 0x800014 2 0 1
    (s.parts.filter s.serving).foldl (fun s p => (s.setPart p 2).abortPart p) s
  else s

/-- The folio operation in progress ends: its command completes with OK, or with INVALID_CMD, DETAIL 8 and ERROR (R64, Table 16.10). Its
partition's LAST_ERROR follows once its folio has named one (R63). -/
def State.folioEnd (s : State) (o : FolioOp) (err : Nat) : State :=
  let s := { s with folio := { s.folio with op := none } }.folioStatus o.op err
  let s := if (o.op = 2 || o.op = 3) && 48 < o.image.length then s.partError o.part err else s
  (if o.slot.isSome then s else if err = 0 then s.finish o.cid 0 0 else s.finish o.cid 8 (8 + 256 * err)).shutdownBegin

/-- FOLIO_APPLIED (0x0201) or FOLIO_ROLLBACK (0x0202), to ring G and the rings of `ps`. -/
def State.folioBlot (s : State) (cls : Nat) (o : FolioOp) (err : Nat) (ps : List Nat) : State :=
  s.blot { cls := cls, part := if o.op = 2 then some o.part else none, src := ⟨5, s.leadDie⟩,
           detail := [(o.op, 1), (err, 1), (folioSerial o.image, 8), (s.time - o.start, 8)] } (ringG :: ps)

/-! ## Memory that changes hands (R65, R68) -/

/-- The ranges of `a` outside range `b`. -/
def cutRange (b : Nat × Nat) (a : List (Nat × Nat)) : List (Nat × Nat) :=
  (a.map (fun (x : Nat × Nat) =>
    if meets x b then (if x.1 < b.1 then [(x.1, b.1)] else []) ++ (if b.2 < x.2 then [(b.2, x.2)] else []) else [x])).flatten

/-- The physical bytes of partition `p` in a configuration. -/
def ownedRanges (cfg : List Rec) (p : Nat) : List (Nat × Nat) := ((cfgSegs cfg p).map physRanges).flatten

/-- What a change of configuration takes from the partitions, and from Saffron when it is given up; and what it gives a partition of
memory that the host has written while no partition owned it. -/
def State.releasedRanges (s : State) (old new : List Rec) : List (Nat × Nat) :=
  let sf (c : List Rec) : Bool := (cfgPackage c).f 8 4 == 1048576
  let less (a b : List (Nat × Nat)) : List (Nat × Nat) := b.foldl (fun a b => cutRange b a) a
  ((upto 16).map (fun p => less (ownedRanges old p) (ownedRanges new p)
    ++ (less (ownedRanges new p) (ownedRanges old p)).filter (fun r =>
         s.mem.any (fun e => decide (r.1 ≤ e.1) && decide (e.1 < r.2))))).flatten
  ++ (if sf old && !sf new then (packageRanges true).drop 1 else [])

/-- Physical bytes [lo, hi) made zero, their sectors free of poison. -/
def State.zeroRange (s : State) (lo hi : Nat) : State :=
  { s with mem := s.mem.filter (fun e => !(decide (lo ≤ e.1) && decide (e.1 < hi)))
           memc := { s.memc with sectors := s.memc.sectors.filter (fun e => !(decide (lo ≤ 64 * e.1) && decide (64 * e.1 < hi))) } }

/-- Poisoned sectors of T1 and T2 counted on each die after a change of sectors (MEM_ECC_d_POISONED). -/
def State.recountPoison (s : State) : State :=
  (upto 8).foldl (fun s d => s.setReg (eccBase d + 0x1C)
    (s.memc.sectors.filter (fun e => e.2.poison && tierOf (64 * e.1) != 3 && dieOfPhys (64 * e.1) == d)).length) s

/-! ## Putting a configuration in force -/

/-- Queue contexts of `p` resolved afresh, and CONTEXT_SLOT_LOST for the slots disabled now (R325, R384). -/
def State.reresolve (s : State) (p : Nat) : State :=
  (s.sched.queues.map (·.1)).foldl (fun s q =>
    let x := s.queue q
    if x.part != some p || x.st == 0 then s
    else
      let again (c : CtxSlot) : CtxSlot :=
        if !c.en then c
        else match cfgSeg s.folio.active p c.seg with
          | none => { c with lost := true }
          | some g =>
            { c with base := g.f 8 8, limit := g.f 16 8, tier := g.f 1 1, view := g.f 6 1,
                     lost := c.lost || c.perm &&& (3 - bits (g.f 3 1) 1 0) != 0 || (c.seg == 63 && (s.saveSeg p).isSome) }
      let ctx := { x.ctx with slots := x.ctx.slots.map again }
      (s.updQueue q (fun x => { x with ctx := ctx })).slotsLost q p x.ctx ctx) s

/-- A binding survives only with its segment unchanged (R357). -/
def State.rebind (s : State) (old : List Rec) (p : Nat) : State :=
  match Tbl.get 0 s.sched.bound p with
  | 0 => s
  | i + 1 =>
    if (cfgSeg old p i).isSome && cfgSeg old p i == cfgSeg s.folio.active p i then s
    else { s with sched := { s.sched with bound := Tbl.set 0 s.sched.bound p 0 } }

/-- A cluster that a partition no longer owns: its cache is invalidated and its nib reset (R68). -/
def State.dropCluster (s : State) (cl : Nat) : State :=
  let s := (upto 4).foldl (fun s i => s.setTile (4 * cl + i) Tile.reset) s
  let drop (m : ModelSt) : ModelSt :=
    let k (x : Nat) : Nat := x &&& (2 ^ 32 - 1 - 2 ^ cl)
    { m with resident := k m.resident, loading := k m.loading, pinned := k m.pinned, layers := Tbl.set 0 m.layers cl 0 }
  { s with caches := Tbl.erase s.caches cl,
           sched := { s.sched with models := s.sched.models.map (fun (e : Nat × ModelSt) => (e.1, drop e.2)) } }

/-- The clusters that change hands. -/
def State.dropClusters (s : State) (old : List Rec) : State :=
  let own (cfg : List Rec) (c : Nat) : Option Nat :=
    (upto 16).find? (fun p => match cfgPart cfg p with | some r => bit (r.f 4 4) c | none => false)
  ((upto 32).filter (fun c => (own old c).isSome && own old c != own s.folio.active c)).foldl (fun s c => s.dropCluster c) s

/-- Models whose record is gone or changed leave the model cache. -/
def State.dropModels (s : State) (old : List Rec) : State :=
  { s with sched := { s.sched with models := s.sched.models.filter (fun (e : Nat × ModelSt) =>
    let p := e.1 / 2 ^ 32
    let m := e.1 % 2 ^ 32
    (cfgModel s.folio.active p m).isSome && cfgModel old p m == cfgModel s.folio.active p m) } }

/-- The PIN models of `p` in MODEL_ID order. -/
def State.pinModels (s : State) (p : Nat) : List Rec :=
  sortBy (fun a b => a.f 0 4 ≤ b.f 0 4) ((recsOf s.folio.active secModel).filter (fun r => r.part 4 == p && bit (r.f 6 1) 0))

/-- Each cluster of `p` loads its PIN models while they take no more than 8 MiB; MODEL_PIN_OVERFLOW for the others (R393). -/
def State.loadPins (s : State) (p : Nat) : State :=
  (bitList 32 (s.clusters p)).foldl (fun s cl =>
    let step (a : State × Nat × Bool) (r : Rec) : State × Nat × Bool :=
      let (s, used, full) := a
      let m := r.f 0 4
      if !full && used + r.f 12 4 ≤ 8388608 then
        let res := bit (Tbl.get {} s.sched.models (modelKey p m)).resident cl
        (s.updModel p m (fun x => { x with pinned := x.pinned ||| 2 ^ cl, loading := if res then x.loading else x.loading ||| 2 ^ cl }),
         used + r.f 12 4, false)
      else
        ((s.updModel p m (fun x => { x with pinned := x.pinned &&& (2 ^ 32 - 1 - 2 ^ cl) })).blot
          { cls := 0x0308, part := some p, src := ⟨2, cl⟩, detail := [(m, 4), (cl, 1)] } (ringsP (some p)), used, true)
    ((s.pinModels p).foldl step (s, 0, false)).1) s

/-- Every bucket of `p` starts at BURST (R269). -/
def State.fillBuckets (s : State) (p : Nat) : State :=
  let mine := s.memc.buckets.filter (fun e => e.1 / 32 != p)
  (upto 28).foldl (fun s slot => match cfgReg s.folio.active p (resourceSlot slot) with
    | some r => s.updBucket p slot (fun b => { b with tokens := r.f 8 4 })
    | none => s) { s with memc := { s.memc with buckets := mine } }

/-- A unit added to the retirement list (R69); its margin and cap are dropped (R473). -/
def State.listRetired (s : State) (unit num cause : Nat) : State :=
  if s.retired unit num then s
  else
    let s := { s with folio := { s.folio with retired := s.folio.retired ++ [(unit, num, cause)] } }
    let s := s.updSus (unit + 1) num (fun u => { u with kept := none, pending := false })
    { s with flt := { s.flt with suspects := s.flt.suspects.filter (fun u => !(u.kind == unit + 1 && u.num == num)) } }

/-- A unit retired: on the list, with UNIT_RETIRED if it was not on it (R70). -/
def State.addRetired (s : State) (unit num cause : Nat) : State :=
  if s.retired unit num then s
  else
    let owner := s.parts.find? (fun p => unit != 2 && bit (s.clusters p) (if unit = 0 then num / 4 else num))
    (s.listRetired unit num cause).blot
      { cls := 0x0203, part := owner, src := ⟨unit + 1, num⟩, detail := [(unit, 1), (num, 2), (cause, 4)] } (ringsGP owner)

/-- A patch or full folio's configuration put in force: what depends on the old one is dropped, and released memory is to be zeroed. -/
def State.putConfig (s : State) (cfg : List Rec) : State :=
  let old := s.folio.active
  let gone := (s.releasedRanges old cfg).map (fun r => (r.1, r.2 - r.1))
  let s := { s with folio := { s.folio with active := cfg, zeroing := s.folio.zeroing ++ gone } }
  let s := (upto 16).foldl (fun s p => s.rebind old p) s
  ((s.dropClusters old).dropModels old).hotTrim

/-- `p` enters SERVING: contexts resolved, buckets full, PIN models loading, its flows' windows open again (R269, R325, R393, R411). -/
def State.serve (s : State) (p : Nat) : State :=
  let t := (((s.setPart p 1).reresolve p).fillBuckets p).loadPins p
  if s.serving p then t else t.ackFlows p

/-! ## Full load (R65, R72) -/

/-- Firmware digests of the nib kinds after a FULL folio (R65). -/
def fwAfter (cfg : List Rec) (fw : List Nat) : List Nat :=
  (fw.zipIdx).map (fun x => match (recsOf cfg secFirmware).find? (fun r => r.f 0 1 == x.2) with | some r => fieldOf r.data 16 48 | none => x.1)

/-- Saffron after a full load: slots of partitions no longer defined are freed; regions just reserved hold free slots (R239, R256). -/
def State.reslot (s : State) (old : List Rec) : State :=
  let was := (cfgPackage old).f 8 4 == 1048576
  if !s.saffronOn then
    if was then (upto 16).foldl (fun s p => s.setReg (sesPart p) 0) ((upto 8).foldl (fun s d => s.setReg (sesDie d) 0) s) else s
  else if !was then (upto 8).foldl (fun s d => s.zeroRange (saffronBase d) (saffronBase d + 0x20000000)) s
  else
    let used := ((s.mem.filter (fun e => s.saffronByte e.1)).map (fun e =>
      (e.1 / sliceSize, (e.1 - saffronBase (e.1 / sliceSize)) / 4096))).eraseDups
    used.foldl (fun s x =>
      if s.slotState x.1 x.2 != 0 && (cfgPart s.folio.active (s.slotOwner x.1 x.2)).isNone then s.slotFree x.1 x.2 else s) s

/-- The units' work that a full load ends (R65): migrations are abandoned, held contributions dropped, and what the engines keep
of tables is forgotten (R193, R228). -/
def State.clearUnits (s : State) : State :=
  let s := s.units.migs.foldl (fun s m => match s.nibShard m.table m.die with
    | some (_, e) => if m.flipped then s.dirPut e m.row 1 m.newPool m.newSlot else s.dirPut e m.row 1 m.oldPool m.oldSlot
    | none => s) s
  { s with units := {} }

/-- A full folio in force, with every partition it defines SERVING; a package that may not serve stays SAFE (R65, R69, R444). -/
def State.loadFull (s : State) (o : FolioOp) : State :=
  let old := s.folio.active
  let s := s.clearUnits.putConfig o.config
  let s := { s with folio := { s.folio with full := o.image, patches := [] } }
  let s := s.reslot old
  let s := if bit ((cfgPackage o.config).f 0 4) 2 then { s with folio := { s.folio with retired := [] } } else s
  let s := (recsOf o.config secRetire).foldl (fun s r => s.listRetired (r.f 0 1) (r.f 2 2) (r.f 4 4)) s
  let s := { s with nib := { s.nib with fw := fwAfter o.config s.nib.fw, chain := 0 } }
  let s := s.setReg 0x20008 (folioSerial o.image)
  let s := (upto 16).foldl (fun s c =>
    if bits (s.reg (0x104000 + 0x40 * c)) 1 0 == 1 then s.setField (0x104000 + 0x40 * c) 19 4 ((cfgPackage o.config).f 4 2) else s) s
  { s with sched := { s.sched with queues := s.sched.queues.filter (fun e => e.1 == 0), kids := [], sems := [] } }

/-- The patches stored with a folio applied again, and measured (R71, R445). -/
def State.replayPatches (s : State) : List (List Nat) → State
  | [] => s
  | b :: rest =>
    let cfg := resulting s.folio.active b
    let s := s.putConfig cfg
    let s := ({ s with folio := { s.folio with patches := s.folio.patches ++ [b] } }).chained (Config.sha384 b)
    ((recsOf cfg secRetire).foldl (fun s r => s.listRetired (r.f 0 1) (r.f 2 2) (r.f 4 4)) s).replayPatches rest

/-- Whether partitions may serve (R444 rules 1 and 4). -/
def State.mayServe (s : State) : Bool :=
  s.nib.fatal.isEmpty && (bit (s.reg 0x800000) 6 || bit ((cfgPackage s.folio.active).f 0 4) 1)

/-- PKG_STATE and the partitions after a full load: SERVING, or SAFE where the package may not serve. -/
def State.openService (s : State) : State :=
  let ps := s.parts
  if s.mayServe then
    let s := (s.setPkg 1).setField 0x800000 9 9 0
    (upto 16).foldl (fun s p => if ps.contains p then s.serve p else s.setPart p 0) s
  else
    let s := if !s.nib.fatal.isEmpty then s.setPkg 3 else (s.setPkg 3).setField 0x800000 9 9 1
    (upto 16).foldl (fun s p => s.setPart p (if ps.contains p then 4 else 0)) s

/-- A folio operation begins: its folio is fetched (R64). One that arrives while another runs changes nothing. -/
def State.folioBegin (s : State) (op kind : Nat) (c : Nat) : State :=
  let e := (s.cmd c).entry
  if !hvOk (fieldOf e 8 8) then s.finish c 8 1
  else if s.folio.op.isSome then s.finish c 8 (8 + 256 * s.field 0x20000 23 16)
  else
    let o : FolioOp := { op := op, phase := 0, cid := c, addr := fieldOf e 8 8, size := fieldOf e 16 8, mode := fieldOf e 24 1 % 2,
                         limitUs := if kind = 2 then fieldOf e 28 4 else 0, start := s.time, pkg := s.pkgState }
    { s with folio := { s.folio with op := some o } }.updCmd c (fun x => { x with st := .running })

/-- FOLIO_LOAD (R64, R65). -/
def execFolioLoad (s : State) : Host.Outcome State Fault Refusal :=
  run (Instr.wf .folioLoad) s (fun s => s.runAdmin 0x45 (fun c s => s.folioBegin 1 1 c))

/-- PART_RECONF (R64, R66). -/
def execPartReconf (s : State) : Host.Outcome State Fault Refusal :=
  run (Instr.wf .partReconf) s (fun s => s.runAdmin 0x46 (fun c s => s.folioBegin 2 2 c))

/-- FOLIO_REPAIR (R64, R70). -/
def execFolioRepair (s : State) : Host.Outcome State Fault Refusal :=
  run (Instr.wf .folioRepair) s (fun s => s.runAdmin 0x47 (fun c s => s.folioBegin 3 3 c))

/-- Every partition stops fetching and its work ends (R65). -/
def State.stopAll (s : State) : State :=
  let s := s.parts.foldl (fun s p => (s.setPart p 2).abortPart p) s
  s.cids.foldl (fun s c => if c / 2 ^ 23 != 0 && !(s.cmd c).begun then s.setCmd c {} else s) s

/-- A launch with a task on a tile that a repair names (R70): asked to give way, or ended with ABORTED, DETAIL 3, at its next yield
point when it has no frame or its partition too few tiles. -/
def State.giveWay (s : State) (cid : Nat) : State :=
  let c := s.cmd cid
  let p := c.part.getD 0
  let left := ((s.partTiles p).filter (fun t => !s.retireNamed t)).length
  -- frames that it takes already, or that it was asked to take, are counted once
  let has := c.st == .saving || (c.preemptReq && c.preemptAt.isNone)
  let room := has || decide (s.framesUsed p + s.framesAsked p + (s.tilesOf cid).length ≤ s.frames p)
  let s := s.updCmd cid (fun c => { c with named := true })
  if room && c.hdr.tiles ≤ left then (s.updCmd cid (fun c => { c with preemptReq := true })).saveResting cid
  else if s.mayYield cid then s.endCmd cid 1 3 [] false
  else s.updCmd cid (fun c => { c with cause := c.cause.or (some (1, 3)) })

/-- A named unit is retired now: it is confined and so runs nothing, or none of its tiles has a task; a table engine once no pass
uses it (R70). -/
def State.unitIdle (s : State) (unit num : Nat) : Bool :=
  if unit = 2 then
    s.units.te.all (fun e => e.2.passes.all (fun p => p.done || !p.started || (p.home != num && p.rows.all (fun r => r.eng != num))))
    && s.units.upd.all (fun e => e.2.passes.all (fun p => p.st == .done || p.st == .waiting || (p.home != num && p.rows.all (fun r => r.eng != num))))
  else ((upto 128).filter (fun t => if unit = 0 then t == num else clusterOfTile t == num)).all (fun t => (s.tile t).task.isNone)

/-- A named unit retired: it joins the list, and work of it goes elsewhere (R69, R70). -/
def State.retireNow (s : State) (unit num cause : Nat) : State :=
  let before := s
  let s := { s with flt := { s.flt with retiring := s.flt.retiring.filter (fun u => !(u.1 == unit && u.2.1 == num)) } }
  ((s.addRetired unit num cause).measChanged before).placeAll

/-- A repair is complete once every unit it names is retired. -/
def State.repairDone (s : State) : State :=
  match s.folio.op with
  | some o =>
    if o.op = 3 && o.phase = 2 && s.flt.retiring.isEmpty then
      let before := s
      let s := { s with folio := { s.folio with active := o.config, patches := s.folio.patches ++ [o.image] } }
      let s := ((s.chained (Config.sha384 o.image)).setField 0x20000 0 0 1).measChanged before
      s.folioEnd o 0
    else s
  | none => s

/-- A validated REPAIR applied (R70). A unit that is on the list already is passed over, with no further UNIT_RETIRED (log entry 207). -/
def State.repair (s : State) (o : FolioOp) : State :=
  let us := (recsOf o.config secRetire).filter (fun r => (folioRecs o.image).any (fun a => a.2 == r))
  let us := (us.map (fun r => (r.f 0 1, r.f 2 2, r.f 4 4))).filter (fun u => !s.retired u.1 u.2.1)
  let s := { s with flt := { s.flt with retiring := s.flt.retiring ++ us } }
  let s := { s with folio := { s.folio with op := some { o with phase := 2 } } }
  let hit := s.cids.filter (fun c => (s.cmd c).opcode == 1 && (s.tilesOf c).any (fun t => s.retireNamed t))
  let s := hit.foldl (fun s c => s.giveWay c) s
  let now := us.filter (fun u => s.unitConfined (u.1 + 1) u.2.1 && s.unitIdle u.1 u.2.1)
  (now.foldl (fun s u => s.retireNow u.1 u.2.1 u.2.2) s).repairDone

/-- FOLIO_FETCH_DONE: the folio is staged, or could not be read; it is validated, and a folio that passes goes on (R60, R64-R66, R70). Its
bytes are the SIZE that its operation gave (R64): fewer are not the whole, and one more than 256 MiB suffice to fail check 0x02. A patch of an
OFFLINE partition fails (R73, log entry 206). -/
def execFolioFetchDone (data : Option (List Nat)) (s : State) : Host.Outcome State Fault Refusal :=
  run (Instr.wf (.folioFetchDone data)) s (fun s =>
    match s.folio.op with
    | none => s
    | some o =>
      if o.phase != 0 || o.op = 4 || o.slot.isSome then s
      else match data with
        | none => s.folioEnd o 0xF
        | some b =>
          let need := min o.size 268435457
          if b.length < need then s
          else
          let b := b.take need
          let o := { o with part := if 48 < b.length then folioTarget b else 0, image := b }
          match s.folioCheck o.op b with
          | .error e => s.folioEnd o e
          | .ok cfg =>
            let o := { o with config := cfg, since := s.time }
            let s := { s with folio := { s.folio with op := some { o with phase := 1 } } }
            if o.op = 1 then (s.setPkg 2).stopAll
            else if o.op = 2 then
              if s.partState o.part == 4 then s.folioEnd o 0xE
              else if !s.serving o.part then
                -- a partition the active folio does not define has nothing to end
                { s with folio := { s.folio with op := some { o with phase := 2 } } }.setPart o.part 3
              else
                let s := s.setPart o.part 2
                if o.mode = 1 then s.abortPart o.part else s
            else s.repair o)

/-- FOLIO_QUIESCE_DONE: every partition is quiescent; flows are closed, and programming begins (R65, R406). -/
def execFolioQuiesceDone (s : State) : Host.Outcome State Fault Refusal :=
  run (Instr.wf .folioQuiesceDone) s (fun s =>
    match s.folio.op with
    | some o =>
      if o.op != 1 || o.phase != 1 || s.cids.any (fun c => c / 2 ^ 23 != 0) then s
      else
        let s := (s.fab.flows.map (·.1)).foldl (fun s f => if (s.flow f).st = 0 then s else s.flowDown f 0) s
        let s := s.parts.foldl (fun s p => s.setPart p 3) s
        { s with folio := { s.folio with op := some { o with phase := 2 } } }
    | none => s)

/-- A full load that failed after validation: the previous folio is applied again, or the package is SAFE (R72). -/
def State.loadFails (s : State) (o : FolioOp) (rollbackFails : Bool) : State :=
  let s := { s with sched := { s.sched with queues := s.sched.queues.filter (fun e => e.1 == 0), kids := [], sems := [] } }
  let s := s.clearUnits
  let s := if rollbackFails then
      let s := { s with folio := { s.folio with active := [], full := [], patches := [] } }
      let s := (s.setReg 0x20008 0).setField 0x20000 0 0 0
      (upto 16).foldl (fun s p => s.setPart p 0) (s.setPkg 3)
    else if s.folio.full.isEmpty then s.setPkg o.pkg
    else s.openService
  (s.folioBlot 0x0202 o 0xE s.parts).folioEnd o 0xE

/-- What FOLIO_PROGRAM_DONE does once what it moves is admitted and the host has released what it writes. -/
def State.doFolioProgramDone (s : State) : State :=
  match s.folio.op with
  | some o =>
    if o.op != 1 || o.phase != 2 || o.slot.isSome then s
    else if o.fail then s.loadFails o false
    else
      let before := s
      let s := ((s.loadFull o).setField 0x20000 0 0 1).measChanged before
      let s := s.openService
      (s.folioBlot 0x0201 o 0 s.parts).folioEnd o 0
  | none => s

/-- FOLIO_PROGRAM_DONE: the folio is in force and measured, the partitions serve, FOLIO_APPLIED is written (R65, R445). -/
def execFolioProgramDone (s : State) : Host.Outcome State Fault Refusal :=
  runMem (Instr.wf .folioProgramDone) [] s (fun s => s.doFolioProgramDone)

/-! ## The folio at a start (R71, R72, R444) -/

/-- The configuration that a flash slot gives: its full folio and then each patch, every one validated. -/
def State.slotCheck (s : State) (x : FolioSlot) : Except Nat (List Rec) :=
  match s.folioCheck 1 x.full with
  | .error e => .error e
  | .ok cfg =>
    let s := { s with folio := { s.folio with active := cfg, full := x.full } }
    let go (a : Except Nat (List Rec)) (b : List Nat) : Except Nat (List Rec) :=
      match a with
      | .error e => .error e
      | .ok c => { s with folio := { s.folio with active := c } }.folioCheck (folioKind b) b
    match x.patches.foldl go (.ok cfg) with
    | .error e => .error e
    | .ok _ => .ok cfg

/-- Window settings stored with a slot written to the window registers (R277). -/
def State.putWindows (s : State) (x : FolioSlot) : State :=
  (x.t3.zipIdx).foldl (fun s w => (s.setReg (0x106000 + 0x40 * w.2) w.1.1).setReg (0x106008 + 0x40 * w.2) w.1.2) s

/-- The load of flash slot `k` begun; the check that its folio fails. -/
def State.slotOp (s : State) (k : Nat) : Except Nat (State × FolioOp) :=
  let x := nth s.flash.slots k {}
  let s := s.putWindows x
  match s.slotCheck x with
  | .error e => .error e
  | .ok cfg => .ok (s, { op := 1, phase := 2, start := s.time, config := cfg, image := x.full, patches := x.patches, slot := some k })

/-- The committed folio does not load, and that of the other slot is applied (R72). -/
def State.startRollback (s : State) (k err : Nat) : State :=
  s.folioBlot 0x0202 { op := 1, phase := 2, start := s.time, image := (nth s.flash.slots k {}).full } err []

/-- STAGE 5: the window settings stored with the committed folio are restored, whatever becomes of it (R277); it is read and validated, else
that of the other slot (R71, R72). -/
def State.startLoad (s : State) : State :=
  let s := s.setField 0x800000 3 0 5
  match s.flash.committed with
  | none => s
  | some k =>
    let s := s.putWindows (nth s.flash.slots k {})
    match s.slotOp k with
    | .ok (s, o) => { s with folio := { s.folio with op := some o } }.setPkg 2
    | .error e =>
      let s := s.folioStatus 1 e
      match s.slotOp (1 - k) with
      | .ok (s, o) => { s.startRollback k e with folio := { s.folio with op := some o } }.setPkg 2
      | .error e => if (nth s.flash.slots (1 - k) {}).full.isEmpty then s else s.folioStatus 1 e

/-- What FOLIO_APPLY_FAIL does once what it moves is admitted and the host has released what it writes. -/
def State.doFolioApplyFail (s : State) (rollbackFails : Bool) : State :=
  match s.folio.op with
  | some o =>
    if o.op != 1 || o.phase != 2 then s
    else match o.slot with
      | none => s.loadFails o rollbackFails
      | some k =>
        let s := { s with folio := { s.folio with op := none } }
        if s.flash.committed != some k then s
        else
          let s := s.folioStatus 1 0xE
          match s.slotOp (1 - k) with
          | .ok (s, o) => if rollbackFails then s else { s.startRollback k 0xE with folio := { s.folio with op := some o } }
          | .error e => if (nth s.flash.slots (1 - k) {}).full.isEmpty then s else s.folioStatus 1 e
  | none => s

/-- FOLIO_APPLY_FAIL: a nib does not start its firmware, or a unit fails while it is programmed; `rollbackFails` says that the
previous folio (at a start, that of the other slot) fails too (R72). -/
def execFolioApplyFail (rollbackFails : Bool) (s : State) : Host.Outcome State Fault Refusal :=
  runMem (Instr.wf (.folioApplyFail rollbackFails)) [] s (fun s => s.doFolioApplyFail rollbackFails)

/-! ## Reconfiguring one partition (R66, R67, R73) -/

/-- DRAIN_LIMIT_EXPIRY: draining has taken DRAIN_LIMIT_US, and the reconfiguration goes on as in ABORT (R66). -/
def execDrainLimitExpiry (s : State) : Host.Outcome State Fault Refusal :=
  run (Instr.wf .drainLimitExpiry) s (fun s =>
    match s.folio.op with
    | some o =>
      if o.op != 2 || o.phase != 1 || o.mode != 0 || s.time < o.since + 1000 * o.limitUs then s
      else { s with folio := { s.folio with op := some { o with mode := 1 } } }.abortPart o.part
    | none => s)

/-- PARTITION_QUIESCED: the partition's work has ended, and it is RECONFIGURING (R66). -/
def execPartitionQuiesced (s : State) : Host.Outcome State Fault Refusal :=
  run (Instr.wf .partitionQuiesced) s (fun s =>
    match s.folio.op with
    | some o =>
      if o.op != 2 || o.phase != 1 || !s.partQuiet o.part (o.mode == 0) then s
      else { s with folio := { s.folio with op := some { o with phase := 2 } } }.setPart o.part 3
    | none => s)

/-- The launches that the front end kept are relocated afresh, their images found again; one whose handle no longer resolves ends (R66). -/
def State.relocateKept (s : State) (p : Nat) : State :=
  ((s.partCmds p).filter (fun c => (s.cmd c).st == .fetched && (s.cmd c).opcode == 1)).foldl (fun s cid =>
    let c := s.cmd cid
    let r := s.relocate p c.entry c.rawCb
    let s := s.updCmd cid (fun c => { c with cb := r.1, img := s.imageOf p c.model, stale := s.imageStale p c.model })
    match r.2 with | some e => s.finish cid e.1 e.2 | none => s) s

/-- Tables that a patch removes or changes are forgotten by the engines. -/
def State.dropTables (s : State) (old : List Rec) (p : Nat) : State :=
  let gone := ((recsOf old secTable).filter (fun r => r.part 0 == p && !(recsOf s.folio.active secTable).contains r)).map (fun r => r.f 4 4)
  let lost := gone.filter (fun t => (cfgTable s.folio.active t).isNone)
  { s with units := { s.units with maps := s.units.maps.filter (fun m => !gone.contains m.table), tabs := s.units.tabs.filter (fun e => !lost.contains e.1),
                                   hot := s.units.hot.map (fun l => l.filter (fun h => !gone.contains h.table)),
                                   held := s.units.held.filter (fun h => h.part != p) } }

/-- Partition `p` returns to SERVING and its queues go on. -/
def State.resumePart (s : State) (p : Nat) : State :=
  if (cfgPart s.folio.active p).isNone then s.setPart p 0 else (((s.serve p).relocateKept p).place p).fabGo

/-- A reconfiguration that failed after validation: the previous configuration serves again, or the partition is OFFLINE (R73). -/
def State.reconfFails (s : State) (o : FolioOp) (restoreFails : Bool) : State :=
  let s := if restoreFails then s.setPart o.part 4 else s.resumePart o.part
  (s.folioBlot 0x0202 o 0xE [o.part]).folioEnd o 0xE

/-- RECONF_APPLY_DONE: the patch is in force, the partition serves again, FOLIO_APPLIED is written (R66, R445). -/
def execReconfApplyDone (s : State) : Host.Outcome State Fault Refusal :=
  run (Instr.wf .reconfApplyDone) s (fun s =>
    match s.folio.op with
    | some o =>
      if o.op != 2 || o.phase != 2 then s
      else if o.fail then s.reconfFails o false
      else
        let before := s
        let p := o.part
        let s := (s.putConfig o.config).dropTables before.folio.active p
        let s := { s with folio := { s.folio with patches := s.folio.patches ++ [o.image] } }
        let s := ((s.chained (Config.sha384 o.image)).setField 0x20000 0 0 1).measChanged before
        let s := (s.bump (0x20108 + 0x20 * p) 32 1).setReg (0x20110 + 0x20 * p) (s.time - o.start)
        ((s.resumePart p).folioBlot 0x0201 o 0 [p]).folioEnd o 0
    | none => s)

/-- RECONF_APPLY_FAIL (R73). -/
def execReconfApplyFail (restoreFails : Bool) (s : State) : Host.Outcome State Fault Refusal :=
  run (Instr.wf (.reconfApplyFail restoreFails)) s (fun s =>
    match s.folio.op with
    | some o => if o.op != 2 || o.phase != 2 then s else s.reconfFails o restoreFails
    | none => s)

/-! ## Retirement (R70) -/

/-- UNIT_RETIRE: a unit that a repair names runs nothing more and is retired. -/
def execUnitRetire (unit num : Nat) (s : State) : Host.Outcome State Fault Refusal :=
  run (Instr.wf (.unitRetire unit num)) s (fun s =>
    match s.flt.retiring.find? (fun u => u.1 == unit && u.2.1 == num) with
    | none => s
    | some u => if s.unitIdle unit num then (s.retireNow unit num u.2.2).repairDone else s)

/-! ## Commit (R71) -/

/-- FOLIO_COMMIT: the active full folio and its patches are written to the uncommitted slot; without an active full folio it fails. -/
def execFolioCommit (s : State) : Host.Outcome State Fault Refusal :=
  run (Instr.wf .folioCommit) s (fun s =>
    match s.admin 0x48 with
    | none => s
    | some c =>
      if s.folio.op.isSome then s.finish c 8 (8 + 256 * s.field 0x20000 23 16)
      else
        let o : FolioOp := { op := 4, phase := 2, cid := c, start := s.time }
        if s.stage != 6 || 2 ≤ s.field 0x800014 2 0 then s.finish c 8 (8 + 256 * s.field 0x20000 23 16)
        else if s.folio.full.isEmpty || s.pkgState = 0 || s.pkgState = 3 then s.folioEnd o 0xE
        else { s with folio := { s.folio with op := some o } }.updCmd c (fun x => { x with st := .running }))

/-- A rollback counter raised by one row; SECVER_EXHAUSTED when no row is left (R436). -/
def State.raiseFolioMin (s : State) (v : Nat) : State :=
  if v ≤ counterOf s.flash.folioRows then s
  else if s.flash.folioRows.length < counterRows then { s with flash := { s.flash with folioRows := s.flash.folioRows ++ [v] } }
  else s.blot { cls := 0x0205, src := ⟨5, s.leadDie⟩, detail := [(0, 1)] } [ringG]

/-- FOLIO_COMMIT_WRITTEN: the slot is read back and marked committed, and the minimum security version raised (R71, R277). -/
def execFolioCommitWritten (readBack : Bool) (s : State) : Host.Outcome State Fault Refusal :=
  run (Instr.wf (.folioCommitWritten readBack)) s (fun s =>
    match s.folio.op with
    | some o =>
      if o.op != 4 then s
      else if !readBack then s.folioEnd o 0xE
      else
        let before := s
        let k := match s.flash.committed with | some c => 1 - c | none => 0
        let t3 := (upto ((cfgPackage s.folio.active).f 6 1)).map (fun w => (s.reg (0x106000 + 0x40 * w), s.reg (0x106008 + 0x40 * w)))
        let x : FolioSlot := { full := s.folio.full, patches := s.folio.patches, t3 := t3 }
        let s := { s with flash := { s.flash with slots := updAt s.flash.slots k (fun _ => x), committed := some k } }
        let s := (s.setField 0x20000 0 0 0).raiseFolioMin (folioSecver s.folio.full)
        (s.measChanged before).folioEnd o 0
    | none => s)

/-! ## Zeroing (R68) -/

/-- ZEROING_COMPLETE: the released range that begins at `base` is zero; what waited for it goes on. -/
def execZeroingComplete (base : Nat) (s : State) : Host.Outcome State Fault Refusal :=
  run (Instr.wf (.zeroingComplete base)) s (fun s =>
    match s.folio.zeroing.find? (fun z => z.1 == base) with
    | none => s
    | some z =>
      let s := { s with folio := { s.folio with zeroing := s.folio.zeroing.erase z } }
      ((s.zeroRange z.1 (z.1 + z.2)).recountPoison.pumpZero).mcAll)

end Sys2Proof.Machine
end

