-- ==== Sys2Proof/Machine/FabRx.lean ====
section
/-!
DEFINITION. Received Quill packets (18): the checks of Table 18.7, duplicates, acknowledgement, and what each packet type does.
-/
namespace Sys2Proof.Machine

/-- What the contents of a packet come to (row 5 of Table 18.7): applied; not applicable
now, so that it stays in staging; a recovery runs first; refused, as a violation or not, and received or not. -/
inductive RxAns where
  | ok
  | missing
  | wait
  | refuse (reason : Nat) (viol got : Bool)
deriving DecidableEq, Repr

/-! ## The checks of rows 1 to 4 (R408, R417) -/

/-- TXSEQ passes row 4 for epoch `e`. -/
def Flow.fresh (x : Flow) (e txseq : Nat) : Bool :=
  let h := nth x.high e 0
  decide (h ≤ txseq) || (decide (h ≤ txseq + 8193) && !(nth x.seen e []).contains txseq)

/-- TXSEQ seen under epoch `e`. -/
def Flow.note (x : Flow) (e txseq : Nat) : Flow :=
  let h := max (nth x.high e 0) (txseq + 1)
  { x with high := updAt x.high e (fun _ => h), seen := updAt x.seen e (fun l => txseq :: l.filter (fun t => h ≤ t + 8193)) }

/-- The rank of flow `f` in a group. -/
def GrpSt.rankOf (g : GrpSt) (f : Nat) : Option Nat := g.flows.findIdx? (· == f)

/-- A pace notice counted, and recorded in its group (R428). -/
def State.notice (s : State) (kind : Nat) (p : RxPacket) : State :=
  if p.pace.1 = 0 then s
  else
    let s := s.bump 0x400030 64 1
    let g := if kind = 5 then nth p.fields 3 0 else nth p.fields 0 0
    if kind != 5 && kind != 8 then s
    else match (s.grp g).rankOf p.flow with
      | some r => s.setReg (selKey 0x400318 g) (setBits (setBits (s.reg (selKey 0x400318 g)) 19 16 p.pace.1) 15 4 r)
      | none => s

/-- The packet passes rows 1 to 4, and finds staging: the new state, and whether its contents are looked at. -/
def State.rxFront (s : State) (eport kind : Nat) (p : RxPacket) : State × Bool :=
  let s := s.bump (fabPort eport + 0x18) 64 1
  let x := s.flow p.flow
  let e := b2n (bit p.flags 1)
  if !bit (s.reg 0x400000) 0 then (s.bump (fabPort eport + 0x20) 64 1, false)
  else if !p.whole || p.dst != s.fabDev || x.st != 1 || p.src != s.peerDev p.flow then (s.bump 0x400008 64 1, false)
  else if !p.tagOk || (bit p.flags 1 != x.rxEpoch && x.rxNext.isNone) then (s.bump 0x400008 64 1, false)
  else if !x.fresh e p.txseq then (s.bump 0x400010 64 1, false)
  else
    let s := s.updFlow p.flow (fun x => { x.note e p.txseq with
      retireAt := if bit p.flags 1 != x.rxEpoch then x.retireAt.or (some (s.time + 1000000)) else x.retireAt })
    if p.noRoom then (s.bump 0x400018 64 1, false) else (s.notice kind p, true)

/-! ## Sequenced packets (R410, R411) -/

/-- The PSN nearest to the next expected one; negative numbers lie before the first packet. -/
def Flow.fullPsn (x : Flow) (psn : Nat) : Int := (x.rcum : Int) + signed 32 (ofInt 32 ((psn : Int) - (x.rcum : Int)))

/-- The lowest PSN not received, at most `n` beyond `k`. -/
def nextGap (got : List Nat) : Nat → Nat → Nat
  | 0, k => k
  | n + 1, k => if got.contains k then nextGap got n (k + 1) else k

/-- A sequenced packet received: it joins the next ACK, which goes at once after 8 packets, out of order, or with a CE mark. -/
def State.rxGot (s : State) (f psn : Nat) (txseq : Nat) (ce : Bool) : State :=
  let x := s.flow f
  if x.st != 1 then s
  else
    let got := psn :: x.rgot
    let cum := nextGap got got.length x.rcum
    let s := s.updFlow f (fun x => { x with rcum := cum, rgot := got.filter (fun k => cum ≤ k), owed := x.owed + 1, echo := txseq,
                                            owedAt := if x.owed = 0 then s.time else x.owedAt, ece := x.ece || ce })
    if 8 ≤ x.owed + 1 || psn != x.rcum || ce then s.ackNow f else s

/-- A packet refused: a NAK, a violation where it is one, and received where the sender is not to send it again. -/
def State.rxRefuse (s : State) (p : RxPacket) (psn reason : Nat) (viol : Bool) : State :=
  let s := s.sendNak p.flow psn reason p.txseq
  if viol then s.violation p.flow reason else s

/-- A sequenced packet: duplicates are acknowledged again, the window and the common rules are checked, and `go` applies the
rest. -/
def State.rxSeq (s0 : State) (eport kind : Nat) (p : RxPacket) (go : State → State × RxAns) : State :=
  if bits (s0.reg (fabPort eport + 4)) 7 0 = 0 then s0
  else
    let r := s0.rxFront eport kind p
    let s := r.1
    let x := s.flow p.flow
    let z := x.fullPsn p.psn
    let n := z.toNat
    if !r.2 then s
    else if z < (x.rcum : Int) || x.rgot.contains n then
      (s.updFlow p.flow (fun x => { x with echo := p.txseq, ece := x.ece || p.ce })).ackNow p.flow
    else if x.limit ≤ n then s.rxRefuse p p.psn 6 true
    else if p.reserved then (s.rxRefuse p p.psn 1 true).rxGot p.flow n p.txseq p.ce
    else if !p.lenOk || s.maxPayload p.flow < p.data.length then (s.rxRefuse p p.psn 2 true).rxGot p.flow n p.txseq p.ce
    else
      let a := go s
      match a.2 with
      | .ok => a.1.rxGot p.flow n p.txseq p.ce
      | .missing => s0
      | .wait =>
        -- the packet stays in staging
        s0.waits (go s0).1
      | .refuse reason viol got =>
        let t := a.1.rxRefuse p p.psn reason viol
        if got then t.rxGot p.flow n p.txseq p.ce else t

/-! ## One-sided operations (R424) -/

/-- ADDR, COUNT, OP_OFFSET, GROUP, STEP, INFO and COLL_SEQ of a packet (Table 18.4). -/
def pf (p : RxPacket) (i : Nat) : Nat := nth p.fields i 0

/-- The fields that only a collective's packets set are zero. -/
def plainPkt (p : RxPacket) : Bool := pf p 3 == 0 && pf p 4 == 0 && pf p 6 == 0

/-- Segments that cover `n` bytes from `a`, taken one after another. -/
def covered (rs : List Rec) : Nat → Nat → Nat → Bool
  | 0, _, n => n == 0
  | fuel + 1, a, n =>
    n == 0 || (match rs.find? (fun r => r.covers a 1) with
      | some r => covered rs fuel (r.f 16 8 + 1) (n - (r.f 16 8 + 1 - a))
      | none => false)

/-- The check of a remote range: the reason for which it is refused. `need` is the right: 1 read, 2 write, 3 both. Mapped regions
are whole GiB, so a range of at most 16 MiB whose ends are mapped is mapped. -/
def State.remoteCheck (s : State) (f a n need : Nat) : Option Nat :=
  match s.phys a, s.phys (a + n - 1) with
  | some x, some y =>
    if tierOf x = 3 || tierOf y = 3 then some 3
    else
      let rs := (cfgSegs s.folio.active (s.flowPart f)).filter (fun r => bit (r.f 3 1) 3 && r.f 3 1 &&& need == need)
      if covered rs (rs.length + 1) a n then none else some 4
  | _, _ => some 3

/-- What remote traffic of flow `f` owes that reaches physical address `x` (R270): it is charged to the flow's partition. -/
def State.chargeRemote (s : State) (f x bytes : Nat) (write : Bool) : State :=
  s.owe (s.flowPart f) (flowCid f) (if s.inHostBias x then (if write then 16 else 26) + s.biasPort x else slotOfPhys x write) bytes ⟨7, dieOfPhys x⟩

/-- Whether part of a range is not zero yet (R68). -/
def State.anyUnzeroed (s : State) (a n : Nat) : Bool := (pieces a n).any (fun k => s.unzeroed ((s.phys k.1).getD 0) k.2)

/-- Received bytes written for flow `f`; a piece that fails writes TIER_ACCESS_FAILED (R281, R290). -/
def State.remoteWrite (s : State) (f a : Nat) (data : List Nat) : State :=
  (pieces a data.length).foldl (fun s k =>
    let x := (s.phys k.1).getD 0
    let w := (s.chargeRemote f x 64 true).devWrite none x ((data.drop (k.1 - a)).take k.2)
    let s := w.1.invalidateOthers 32 x
    if w.2 then s else s.tierFailed x (s.writeCause x) true (some (s.flowPart f)) none ⟨7, dieOfPhys x⟩) s

/-- What a received PUT does once what it moves is admitted and the host has released what it writes. -/
def State.doQuillPut (s : State) (eport : Nat) (p : RxPacket) : State :=
  s.rxSeq eport 1 p (fun s =>
    let a := pf p 0
    let n := p.data.length
    if !plainPkt p || pf p 5 != 0 then (s, .refuse 1 true true)
    else if n = 0 || pf p 1 != n then (s, .refuse 2 true true)
    else match s.remoteCheck p.flow a n 2 with
      | some r => (s, .refuse r true true)
      | none =>
        if s.anyUnzeroed a n then (s, .missing)
        else
          (s.remoteWrite p.flow a p.data, .ok))

/-- A received PUT (R424). -/
def execQuillPut (eport : Nat) (p : RxPacket) (s : State) : Host.Outcome State Fault Refusal :=
  runMem (Instr.wf (.quillPut eport p)) p.ecc s (fun s => s.doQuillPut eport p)

/-- The bytes of a remote get: those of poisoned or retired sectors are free values (R424 gives a read of them no answer); none while
a recovery from a replica runs. -/
def State.remoteRead (s : State) (f : Nat) : List (Nat × Nat) → State × Option (List Nat)
  | [] => (s, some [])
  | k :: ks =>
    let x := (s.phys k.1).getD 0
    let part := some (s.flowPart f)
    let o := (s.chargeRemote f x 64 false).readSector (x / 64 * 64) part none ⟨7, dieOfPhys x⟩
    let d : State × Option (List Nat) := match o.2 with
      | .data => (o.1, some (o.1.readThrough part x k.2))
      | .replica => (o.1, none)
      | _ => (o.1.useFree, some (natBytes k.2 (o.1.freeVal % 256 ^ k.2)))
    match d.2 with
    | none => d
    | some b =>
      let r := d.1.remoteRead f ks
      (r.1, r.2.map (fun e => b ++ e))

/-- What a received GET_REQ does once what it moves is admitted and the host has released what it writes. -/
def State.doGetReq (s : State) (eport : Nat) (p : RxPacket) : State :=
  s.rxSeq eport 2 p (fun s =>
    let a := pf p 0
    let n := pf p 1
    if !plainPkt p || pf p 5 != 0 then (s, .refuse 1 true true)
    else if n = 0 || 16777216 < n || !p.data.isEmpty then (s, .refuse 2 true true)
    else match s.remoteCheck p.flow a n 1 with
      | some r => (s, .refuse r true true)
      | none =>
        if s.anyUnzeroed a n then (s, .missing)
        else
          let r := s.remoteRead p.flow (pieces a n)
          match r.2 with
          | none => (r.1, .wait)
          | some d =>
            let cs := cuts (s.maxPayload p.flow) n
            let ks : List TxPkt := (cs.zipIdx).map (fun c =>
              { kind := 3, opid := p.opid, flags := if bit p.flags 3 && c.2 + 1 = cs.length then 8 else 0,
                fields := opExt (pf p 2 + c.1.1) c.1.2 (pf p 2 + c.1.1) 0 0 0 0, data := (d.drop c.1.1).take c.1.2 })
            ((r.1.enqueue p.flow ks).sendFlow p.flow, .ok))

/-- A received GET_REQ: the bytes are read and go back as GET_RESP packets (R424). -/
def execGetReq (eport : Nat) (p : RxPacket) (s : State) : Host.Outcome State Fault Refusal :=
  runMem (Instr.wf (.getReq eport p)) p.ecc s (fun s => s.doGetReq eport p)

/-- The host writes added since `s` marked as an operation's received data. -/
def State.markOp (t s : State) (id : Nat) : State :=
  { t with host := { t.host with
    goWait := (t.host.goWait.zipIdx).map (fun w => if s.host.goWait.length ≤ w.2 then { w.1 with op := id } else w.1) } }

/-- Received data of an operation written at `a`. -/
def State.opWrite (s : State) (o : QOp) (host : HostView) (a : Nat) (data : List Nat) (part : Nat × Nat × Nat × Nat) : State × RxAns :=
  let w := s.unitWrite o.cid ⟨4, dieOfTile o.tile⟩ host a data
  match w.2 with
  | .ok _ => ((w.1.markOp s o.id).updOp o.id (fun o => { o with got := o.got ++ [part] }), .ok)
  | .missing => (s, .missing)
  | .wait | .ended => (w.1, .ok)

/-- What a received GET_RESP does once what it moves is admitted and the host has released what it writes. -/
def State.doGetResp (s : State) (eport : Nat) (p : RxPacket) (host : HostView) : State :=
  s.rxSeq eport 3 p (fun s =>
    let off := pf p 0
    let n := p.data.length
    if !plainPkt p || pf p 5 != 0 then (s, .refuse 1 true true)
    else if n = 0 || pf p 1 != n || pf p 2 != off then (s, .refuse 2 true true)
    else match s.fab.ops.find? (fun o => o.id % 2 ^ 32 == p.opid && (o.kind == 2 || o.kind == 8) && o.flows == [p.flow]) with
      | none => (s, .ok)
      | some o =>
        if o.len < off + n then (s, .refuse 2 true true)
        else if o.kind = 8 then
          (s.updOp o.id (fun o => { o with data := o.data.take off ++ p.data ++ o.data.drop (off + n), got := o.got ++ [(0, 0, off, n)] }), .ok)
        else s.opWrite o host (o.loc + off) p.data (0, 0, off, n))

/-- A received GET_RESP: the data goes to its get; that of an operation that has ended is discarded (R423, R424). -/
def execGetResp (eport : Nat) (p : RxPacket) (host : HostView) (s : State) : Host.Outcome State Fault Refusal :=
  runMem (Instr.wf (.getResp eport p host)) (host.ecc ++ p.ecc) s (fun s => s.doGetResp eport p host)

/-- Bytes of an element of an ATOMIC (log entry 37 for a UINT16 count). -/
def atomicBytes (typ : Nat) : Nat := if typ = countType then 2 else redBytes typ

/-- The sectors of an ATOMIC read for flow `f`: those that do not read; none while a recovery from a replica runs. -/
def State.atomicReads (s : State) (f : Nat) : List Nat → State × Option (List Nat)
  | [] => (s, some [])
  | a :: rest =>
    let o := s.readSector a (some (s.flowPart f)) none ⟨4, dieOfPhys a + 32⟩
    match o.2 with
    | .replica => (o.1, none)
    | .data => o.1.atomicReads f rest
    | _ =>
      let r := o.1.atomicReads f rest
      (r.1, r.2.map (fun l => a :: l))

/-- One element of an ATOMIC added at physical address `x`. The scale of an FP8 element is in no packet, so its sum is a free value (log
entry 40). -/
def State.atomicElem (s : State) (f typ x src : Nat) : State :=
  let w := atomicBytes typ
  let old := fieldOf (s.readMem x w) 0 w
  let new := if typ = countType then min 65535 (old + src) else if redScaled typ then s.freeVal % 256 else (redElem 0 typ old src 0 127 127).1
  let s := if redScaled typ then s.useFree else s
  let s := (s.chargeRemote f x 64 false).chargeRemote f x 64 true
  (((s.bump (redBase (dieOfPhys x) + 0x10) 64 1).devWrite none x (natBytes w new)).1).invalidateOthers 32 x

/-- The elements of an ATOMIC in turn; an element whose sector does not read is not changed. The flag is false while one of its sectors
is under recovery. -/
def State.atomicAll (s : State) (f typ : Nat) (l : List (Nat × Nat)) : State × Bool :=
  let r := s.atomicReads f ((l.map (fun k => k.1 / 64 * 64)).eraseDups)
  match r.2 with
  | none => (r.1, false)
  | some bad => (l.foldl (fun s k => if bad.contains (k.1 / 64 * 64) then s else s.atomicElem f typ k.1 k.2) r.1, true)

/-- What a received ATOMIC does once what it moves is admitted and the host has released what it writes. -/
def State.doAtomicRx (s : State) (eport : Nat) (p : RxPacket) : State :=
  s.rxSeq eport 4 p (fun s =>
    let a := pf p 0
    let n := p.data.length
    let typ := pf p 5 % 16
    let w := atomicBytes typ
    if !plainPkt p || bits (pf p 5) 7 6 != 0 then (s, .refuse 1 true true)
    else if n = 0 || pf p 1 != n then (s, .refuse 2 true true)
    else if countType < typ || (!redScaled typ && bits (pf p 5) 5 4 != 0) || !aligned a w then (s, .refuse 5 true true)
    else if !aligned n w then (s, .refuse 2 true true)
    else match s.remoteCheck p.flow a n 3 with
      | some r => (s, .refuse r true true)
      | none =>
        if s.anyUnzeroed a n then (s, .missing)
        else
          let r := s.atomicAll p.flow typ ((upto (n / w)).map (fun i => ((s.phys (a + w * i)).getD 0, fieldOf p.data (w * i) w)))
          (r.1, if r.2 then .ok else .wait))

/-- A received ATOMIC: every element is one unordered ADD (R424). -/
def execAtomicRx (eport : Nat) (p : RxPacket) (s : State) : Host.Outcome State Fault Refusal :=
  runMem (Instr.wf (.atomicRx eport p)) p.ecc s (fun s => s.doAtomicRx eport p)

/-! ## Collectives (R427-R431) -/

/-- The rank of the sender of a group's packet, if the group is a collective one of the flow's partition with the flow a member. -/
def State.senderRank (s : State) (f g : Nat) : Option Nat :=
  let d := s.grpDesc g
  if 1023 < g || !gValid d || gMulti d || gPart d != s.flowPart f then none
  else match (s.grp g).rankOf f with
    | some r => if r = gRank d then none else some r
    | none => none

/-- Where a rank's data of a step lies in an operation's result: first byte and length. -/
def QOp.span (o : QOp) (step rank : Nat) : Nat × Nat :=
  if o.kind = 4 then (if step = 0 then (o.my * o.chunk, o.chunkLen o.my) else (rank * o.chunk, o.chunkLen rank))
  else (rank * o.len, o.len)

/-- What a received COLL does once what it moves is admitted and the host has released what it writes. -/
def State.doColl (s : State) (eport : Nat) (p : RxPacket) (host : HostView) : State :=
  s.rxSeq eport 5 p (fun s =>
    let n := p.data.length
    let step := pf p 4
    if n = 0 || pf p 1 != n then (s, .refuse 2 true true)
    else match s.senderRank p.flow (pf p 3) with
      | none => (s, .refuse 7 true true)
      | some r =>
        match s.fab.ops.find? (fun o => o.group == some (pf p 3) && o.seq == pf p 6 && 4 ≤ o.kind && o.kind ≤ 6) with
        | none => if (s.grp (pf p 3)).ended.contains (pf p 6) then (s, .refuse 10 false true) else (s, .refuse 9 false false)
        | some o =>
          if pf p 5 != o.info || (if o.kind = 4 then 1 else 0) < step then (s, .refuse 8 true true)
          else
            let z := o.span step r
            if pf p 0 < z.1 || z.1 + z.2 < pf p 0 + n || pf p 2 != pf p 0 - z.1 then (s, .refuse 2 true true)
            else if o.kind = 4 && step = 0 then
              let w := s.opWrite o host (o.stageAt r + (pf p 0 - z.1)) p.data (0, r, pf p 0, n)
              match w.2 with
              | .ok =>
                let c := w.1.collCombineAll o.id host
                (match c.2 with
                 | .missing => (s, .missing)
                 | _ => (c.1, .ok))
              | x => (w.1, x)
            else s.opWrite o host (o.rem + pf p 0) p.data (step, r, pf p 0, n))

/-- A received COLL packet: its data goes to the collective of its sequence (R427, Table 18.8). -/
def execColl (eport : Nat) (p : RxPacket) (host : HostView) (s : State) : Host.Outcome State Fault Refusal :=
  runMem (Instr.wf (.coll eport p host)) (host.ecc ++ p.ecc) s (fun s => s.doColl eport p host)

/-- What a received ABORT does once what it moves is admitted and the host has released what it writes. -/
def State.doAbortRx (s : State) (eport : Nat) (p : RxPacket) : State :=
  s.rxSeq eport 8 p (fun s =>
    let g := pf p 0
    let reason := pf p 1
    let die := pf p 2
    let q := pf p 3
    if reason = 0 || 2 < reason || 7 < die then (s, .refuse 1 true true)
    else if !p.data.isEmpty then (s, .refuse 2 true true)
    else match s.senderRank p.flow g with
      | none => (s, .refuse 7 true true)
      | some r =>
        match s.fab.ops.find? (fun o => o.group == some g && o.seq == q && 4 ≤ o.kind && o.kind ≤ 6) with
        | none => (s.collOver g q, .ok)
        | some o =>
          let pt := (s.cmd o.cid).part
          let s := s.blot { cls := 0x0606, part := pt, cmd := some (cmdName o.cid), src := ⟨7, eport⟩,
                            detail := [(g, 2), (r, 2), (p.src, 2), (reason, 1), (die, 1), (q, 4)] } (ringsGP pt)
          (((if reason = 1 then s.opFails o 6 die else s.opFails o 3 7).collOver g q), .ok))

/-- A received ABORT: the collective fails with its launch (R430, R431). -/
def execAbortRx (eport : Nat) (p : RxPacket) (s : State) : Host.Outcome State Fault Refusal :=
  runMem (Instr.wf (.abortRx eport p)) p.ecc s (fun s => s.doAbortRx eport p)

/-! ## Acknowledgements (R410, R412, R415) -/

/-- The congestion window after an ACK that newly acknowledged `n` packets, with the RTT of its echo if it has one. -/
def Flow.congest (x : Flow) (now n : Nat) (ece : Bool) (rtt : Option Nat) : Flow :=
  let rtts := (x.rtts.filter (fun r => now < r.1 + 10000000)) ++ (rtt.map (fun r => (now, r))).toList
  let base := match rtts with | [] => 0 | r :: rs => rs.foldl (fun m q => min m q.2) r.2
  let target := base + 8000
  let slow := match rtt with | some r => decide (target < r) | none => false
  let x := { x with rtts := rtts }
  if ece || slow then
    if x.lastCut + x.srtt ≤ now then
      let r := rtt.getD 0
      let cut := if ece || r ≤ 2 * (r - target) then x.cwnd / 2 else x.cwnd * target / r
      { x with cwnd := max 256 cut, lastCut := now }
    else x
  else { x with cwnd := min 1048576 (x.cwnd + n * 65536 / max 1 x.cwnd) }

/-- A received ACK: the window advances, credits return, losses are found, CWND changes (R410, R412, R414, R415, R433). -/
def State.rxAck (s : State) (f cum rwin sack echo : Nat) (ece : Bool) : State :=
  let x := s.flow f
  let next : Int := (x.cum : Int) + signed 32 (ofInt 32 ((cum : Int) + 1 - (x.cum : Int)))
  if (x.psn : Int) < next then s
  else
    let c := max x.cum next.toNat
    let done (k : TxPkt) : Bool := decide (k.psn < c) || (decide (next ≤ (k.psn : Int)) && bit sack ((k.psn : Int) - next).toNat)
    let acked := x.sent.filter done
    let rest := x.sent.filter (fun k => !done k)
    let rtt := (x.sent.find? (fun k => k.txseq == echo)).map (fun k => s.time - k.sentAt)
    let lim := max (x.cum + x.held) (next.toNat + rwin)
    let v := s.freeVal % 2 ^ 32
    let s := s.updFlow f (fun x => ({ x with
      cum := c, held := lim - c, sent := rest, advance := if acked.isEmpty then x.advance else s.time,
      srtt := if rtt.isSome then v else x.srtt }.congest s.time acked.length ece rtt))
    let s := if rtt.isSome then s.useFree else s
    let last := acked.foldl (fun m k => max m k.sentAt) 0
    let s := (rest.filter (fun k => k.sentAt + 8000 ≤ last && k.refused.isNone && k.again.isNone)).foldl (fun s k => s.resend f k.psn true) s
    s.fabGo

/-- A packet without a PSN: rows 1 to 4, the common rules, and `go`. -/
def State.rxCtl (s : State) (eport kind : Nat) (p : RxPacket) (go : State → State) : State :=
  if bits (s.reg (fabPort eport + 4)) 7 0 = 0 then s
  else
    let r := s.rxFront eport kind p
    if !r.2 then r.1
    else if p.reserved || p.psn != 0 then r.1.rxRefuse p p.psn 1 true
    else if !p.lenOk || !p.data.isEmpty then r.1.rxRefuse p p.psn 2 true
    else go r.1

/-- What a received ACK does once what it moves is admitted and the host has released what it writes. -/
def State.doAck (s : State) (eport : Nat) (p : RxPacket) : State :=
  s.rxCtl eport 6 p (fun s => s.rxAck p.flow (pf p 0) (pf p 1) (pf p 2) (pf p 3) (bit p.flags 0))

/-- A received ACK packet: CUM_PSN, RWIN, SACK, ECHO. -/
def execAck (eport : Nat) (p : RxPacket) (s : State) : Host.Outcome State Fault Refusal :=
  runMem (Instr.wf (.ack eport p)) p.ecc s (fun s => s.doAck eport p)

/-- What a received NAK does once what it moves is admitted and the host has released what it writes. -/
def State.doNak (s : State) (eport : Nat) (p : RxPacket) : State :=
  s.rxCtl eport 7 p (fun s =>
    let reason := pf p 1
    if reason = 0 || 10 < reason then s.rxRefuse p p.psn 1 true
    else match (s.flow p.flow).sent.find? (fun k => k.psn % 2 ^ 32 == pf p 0) with
      | none => s
      | some k =>
        if reason = 9 then
          s.updFlow p.flow (fun x => { x with sent := x.sent.map (fun z => if z.psn = k.psn then { z with refused := some s.time } else z) })
        else match s.fab.ops.find? (fun o => o.id == k.op) with
          | none => s
          | some o => (s.opFails o 3 7).fabGo)

/-- A received NAK packet: BAD_PSN, REASON, ECHO. NOT_READY sends the packet again later; any other fails its operation (R418). -/
def execNak (eport : Nat) (p : RxPacket) (s : State) : Host.Outcome State Fault Refusal :=
  runMem (Instr.wf (.nak eport p)) p.ecc s (fun s => s.doNak eport p)

end Sys2Proof.Machine
end

