-- ==== Sys2Proof/Machine/Integrity.lean ====
section
/-!
DEFINITION. Memory integrity (13): recovery from a replica, patrol scrub, row sparing and page retirement.
-/
namespace Sys2Proof.Machine

/-! ## Page retirement (R290, R292) -/

/-- The page that holds physical address `a` retired: into the list while it has room. A Saffron slot on it is lost first, while its header
can still be written (R256, log entry 199). -/
def State.retirePage (s : State) (a : Nat) : State :=
  if s.pageRetired a then s
  else
    let s := s.slotLost a
    let d := dieOfPhys a
    let page := a / 4096 * 4096
    let seg := s.segAt a
    let part := seg.map (fun r => r.part 0)
    let src : Src := ⟨4, 64 + d⟩
    let room := decide (s.memc.pages.length < 16384)
    let before := s
    let ser := if tierOf a = 2 then Tbl.set 0 s.memc.pageSer (a / 4096) (Tbl.get 0 s.memc.modSer (chanOfT2 a)) else s.memc.pageSer
    let s := if room then { s with memc := { s.memc with pages := s.memc.pages ++ [a / 4096], pageSer := ser } }
             else { s with memc := { s.memc with lostPages := s.memc.lostPages ++ [a / 4096] } }
    let s := (s.bump (eccBase d + 0x2C) 32 1).setReg 0x109000 s.memc.pages.length
    let s := s.blot { cls := 0x0404, part := part, src := src, addr := page,
                      detail := [((seg.map (fun r => r.f 4 2)).getD 0xFF, 1), (tierOf a, 1)] } (ringsGP part)
    if room then s.measChanged before else s.blot { cls := 0x0405, src := src, addr := page } [ringG]

/-- The pages of the failing sectors of a row retired. -/
def State.retireRow (s : State) (sectors : List Nat) : State := sectors.foldl (fun s a => s.retirePage a) s

/-! ## Failing rows (R289, R291) -/

/-- Distinct sectors of a row with a corrected error in the last 24 h. -/
def State.recentCorrected (s : State) (sectors : List Nat) : List Nat :=
  (sectors.eraseDups).filter (fun a => s.memc.corrected.any (fun e => e.1 == a && decide (s.time < e.2 + dayNs)))

/-- The sectors that make a row fail: those poisoned since the row was last remapped, or three or more with corrected errors. -/
def State.failingSectors (s : State) (sectors : List Nat) : List Nat :=
  let p := (sectors.eraseDups).filter (fun a => s.memc.failing.contains a)
  let c := s.recentCorrected sectors
  if 3 ≤ c.length then (p ++ c).eraseDups else p

/-- The row's errors are dealt with. -/
def State.rowSpared (s : State) (sectors : List Nat) : State :=
  { s with memc := { s.memc with failing := s.memc.failing.filter (fun a => !sectors.contains a),
                                 corrected := s.memc.corrected.filter (fun e => !sectors.contains e.1) } }

/-- The next spare of a stack bank taken for a row: USED counts it, and EXHAUSTED a bank whose last it was; each saturates (R13). -/
def State.useSpare (s : State) (die key row : Nat) : State :=
  let used := Tbl.get 0 s.memc.spares key
  let n := s.reg (eccBase die + 0x24)
  let s := s.setReg (eccBase die + 0x24) (satAdd 16 (bits n 31 16) (b2n (used == 1)) * 65536 + satAdd 16 (bits n 15 0) 1)
  { s with memc := { s.memc with spares := Tbl.set 0 s.memc.spares key (used + 1), remaps := s.memc.remaps ++ [(key, row, used)] } }

/-- A row of a DDR channel's module repaired, and recorded for hard repair at the next start (R291). -/
def State.usePpr (s : State) (die chan bank row : Nat) : State :=
  let s := s.bump (eccBase die + 0x28) 32 1
  { s with memc := { s.memc with ppr := Tbl.upd 0 s.memc.ppr chan (· + 1), hppr := s.memc.hppr ++ [(chan, bank, row)] } }

/-- The sectors that a command names lie in the row it names (log entry 33); those of a DDR row lie in one channel. -/
def State.inRow (s : State) (die : Nat) (ddr : Bool) (dbank row : Nat) (sectors : List Nat) : Bool :=
  sectors.all (fun a => a % 64 == 0 && tierOf a == (if ddr then 2 else 1) && dieOfPhys a == die && (s.phys a).isSome
    && (Config.rowOf a).1 == dbank && (Config.rowOf a).2 == row && (!ddr || chanOfT2 a == chanOfT2 (sectors.headD 0)))

/-- ROW_SPARE_REMAP: a failing row is directed to the bank's next spare once every sector is copied, or repaired in its module,
or its failing pages are retired. The sectors of the row are the command's (log entry 33). -/
def execRowSpareRemap (die : Nat) (ddr : Bool) (dbank row : Nat) (sectors : List Nat) (repair : Bool) (s : State) :
    Host.Outcome State Fault Refusal :=
  run (Instr.wf (.rowSpareRemap die ddr dbank row sectors repair)) s (fun s =>
    let fs := s.failingSectors sectors
    let key := die * 65536 + dbank % 65536
    if !s.inRow die ddr dbank row sectors || fs.isEmpty then s
    else if (if ddr then repair else decide (Tbl.get 0 s.memc.spares key < 2)) then
      (if ddr then s.usePpr die (chanOfT2 (sectors.headD 0)) dbank row else s.useSpare die key row).rowSpared sectors
    else (s.retireRow fs).rowSpared sectors)

/-! ## Replicas (R286, R287) -/

/-- The fills that wait for the recovery of the sector at `a`: cluster and entry. -/
def State.healing (s : State) (a : Nat) : List (Nat × Fill) :=
  (upto 32).filterMap (fun cl => ((s.cache cl).fills.find? (fun f => f.line == a / 128 && f.heal)).map (fun f => (cl, f)))

/-- Those fills are over, unless the line's other sector is still under recovery. -/
def State.closeHeals (s : State) (a : Nat) (bad : Bool) : State :=
  let other := if a % 128 = 0 then a + 64 else a - 64
  (s.healing a).foldl (fun s x => if (s.sector other).recover then s.fillHeals x.1 x.2 [other] bad else s.fillOver x.1 x.2 bad) s

/-- The replica sector from which the sector at `a` is recovered: as the first reader's partition has it, or any (R286, R288). -/
def State.healFrom (s : State) (a : Nat) : Option (Nat × Rec) :=
  let part := ((s.sector a).joined.head?).bind (fun k => if k.2.2 = 0 then none else (s.cmd (k.2.2 - 1)).part)
  (match part with | some p => s.replicaOf (some p) a | none => none).or (s.replicaOf none a)

/-- The replica's sector at physical address `y` read: it fails where it is poisoned or retired, and where its check does (`ok` false),
which poisons or counts it as any read does (R284, R285). -/
def State.readReplica (s : State) (y : Nat) (ok : Bool) : State × Bool :=
  if s.pageRetired y || (s.sector y).poison then (s, false)
  else if ok then (s, true)
  else if tierOf y = 1 && (s.sector y).crc then (s.bump (eccBase (dieOfPhys y) + 0xC) 32 1, false)
  else (s.poison y, false)

/-- REPLICA_READ_COMPLETE: the sector at `addr` is rewritten from its replica and its readers have the data, or it stays poisoned and they
fail. In a retired page the data is delivered and not written back (R290). -/
def execReplicaReadComplete (addr : Nat) (ok : Bool) (stallNs : Nat) (s : State) : Host.Outcome State Fault Refusal :=
  run (Instr.wf (.replicaReadComplete addr ok stallNs)) s (fun s =>
    let a := addr / 64 * 64
    let d := dieOfPhys a
    let part := (s.segAt a).map (fun r => r.part 0)
    let src : Src := ⟨4, d⟩
    if !(s.sector a).recover then s
    else match s.healFrom a with
      | none => s.updSector a (fun x => { x with recover := false, joined := [] })
      | some r =>
        let z := s.readReplica ((s.phys r.1).getD 0) ok
        if z.2 then
          let s := (z.1.healing a).foldl (fun s x => s.serveReaders (s.waitersOf x.2 a) .ok) z.1
          let keys := (s.sector a).joined.filter (fun k => k.1 != 2)
          let s := s.updSector a (fun x => { x with recover := false, joined := [] })
          let s := if s.pageRetired a then s.updSector a (fun x => { x with served := x.served ++ keys }) else (s.commit a (s.readDP r.1 64)).1
          let s := s.bump (eccBase d + 0x20) 32 1
          let s := s.blot { cls := 0x0402, part := part, src := src, addr := a,
                            detail := [(r.2.f 2 2, 1), (r.2.f 4 2, 1), (stallNs, 8)] } (ringsGP part)
          s.closeHeals a false
        else
          let fs := z.1.healing a
          let lost := (fs.map (fun x => z.1.lostLaunches x.2 a (.fail 2 (a / 64 % 65536)))).flatten
          let s := z.1.updSector a (fun x => { x with recover := false, lost := true, joined := [] })
          let s := (s.lineLost a 2 none src).closeHeals a true
          (s.endReaders src lost).slotLost a)

/-! ## Scrub (R288) -/

/-- The last sector of the memory of die `d` that its nib patrols. -/
def State.lastSector (s : State) (d : Nat) : Nat :=
  if s.t2Size d = 0 then (d + 1) * sliceSize - 64 else 0x10000000000 + d * 0x8000000000 + s.t2Size d - 64

/-- SCRUB_PATROL: the nib reads one sector of its die; it skips retired pages and poisoned sectors. A pass ends with the die's
last sector (log entry 34). -/
def execScrubPatrol (die addr : Nat) (res : MemRes) (s : State) : Host.Outcome State Fault Refusal :=
  run (Instr.wf (.scrubPatrol die addr res)) s (fun s =>
    let a := addr / 64 * 64
    if !bit (s.reg (eccBase die + 0x38)) 0 || dieOfPhys a != die || tierOf a == 3 || (s.phys a).isNone then s
    else
      let s := if a = s.lastSector die then s.bump (eccBase die + 0x3C) 32 1 else s
      if s.pageRetired a || (s.sector a).poison then s
      else
        let o := (s.setMed [(a, res)]).readSector a none none ⟨4, 64 + die⟩
        match o.2 with
        | .fail _ _ => (o.1.setMed []).slotLost a
        | _ => o.1.setMed [])

end Sys2Proof.Machine
end

