-- ==== Sys2Proof/Machine/Xlat.lean ====
section
/-!
DEFINITION. Answers from the host's translation agent (15): translations, invalidations, flushes, page requests.
-/
namespace Sys2Proof.Machine

/-! ## Requests by page -/

/-- The requests of the channels of every die in `ds` that satisfy `p`, as (tile, channel, request). -/
def State.reqsOn (s : State) (ds : List Nat) (p : Nat → Nat → Req → Bool) : List (Nat × Nat × Req) :=
  (((upto 128).filter (fun t => ds.contains (dieOfTile t) && (s.tile t).task.isSome)).map (fun t =>
    ((upto 16).map (fun c => ((s.chan t c).reqs.filter (p t c)).map (fun r => (t, c, r)))).flatten)).flatten

/-- The dies a port serves. -/
def State.diesOf (s : State) (port : Nat) : List Nat := (upto 8).filter (fun d => s.diePort d == some port)

/-- Request `r` of tile `t` is for page `page` of PASID `pasid`. -/
def State.reqPage (s : State) (t : Nat) (r : Req) (pasid : Option Nat) (page : Nat) : Bool :=
  addrClass r.addr == 1 && hvAddr r.addr / 4096 == page && pasid == some (s.tileCtx t).pasid

/-- The same request as it now stands, if it is still there in state `st`. -/
def State.still (s : State) (w : Nat × Nat × Req) (st : ReqSt) : Option Req :=
  (s.chan w.1 w.2.1).reqs.find? (fun r => r.tok == w.2.2.tok && r.st == st)

/-- Requests of `ws` still in state `st` handled one after another. -/
def State.eachStill (s : State) (ws : List (Nat × Nat × Req)) (st : ReqSt) (f : State → Nat → Nat → Req → State) : State :=
  ws.foldl (fun s w => match s.still w st with | some r => f s w.1 w.2.1 r | none => s) s

/-- The page size under which a translation of `size` bytes is held (R330). -/
def heldSize (size : Nat) : Nat :=
  if size < 65536 then 4096 else if size < 2097152 then 65536 else if size < 1073741824 then 2097152 else 1073741824

/-- An answer to `q` was overtaken: an invalidation or a flush covers its page, the one that would be cached (R335). -/
def XReq.overtaken (q : XReq) (page : Nat) (ans : XAns) : Bool :=
  let n := heldSize ans.size / 4096
  let first := page - page % n
  q.stale || (!ans.error && (ans.rd || ans.wr) && q.under.any (fun u => decide (first < u.1 + (u.2 + 4095) / 4096) && decide (u.1 < first + n)))

/-! ## Translation Completions (R330, R331, R335, R338) -/

/-- ATS_TRANSLATION_COMPLETION: of the page's outstanding request. -/
def execAtsTranslationCompletion (die page : Nat) (pasid : Option Nat) (ans : XAns) (s : State) : Host.Outcome State Fault Refusal :=
  run (Instr.wf (.atsTranslationCompletion die page pasid ans)) s (fun s =>
    match pasid with
    | none =>
      -- the domain without a PASID: whether the page may be written (R329, log entry 12)
      let rest := s.xlat.absent.filter (· != page)
      { s with xlat := { s.xlat with absent := if ans.error || !ans.wr then page :: rest else rest } }
    | some _ =>
      match s.xlat.reqs.find? (fun r => r.die == die && r.page == page && r.pasid == pasid && !r.held) with
      | none => s
      | some q =>
        let drop (s : State) : State := { s with xlat := { s.xlat with reqs := s.xlat.reqs.filter (· != q) } }
        let ws := s.reqsOn [die] (fun t _ r => r.st == .xlat && s.reqPage t r pasid page)
        if q.overtaken page ans then
          if s.xpaused q.port pasid page then
            { s with xlat := { s.xlat with reqs := s.xlat.reqs.map (fun r => if r = q then { r with held := true } else r) } }
          else (drop s).xrequest die q.port pasid page q.prefetch
        else if ans.error || (!ans.rd && !ans.wr) then
          if q.prefetch then (drop s).pumpDies [die]
          else if ans.error then ((drop s).eachStill ws .xlat (fun s t c r => s.chanFault t c r 6 false false)).pumpDies [die]
          else ((drop s).eachStill ws .xlat (fun s t c r => s.absent t c r q.port pasid false)).pumpDies [die]
        else
          let n := heldSize ans.size
          let o := page % (n / 4096)
          let e : XEnt := { port := q.port, pasid := pasid, global := ans.global, vpage := page - o, size := n, ppage := ans.ppage - o,
                            rd := ans.rd, wr := ans.wr, untrans := ans.untrans }
          (((drop s).xput die e).eachStill ws .xlat (fun s t c r => s.issue t c r)).pumpDies [die])

/-! ## Invalidation and flush (R334-R337) -/

/-- Entries that satisfy `m` removed from the caches of dies `ds` and counted; outstanding requests changed by `q`;
translated requests that satisfy `u` and were not sent are returned to be translated again. -/
def State.invalidate (s : State) (ds : List Nat) (m : XEnt → Bool) (q : XReq → XReq) (u : Nat → Req → Bool) : State :=
  let s := ds.foldl (fun s d =>
    let n := ((s.xcache d).filter m).length
    (s.updXcache d (fun l => l.filter (fun e => !m e))).bump (xlatBase d + 0x18) 32 n) s
  let s := { s with xlat := { s.xlat with reqs := s.xlat.reqs.map q } }
  (s.reqsOn ds (fun t _ r => r.st == .bucket && r.port.isSome && u t r)).foldl (fun s w =>
    let s := { s with memc := { s.memc with buckets := s.memc.buckets.map (fun (e : Nat × Bucket) =>
      (e.1, { e.2 with waits := e.2.waits.filter (fun x => x.tgt != Adm.req w.1 w.2.1 w.2.2.tok) })) } }
    s.setReq w.1 w.2.1 w.2.2.tok (fun r => r.move s .xlat)) s

/-- Requests already sent under a translation that satisfies `u`. -/
def State.sentUnder (s : State) (ds : List Nat) (u : Nat → Req → Bool) : Bool :=
  !(s.reqsOn ds (fun t _ r => (r.st == .sent || r.st == .go) && r.port.isSome && u t r)).isEmpty

/-- Translation Requests held until now issued again, and the paused sources resume. -/
def State.resume (s : State) : State :=
  let hs := s.xlat.reqs.filter (fun r => r.held && !s.xpaused r.port r.pasid r.page)
  let s := { s with xlat := { s.xlat with reqs := s.xlat.reqs.filter (fun r => !hs.contains r) } }
  (hs.foldl (fun s r => s.xrequest r.die r.port r.pasid r.page r.prefetch) s).pumpAll

/-- Pages overlap: entry `e` and an invalidation. -/
def InvReq.hits (i : InvReq) (page size : Nat) : Bool :=
  decide (page < i.page + (i.size + 4095) / 4096) && decide (i.page < page + (size + 4095) / 4096)

/-- A channel's request lies under an invalidation. -/
def State.underInv (s : State) (i : InvReq) (t : Nat) (r : Req) : Bool :=
  r.port == some i.port && (i.pasid.isNone || i.pasid == some (s.tileCtx t).pasid) && i.hits (hvAddr r.addr / 4096) 4096

/-- ATS_INVALIDATION_REQUEST: up to 32 outstanding a port (R328, R334, R335). -/
def execAtsInvalidationRequest (port tag : Nat) (pasid : Option Nat) (page size : Nat) (s : State) : Host.Outcome State Fault Refusal :=
  run (Instr.wf (.atsInvalidationRequest port tag pasid page size)) s (fun s =>
    if 32 ≤ (s.xlat.invs.filter (fun i => i.port == port)).length then s
    else
      let i := InvReq.mk port tag pasid page size s.time
      let s := s.bump (0x310400 + 0x40 * port) 64 1
      let s := { s with xlat := { s.xlat with invs := s.xlat.invs ++ [i] } }
      s.invalidate (s.diesOf port)
        (fun e => e.port == port && (pasid.isNone || e.global || e.pasid == pasid) && i.hits e.vpage e.size)
        (fun r => if r.port == port && (pasid.isNone || r.pasid == pasid) then
            { r with stale := r.stale || i.hits r.page 4096, under := r.under ++ [(page, size)] } else r)
        (fun t r => s.underInv i t r))

/-- INVALIDATION_COMPLETION_SEND: the oldest invalidation of a port completes once nothing sent under it is left (R334). -/
def execInvalidationCompletionSend (port : Nat) (s : State) : Host.Outcome State Fault Refusal :=
  run (Instr.wf (.invalidationCompletionSend port)) s (fun s =>
    match s.xlat.invs.find? (fun i => i.port == port) with
    | none => s
    | some i =>
      if s.sentUnder (s.diesOf port) (s.underInv i) then s
      else
        let s := { s with xlat := { s.xlat with invs := s.xlat.invs.erase i } }
        let s := (s.diesOf port).foldl (fun s d => s.maxReg (xlatBase d + 0x1C) 32 (s.time - i.start)) s
        (s.emit (.invComplete port i.tag)).resume)

/-- A write of XLAT_FLUSH: refused while a flush is in progress (R337). -/
def State.flushWrite (s : State) (port value : Nat) : State :=
  let p : Option Nat := if bit value 20 then none else some (bits value 19 0)
  if s.xlat.flush.isSome then s.barError port 0x310008 8 value
  else
    let s := { s with xlat := { s.xlat with flush := some p } }
    s.invalidate (upto 8) (fun e => p.isNone || e.global || e.pasid == p) (fun r => if p.isNone || r.pasid == p then { r with stale := true } else r)
      (fun t _ => p.isNone || p == some (s.tileCtx t).pasid)

/-- XLAT_FLUSH: one 64-bit write of the register (R12, R337). -/
def execXlatFlush (port value : Nat) (s : State) : Host.Outcome State Fault Refusal :=
  run (Instr.wf (.xlatFlush port value)) s (fun s =>
    if s.regsOpen then (s.whole64 port 0x310008).flushWrite port value else s)

/-- XLAT_FLUSH_COMPLETE: once nothing sent under a flushed translation is left. -/
def execXlatFlushComplete (s : State) : Host.Outcome State Fault Refusal :=
  run (Instr.wf .xlatFlushComplete) s (fun s =>
    match s.xlat.flush with
    | none => s
    | some p =>
      if s.sentUnder (upto 8) (fun t _ => p.isNone || p == some (s.tileCtx t).pasid) then s
      else { s with xlat := { s.xlat with flush := none } }.resume)

/-! ## Page requests (R338, R339) -/

/-- Requests that wait for a page-request credit asked again. -/
def State.wakeCredits (s : State) : State :=
  ((s.reqsOn (upto 8) (fun _ _ r => r.st == .credit)).foldl (fun s w => s.setReq w.1 w.2.1 w.2.2.tok (fun r => r.move s .xlat)) s).pumpAll

/-- An outstanding page request ends: `f` handles each request that waits for it. -/
def State.endPage (s : State) (q : PReq) (f : State → Nat → Nat → Req → State) : State :=
  let ws := s.reqsOn [q.die] (fun t _ r => r.st == .page && s.reqPage t r q.pasid q.page)
  ({ s with xlat := { s.xlat with prs := s.xlat.prs.filter (· != q) } }.eachStill ws .page f).wakeCredits

/-- PRG_RESPONSE: Success (0), Invalid Request (1) or Response Failure (15). -/
def execPrgResponse (port page : Nat) (pasid : Option Nat) (code : Nat) (s : State) : Host.Outcome State Fault Refusal :=
  run (Instr.wf (.prgResponse port page pasid code)) s (fun s =>
    match s.xlat.prs.find? (fun q => q.port == port && q.page == page && q.pasid == pasid) with
    | none => s
    | some q =>
      if code = 0 then
        let s := s.updXcache q.die (fun l => l.filter (fun e => !e.hit port pasid page))
        s.endPage q (fun s t c r => s.setReq t c r.tok (fun r => { r.move s .xlat with after := true }))
      else
        let s := s.bump (0x31040C + 0x40 * port) 32 1
        let s := if code = 15 then { s with xlat := { s.xlat with pri := updAt s.xlat.pri port (fun _ => false) } } else s
        s.endPage q (fun s t c r => s.chanFault t c r 3 true false))

/-- PRG_TIMEOUT: no response within 10 ms. -/
def execPrgTimeout (port page : Nat) (pasid : Option Nat) (s : State) : Host.Outcome State Fault Refusal :=
  run (Instr.wf (.prgTimeout port page pasid)) s (fun s =>
    match s.xlat.prs.find? (fun q => q.port == port && q.page == page && q.pasid == pasid) with
    | none => s
    | some q => s.endPage q (fun s t c r => s.chanFault t c r 4 true false))

/-- ATS_PRI_ENABLE: the host enables ATS, PASID and PRI on the function of a port (R328, R339). -/
def execAtsPriEnable (port : Nat) (ats pasid pri : Bool) (s : State) : Host.Outcome State Fault Refusal :=
  run (Instr.wf (.atsPriEnable port ats pasid pri)) s (fun s =>
    { s with xlat := { s.xlat with ats := updAt s.xlat.ats port (fun _ => ats), pasidEn := updAt s.xlat.pasidEn port (fun _ => pasid),
                                   pri := updAt s.xlat.pri port (fun _ => pri) } }.wakeCredits)

end Sys2Proof.Machine
end

