-- ==== Sys2Proof/Machine/HostLink.lean ====
section
/-!
DEFINITION. The host link (14): ports coming up and going down, host accesses to device memory, back-invalidation, snoops, write
completions, bias flips, and the reference clock (R43).
-/
namespace Sys2Proof.Machine

/-! ## Writes that the host completes or loses (R304, R312, R315) -/

/-- A write of command `cid` failed (R273, R315): its status is set unless it has one, and its fence waits for nothing more. -/
def State.writeFails (s : State) (cid : Nat) : State :=
  let c := s.cmd cid
  if c.st == .none || c.st == .fenced then s
  else if c.st == .fencing then
    let ok := match c.cause with | some k => k.1 == 0 | none => true
    let s := if ok then s.updCmd cid (fun c => { c with cause := some (3, 5), replay := false }) else s
    let go := (s.host.goWait.map (fun w => { w with cids := w.cids.filter (· != cid) })).filter (fun w => !w.cids.isEmpty || w.src.isSome)
    { s with host := { s.host with goWait := go, biWait := s.host.biWait.map (fun w => if w.cid = some cid then { w with cid := none } else w) } }
  else s.endCmd cid 3 5 [] false

/-- A write of command `cid` failed while its bytes were in a cache (R282): DATA_ERROR with DETAIL 4. -/
def State.lineFails (s : State) (cid : Nat) : State :=
  let c := s.cmd cid
  if c.st == .fencing then
    let ok := match c.cause with | some k => k.1 == 0 | none => true
    if ok then s.updCmd cid (fun c => { c with cause := some (3, 4), replay := false }) else s
  else s.endCmd cid 3 4 [] false

/-- A write to host memory that fails with a cause of R273: TIER_ACCESS_FAILED, and its commands fail. -/
def State.hostWriteLost (s : State) (d port addr : Nat) (cids : List Nat) (cause : Nat) : State :=
  cids.foldl (fun s cid =>
    let s := s.bump (0x320008 + 0x100 * port) 32 1
    let part := (s.cmd cid).part
    let s := s.blot { cls := 0x0406, part := part, cmd := some (cmdName cid), src := ⟨5, d⟩, addr := addr,
                      detail := [(4, 1), (port, 1), (cause, 1), (1, 1)] } (ringsGP part)
    s.writeFails cid) s

/-- A write to a host-bias page that fails with a cause of R273: so does its command, if it has one. -/
def State.biasLost (s : State) (w : BiWait) (cause : Nat) : State :=
  let part := w.cid.bind (fun c => (s.cmd c).part)
  let s := s.tierFailed w.addr cause true part w.cid ⟨5, dieOfPhys w.addr⟩
  match w.cid with | some c => s.writeFails c | none => s

/-- The request at the head of channel `c` of tile `t`, where it waits in state `st` for command `cid`. -/
def State.headIn (s : State) (t c : Nat) (st : ReqSt) (cid : Option Nat) : Option Req :=
  match (s.chan t c).reqs.head? with
  | some r => if r.st == st && s.tileCmd t == cid then some r else none
  | none => none

/-- A channel's write that waited for the host is committed (R304, R305): its request completes, or fails. -/
def State.biDone (s : State) (w : BiWait) : State :=
  let o := s.commit w.addr w.data
  let s := o.1.invalidateOthers 32 w.addr
  match w.src.bind (fun x => (s.headIn x.1 x.2 .bi w.cid).map (fun r => (x, r))) with
  | some (x, r) => if o.2 then s.reqDone x.1 x.2 else s.reqFailed x.1 r (s.writeCause w.addr)
  | none =>
    if o.2 then s
    else
      let part := w.cid.bind (fun c => (s.cmd c).part)
      let s := s.tierFailed w.addr (s.writeCause w.addr) true part w.cid ⟨4, dieOfPhys w.addr⟩
      match w.cid with | some c => s.writeFails c | none => s

/-- Writes with data that wait for nothing more committed, in order. -/
def State.biFlush (s : State) : State :=
  let done (w : BiWait) : Bool := w.snoops.isEmpty && w.go.isNone && !w.data.isEmpty
  let ready := s.host.biWait.filter done
  let s := { s with host := { s.host with biWait := s.host.biWait.filter (fun w => !done w) } }
  ready.foldl (fun s w => s.biDone w) s

/-- The first of a list changed where `p` holds. -/
def changeFirst {α : Type} (p : α → Bool) (f : α → α) : List α → List α
  | [] => []
  | x :: xs => if p x then f x :: xs else x :: changeFirst p f xs

/-- BIRSP_RECEIVE: the host answers a BISnpInv (R304). -/
def execBirspReceive (port addr : Nat) (s : State) : Host.Outcome State Fault Refusal :=
  run (Instr.wf (.birspReceive port addr)) s (fun s =>
    let last (w : BiWait) : Bool := w.data.isEmpty && w.snoops == [(port, addr)]
    let at' (w : BiWait) : Bool := w.snoops.contains (port, addr)
    let l := match s.host.biWait.find? at' with
      -- a shared unit that waits for it may write now
      | some w => if last w then s.host.biWait.erase w
                  else changeFirst at' (fun w => { w with snoops := w.snoops.erase (port, addr) }) s.host.biWait
      | none => s.host.biWait
    { s with host := { s.host with biWait := l } }.biFlush)

/-- SRAM_UNCORRECTABLE for a Modified line of the host-line cache of die `d`, whose bytes could not be read (R282): it names the word, and
every command whose writes it holds fails with DATA_ERROR. -/
def State.hostSram (s : State) (d word : Nat) (cids : List Nat) : State :=
  cids.foldl (fun s cid => if s.hasCmd cid then (s.blotCmd cid 0x0303 ⟨5, d⟩ 0 [(3, 1), (word, 4)] true).lineFails cid else s) s

/-- HOST_WRITE_GO: the host answers a write of the LN7 with GO, or a write to a host-bias page; in mode PCIE, the read that follows a
write has completed (R312). -/
def execHostWriteGo (die port addr : Nat) (s : State) : Host.Outcome State Fault Refusal :=
  run (Instr.wf (.hostWriteGo die port addr)) s (fun s =>
    match s.host.goWait.find? (fun w => w.die == die && w.port == port && w.addr == addr && w.out.isNone) with
    | some w =>
      let s := { s with host := { s.host with goWait := s.host.goWait.erase w } }
      let s := match w.bad with | some k => s.hostSram die k w.cids | none => s
      (match w.src with
       | some (t, c) => if (s.headIn t c .go w.cids.head?).isSome then s.reqDone t c else s
       | none => s)
    | none =>
      let l := changeFirst (fun (w : BiWait) => w.go == some (die, port) && w.addr == addr) (fun w => { w with go := none }) s.host.biWait
      -- the GO of a shared unit whose command has ended is given up
      { s with host := { s.host with biWait := l.filter (fun w => !(w.token w.addr && w.cid.isNone)) } }.biFlush)

/-! ## Ports (R24, R299-R301, R336) -/

/-- Base of the registers of port `p`. -/
def hostPort (p : Nat) : Nat := 0x320000 + 0x100 * p

/-- The dies whose own port is `p`. -/
def nativeDies (p : Nat) : List Nat := (upto 8).filter (fun d => d / 4 == p)

/-- Die `d` takes port `p`, or none. -/
def State.setVia (s : State) (d : Nat) (p : Option Nat) : State := { s with host := { s.host with via := updAt s.host.via d (fun _ => p) } }

/-- HOST_LINK_UP written once every die of the port is back on it (R301). -/
def State.linkUpBlot (s : State) (p : Nat) : State :=
  if (nativeDies p).all (fun d => s.diePort d == some p) then
    s.blot { cls := 0x0502, src := ⟨6, p⟩, detail := [(p, 1), (s.portMode p, 1)] } [ringG]
  else s

/-- HOST_LINK_UP: a port trains (R299). Dies without a port take it; its own dies on the other port move back later. Both ports report the
one serial number and identity of the device (R25, R300). -/
def execHostLinkUp (port mode speed width : Nat) (s : State) : Host.Outcome State Fault Refusal :=
  run (Instr.wf (.hostLinkUp port mode speed width)) s (fun s =>
    if s.portUp port || !nth s.pins.perst port false || !s.pace.refRun then s
    else
      let st := s.reg (hostPort port)
      let s := s.setReg (hostPort port) (setBits (setBits (setBits (setBit st 0 true) 3 1 mode) 7 4 speed) 13 8 width)
      let s := (upto 8).foldl (fun s d => if (s.diePort d).isNone then s.setVia d (some port) else s) s
      (s.emit (.ident port Config.serial Config.identityKeyId)).linkUpBlot port)

/-- The translations that die `d` obtained through port `p` removed (R336). -/
def State.dropXlat (s : State) (d p : Nat) : State :=
  let s := s.updXcache d (fun l => l.filter (fun e => e.port != p))
  { s with xlat := { s.xlat with reqs := s.xlat.reqs.filter (fun r => !(r.die == d && r.port == p)) } }

/-- Translated requests of die `d` for port `p` that were not sent are translated again. -/
def State.unsend (s : State) (d p : Nat) : State :=
  (s.reqsOn [d] (fun _ _ (r : Req) => r.st == .bucket && r.port == some p)).foldl (fun s w =>
    let s := { s with memc := { s.memc with buckets := s.memc.buckets.map (fun (e : Nat × Bucket) =>
      (e.1, { e.2 with waits := e.2.waits.filter (fun x => x.tgt != Adm.req w.1 w.2.1 w.2.2.tok) })) } }
    s.setReq w.1 w.2.1 w.2.2.tok (fun r => { r.move s .xlat with port := none })) s

/-- Requests to host-bias pages of die `d` that were not sent are issued again: the die reaches the host elsewhere. -/
def State.unsendBias (s : State) (d : Nat) : State :=
  (s.reqsOn (upto 8) (fun _ _ (r : Req) => r.st == .bucket && r.port.isNone && s.inHostBias r.tgt && dieOfPhys r.tgt == d)).foldl (fun s w =>
    let s := s.keepWaits (fun x => x.tgt != Adm.req w.1 w.2.1 w.2.2.tok)
    s.setReq w.1 w.2.1 w.2.2.tok (fun r => r.move s .new)) s

/-- The page requests on a port dropped, and their waiters translated again. -/
def State.dropPages (s : State) (p : Nat) (ds : List Nat) : State :=
  let s := { s with xlat := { s.xlat with prs := s.xlat.prs.filter (fun q => !(q.port == p && ds.contains q.die)) } }
  (s.reqsOn ds (fun _ _ r => r.st == .page || r.st == .credit)).foldl (fun s w => s.setReq w.1 w.2.1 w.2.2.tok (fun r => r.move s .xlat)) s

/-- A request is outstanding on a port: to host memory or a host-bias page through it, or to a T3 window it carries. -/
def State.reqOnPort (s : State) (r : Req) (p : Nat) : Bool :=
  (r.st == .sent || r.st == .go) && (r.port == some p
    || (r.port.isNone && tierOf r.tgt == 3 && windowOf r.tgt % 2 == p && r.write)
    || (r.port.isNone && s.inHostBias r.tgt && s.biasPort r.tgt == p))

/-- A port that is up goes down (R301). -/
def State.linkDown (s : State) (port : Nat) : State :=
  if !s.portUp port then s
  else
    let mode := s.portMode port
    let ds := s.diesOf port
    let st := s.reg (hostPort port)
    let s := (s.setReg (hostPort port) (setBits st 13 0 0)).bump (hostPort port + 4) 32 1
    -- 1: outstanding requests fail
    let s := (s.reqsOn (upto 8) (fun _ _ r => s.reqOnPort r port)).foldl (fun s w =>
      match (s.chan w.1 w.2.1).reqs.find? (fun r => r.tok == w.2.2.tok) with
      | some r => if s.reqOnPort r port && s.tileCmd w.1 != none then s.reqFailed w.1 r 3 else s
      | none => s) s
    let s := (upto 32).foldl (fun s cl =>
      ((s.cache cl).fills.filter (fun f => tierOf (f.line * 128) == 3 && windowOf (f.line * 128) % 2 == port && f.admitted)).foldl
        (fun s f => s.fillArrives cl f.line (.failed 3) (.failed 3)) s) s
    let gos := s.host.goWait.filter (fun w => w.port == port)
    let bis := s.host.biWait.filter (fun w => match w.go with | some g => g.2 == port | none => false)
    let s := { s with host := { s.host with goWait := s.host.goWait.filter (fun w => w.port != port),
                                            biWait := s.host.biWait.filter (fun w => match w.go with | some g => g.2 != port | none => true) } }
    let s := s.keepWaits (fun w => match w.tgt with
      | .evict d a => s.host.goWait.any (fun g => g.die == d && g.addr == a && g.out.isSome)
      | _ => true)
    let s := gos.foldl (fun s w => if w.src.isSome then s else s.hostWriteLost w.die port w.addr w.cids 3) s
    let s := bis.foldl (fun s w =>
      match w.src.bind (fun x => (s.headIn x.1 x.2 .bi w.cid).map (fun r => (x.1, r))) with
      | some (t, r) => s.reqFailed t r 3
      | none => s.biasLost w 3) s
    -- 2: host lines are given up
    let s := ds.foldl (fun s d =>
      let dirty := (s.hlc d).filter (fun l => !l.dirty.isEmpty)
      let s := s.updHlc d (fun _ => [])
      dirty.foldl (fun s l => s.hostWriteLost d port l.addr l.owners 3) s) s
    -- 3: tracking through the port is cleared
    let clean (e : Track) : Track := { e with copies := e.copies.filter (fun c => c.1 != port) }
    let s := { s with host := { s.host with
      track := s.host.track.map (fun (l : List Track) => (l.map clean).filter (fun e => !e.copies.isEmpty)),
      biWait := (s.host.biWait.filter (fun (w : BiWait) => !(w.data.isEmpty && !w.snoops.isEmpty && w.snoops.all (fun c => c.1 == port)))).map
        (fun (w : BiWait) => { w with snoops := w.snoops.filter (fun c => c.1 != port) }) } }
    let s := s.biFlush
    let s := s.blot { cls := 0x0501, src := ⟨6, port⟩, detail := [(port, 1), (mode, 1)] } [ringG]
    -- the port's dies move (R24, R336)
    let other := if s.portUp (1 - port) then some (1 - port) else none
    let s := { s with xlat := { s.xlat with invs := s.xlat.invs.filter (fun i => i.port != port) } }
    let s := ds.foldl (fun s d => (((s.dropXlat d port).unsend d port).unsendBias d).setVia d other) s
    (s.dropPages port ds).resume

/-- HOST_LINK_DOWN (R301). -/
def execHostLinkDown (port : Nat) (s : State) : Host.Outcome State Fault Refusal :=
  run (Instr.wf (.hostLinkDown port)) s (fun s => s.linkDown port)

/-- HOST_PORT_SWITCH: a die moves back to its own port once nothing it sent on the other is in flight; its Modified host lines are
written back first (R24, R301, R336). -/
def execHostPortSwitch (die port : Nat) (s : State) : Host.Outcome State Fault Refusal :=
  run (Instr.wf (.hostPortSwitch die port)) s (fun s =>
    match s.diePort die with
    | none => s
    | some old =>
      if old = port || die / 4 != port || !s.portUp port
          || !(s.reqsOn [die] (fun _ _ r => (r.st == .sent || r.st == .go) && r.port == some old)).isEmpty
          || !(s.reqsOn (upto 8) (fun _ _ r => r.st == .sent && r.port.isNone && s.inHostBias r.tgt && dieOfPhys r.tgt == die)).isEmpty
          || s.host.goWait.any (fun w => w.die == die && w.port == old)
          || s.host.biWait.any (fun w => w.go == some (die, old)) then s
      else
        let dirty := (s.hlc die).filter (fun l => !l.dirty.isEmpty)
        let s := s.updHlc die (fun _ => [])
        if !dirty.isEmpty then dirty.foldl (fun s l => s.dirtyEvict die old l) s
        else
          let s := (((s.dropXlat die old).unsend die old).unsendBias die).setVia die (some port)
          (((s.dropPages old [die]).resume).linkUpBlot port))

/-! ## The reference clock (R43) -/

/-- REFCLK_LOST: TIME goes on from the internal oscillator, and both links fail. -/
def execRefclkLost (s : State) : Host.Outcome State Fault Refusal :=
  run (Instr.wf .refclkLost) s (fun s =>
    if !s.pace.refRun then s
    else
      let s := { s with pace := { s.pace with refRun := false, refLost := true } }
      ((s.blot { cls := 0x0103 } [ringG]).linkDown 0).linkDown 1)

/-- REFCLK_RESUME: the reference runs again; REF_LOST stays set. -/
def execRefclkResume (s : State) : Host.Outcome State Fault Refusal :=
  run (Instr.wf .refclkResume) s (fun s => { s with pace := { s.pace with refRun := true } })

/-! ## HDM decoders (R300, R303) -/

/-- The base a decoder of a port is committed with. -/
def State.hdmBase (s : State) (p dec : Nat) : Option Nat := nth (nth s.host.hdm p []) dec none

/-- HDM_DECODER_COMMIT. -/
def execHdmDecoderCommit (port dec base ways : Nat) (s : State) : Host.Outcome State Fault Refusal :=
  run (Instr.wf (.hdmDecoderCommit port dec base ways)) s (fun s =>
    let m := s.portMode port
    let other := 1 - port
    let clash := (nth s.host.hdm other []).any (·.isSome) && s.portMode other != m
    let ok := ways == 1 && aligned base giB && decide (2 ≤ m) && !clash
    let s := { s with host := { s.host with
      hdm := if ok then updAt s.host.hdm port (fun l => updAt l dec (fun _ => some base)) else s.host.hdm
      hdmErr := updAt s.host.hdmErr port (fun l => updAt l dec (fun _ => !ok)) } }
    if ok then s.setReg (hostPort port) (setBit (s.reg (hostPort port)) (14 + dec) true) else s)

/-- The device address that a host physical address of a port reaches (Table 14.3). -/
def State.hdmAddr (s : State) (p a : Nat) : Option Nat :=
  let hit (dec size dp : Nat) : Option Nat :=
    match s.hdmBase p dec with
    | some b => if b ≤ a && a < b + size then some (dp + (a - b)) else none
    | none => none
  (hit 0 0x10000000000 0).or (hit 1 0x40000000000 0x10000000000)

/-! ## Host accesses (R304-R307) -/

/-- Device memory is served to the host: from STAGE 6 until a shutdown is FLUSHING (R441, R448). -/
def State.memOpen (s : State) : Bool := s.stage == 6 && decide (s.field 0x800014 2 0 < 2)

/-- HOST_ACCESS_ERROR: path 0 CXL.mem, 1 BAR4. None is written while no memory is served (R441, R448). -/
def State.hostError (s : State) (port path a : Nat) (write : Bool) : State :=
  if !s.memOpen then s
  else s.blot { cls := 0x0503, src := ⟨6, port⟩, addr := a, detail := [(port, 1), (path, 1), (b2n write, 1)] } [ringG]

/-- A host read of the sector at physical address `x`: whether the data is marked poisoned (R285, R307). It starts no recovery and waits
for none: it answers what the sector holds. -/
def State.hostReadSector (s : State) (port x : Nat) : State × Bool :=
  if s.pageRetired x || (s.sector x).poison then (s, true)
  else
    let lost (s : State) (cause : Nat) : State := if (s.replicaOf none x).isSome then s else s.lineLost x cause none ⟨6, port⟩
    match s.outcome x with
    | .crc | .uncorrectable =>
      if tierOf x = 1 && (s.sector x).crc then (s.bump (eccBase (dieOfPhys x) + 0xC) 32 1, true) else (lost (s.poison x) 0, true)
    | .failed c =>
      if tierOf x = 1 then (lost (s.poison x) 0, true)
      else (lost (((s.ddrRetries x 8).tierFailed x c false none none ⟨6, port⟩).poison x) 1, true)
    | _ => ((s.readSector x none none ⟨6, port⟩).1, false)

/-- A page in device bias flips to host bias: its lines leave the cluster caches and the hot-row caches (R305). -/
def State.toHostBias (s : State) (x : Nat) : State :=
  let pg := x / 4096
  if s.host.hostBias.contains pg then s
  else
    let s := { s with host := { s.host with hostBias := (s.host.hostBias.filter (· < pg)) ++ pg :: s.host.hostBias.filter (pg < ·) } }
    let s := { s with caches := s.caches.map (fun (e : Nat × Cache) => (e.1, { e.2 with lines := e.2.lines.filter (fun l => l / 32 != pg) })) }
    (upto 8).foldl (fun s d => s.hotDrop d (pg * 4096) 4096) s

/-- The Shared copy of a sector granted to a port under one of its addresses tracked; a full table gives up its least recently used entry
first (R304). -/
def State.track (s : State) (port addr x : Nat) : State :=
  let d := dieOfPhys x
  let sec := x / 64
  let l := nth s.host.track d []
  let old := ((l.find? (fun e => e.sector == sec)).map (·.copies)).getD []
  let rest := l.filter (fun e => e.sector != sec)
  let s := if rest.length < 262144 then s else
    (match rest.getLast? with
     | some v => (s.snoop (v.sector * 64)).bump (hlcBase d + 0x28) 32 1
     | none => s)
  let e : Track := ⟨sec, if old.contains (port, addr) then old else old ++ [(port, addr)]⟩
  { s with host := { s.host with track := updAt s.host.track d (fun l => e :: l.filter (fun e => e.sector != sec)) } }

/-- The physical byte that CXL.mem may reach at a device address (R304). -/
def State.memTarget (s : State) (a : Nat) : Option Nat :=
  match s.phys a with
  | some x => if !s.memOpen || tierOf x = 3 || s.packageByte x then none else some x
  | none => none

/-- HOST_MEM_READ: a CXL.mem read of one line (R304, R305). A read of a line that a device write is back-invalidating waits for it. -/
def execHostMemRead (port addr : Nat) (res : MemRes) (s : State) : Host.Outcome State Fault Refusal :=
  run (Instr.wf (.hostMemRead port addr res)) s (fun s =>
    let la := addr / 64 * 64
    if !s.portUp port || s.portMode port < 2 then s
    else match s.hdmAddr port la with
      | none => s
      | some a =>
        match s.memTarget a with
        | none => (s.emit (.memData port 0 la (List.replicate 64 255) true)).hostError port 0 a false
        | some x =>
          if s.biHeld x then s
          else
            let s := if s.portMode port = 2 then s.toHostBias x else s.track port la x
            let r := (s.setMed [(x, res)]).hostReadSector port x
            (r.1.setMed []).emit (.memData port 0 la (r.1.readMem x 64) r.2))

/-- What a CXL.mem write does; `res` says how the sector it writes turned out. -/
def State.doHostMemWrite (s : State) (port addr : Nat) (data : List Nat) (res : MemRes) : State :=
  if !s.portUp port || s.portMode port < 2 || data.isEmpty || 64 < addr % 64 + data.length then s
  else match s.hdmAddr port addr with
    | none => s
    | some a =>
      match s.memTarget a with
      | none => (s.emit (.memDone port addr)).hostError port 0 a true
      | some x =>
        if s.biHeld x then s
        else
          let s := if s.portMode port = 2 then s.toHostBias x else s
          let w := (s.setMed [(x / 64 * 64, res)]).commit x data
          let s := w.1.invalidateOthers 32 x
          let s := if w.2 then s else s.tierFailed x (s.writeCause x) true none none ⟨6, port⟩
          (s.setMed []).emit (.memDone port addr)

/-- HOST_MEM_WRITE: a CXL.mem write within one line, answered after its commit (R304, R314). -/
def execHostMemWrite (port addr : Nat) (data : List Nat × MemRes) (s : State) : Host.Outcome State Fault Refusal :=
  run (Instr.wf (.hostMemWrite port addr data)) s (fun s => s.doHostMemWrite port addr data.1 data.2)

/-- The device address that an offset of BAR4 reaches, if its window is enabled (R306). -/
def State.barAddr (s : State) (off : Nat) : Option Nat :=
  let v := s.reg (0x322000 + 8 * (off / 2 ^ 34))
  if s.memOpen && off / 2 ^ 34 < 4 && bit v 0 then some (v / 2 ^ 34 * 2 ^ 34 + off % 2 ^ 34) else none

/-- A BAR4 access reaches device memory: mapped, and every byte in a segment with PERM bit [2]. -/
def State.barAllowed (s : State) (a n : Nat) : Bool :=
  (pieces a n).all (fun k =>
    match s.phys k.1, s.phys (k.1 + k.2 - 1) with
    | some x, some _ => (match s.segAt x with | some r => bit (r.f 3 1) 2 | none => false)
    | _, _ => false)

/-- The device address that a refused BAR4 access names: that of its window, enabled or not. -/
def State.barName (s : State) (off : Nat) : Nat := s.reg (0x322000 + 8 * (off / 2 ^ 34)) / 2 ^ 34 * 2 ^ 34 + off % 2 ^ 34

/-- A range that BAR4 reaches holds memory that is not zero yet, or a sector for which a device write waits: the access waits (R68, R304). -/
def State.barWaits (s : State) (a n : Nat) : Bool := (pieces a n).any (fun k => let x := (s.phys k.1).getD 0; s.unzeroed x k.2 || s.biHeld x)

/-- What BAR4_READ does once what it moves is admitted and the host has released what it writes. -/
def State.doBar4Read (s : State) (port off len : Nat) : State :=
  let fail := (s.emit (.memData port 1 off (List.replicate len 255) false)).hostError port 1 (s.barName off) false
  if !s.portUp port || len = 0 then s
  else match s.barAddr off with
    | none => fail
    | some a =>
      if !s.barAllowed a len then fail
      else if s.barWaits a len then s
      else
        let r := (pieces a len).foldl (fun (z : State × List Nat × Bool) k =>
          let x := (z.1.phys k.1).getD 0
          let o := z.1.hostReadSector port (x / 64 * 64)
          (o.1, z.2.1 ++ o.1.readMem x k.2, z.2.2 || o.2)) (s, [], false)
        r.1.emit (.memData port 1 off r.2.1 r.2.2)

/-- BAR4_READ (R306, R307). -/
def execBar4Read (port off len : Nat) (ecc : Sectors) (s : State) : Host.Outcome State Fault Refusal :=
  runMem (Instr.wf (.bar4Read port off len ecc)) ecc s (fun s => s.doBar4Read port off len)

/-- What BAR4_WRITE does once what it moves is admitted and the host has released what it writes. -/
def State.doBar4Write (s : State) (port off : Nat) (data : List Nat) : State :=
  let fail := s.hostError port 1 (s.barName off) true
  if !s.portUp port || data.isEmpty then s
  else match s.barAddr off with
    | none => fail
    | some a =>
      if !s.barAllowed a data.length then fail
      else if (pieces a data.length).any (fun k => s.unzeroed ((s.phys k.1).getD 0) k.2) then s
      else (pieces a data.length).foldl (fun s k =>
        let x := (s.phys k.1).getD 0
        let w := s.devWrite none x ((data.drop (k.1 - a)).take k.2)
        let s := w.1.invalidateOthers 32 x
        if w.2 then s else s.tierFailed x (s.writeCause x) true none none ⟨6, port⟩) s

/-- BAR4_WRITE (R306). -/
def execBar4Write (port off : Nat) (data : List Nat × Sectors) (s : State) : Host.Outcome State Fault Refusal :=
  runMem (Instr.wf (.bar4Write port off data)) data.2 s (fun s => s.doBar4Write port off data.1)

/-! ## Snoops of the host (R310) -/

/-- What a snoop does; `res` says how the line's bits turned out. -/
def State.doHostSnoop (s : State) (port addr kind : Nat) (res : MemRes) : State :=
  let la := addr / 64 * 64
  if !s.portUp port || s.portMode port < 2 then s
  else match (s.diesOf port).find? (fun d => (s.hlc d).any (fun l => l.addr == la)) with
    | none => (s.emit (.snoopAns port la [])).bump (hlcBase (4 * port) + 0x10) 64 1
    | some d =>
      let l := ((s.hlc d).find? (fun l => l.addr == la)).getD ⟨la, [], []⟩
      let z := (s.setMed [(hlcKey la, res)]).hlcSram d la
      let s := z.1.setMed []
      let s := match z.2 with | some w => s.hostSram d w l.owners | none => s
      let s := (s.emit (.snoopAns port la l.dirty)).bump (hlcBase d + 0x10) 64 1
      if kind = 0 then s.updHlc d (fun ls => ls.filter (fun x => x.addr != la))
      else if kind = 1 then s.updHlc d (fun ls => ls.map (fun x => if x.addr = la then ⟨la, [], []⟩ else x))
      else s

/-- HOST_SNOOP: kind 0 SnpInv, 1 SnpData, 2 SnpCur. A Modified line's data goes back with every partial write merged; with the
kind comes how its bits turned out (R282): the commands whose writes it holds fail where they could not be read. -/
def execHostSnoop (port addr : Nat) (kind : Nat × MemRes) (s : State) : Host.Outcome State Fault Refusal :=
  run (Instr.wf (.hostSnoop port addr kind)) s (fun s => s.doHostSnoop port addr kind.1 kind.2)

/-! ## Bias flips (R305, R321) -/

/-- The end of the mapped T1 or T2 region that holds `a`; `a` itself where none does. -/
def State.regionEnd (s : State) (a : Nat) : Nat :=
  if a < 8 * sliceSize then 8 * sliceSize
  else if 0x8000000000 ≤ a && a < 0xE000000000 then 0xE000000000
  else if 0x10000000000 ≤ a && a < 0x50000000000 then
    max a (a / 0x8000000000 * 0x8000000000 + min 0x8000000000 (s.t2Size ((a - 0x10000000000) / 0x8000000000)))
  else a

/-- Every byte of [a, a + n) is mapped in T1 or T2. -/
def State.inMemory (s : State) : Nat → Nat → Nat → Bool
  | 0, _, n => n == 0
  | fuel + 1, a, n => n == 0 || (let e := s.regionEnd a; decide (a < e) && (decide (a + n ≤ e) || s.inMemory fuel e (n - (e - a))))

/-- BIAS_FLIP: a write of HOST_BIAS_FLIP_LEN. -/
def execBiasFlip (port pages : Nat) (s : State) : Host.Outcome State Fault Refusal :=
  run (Instr.wf (.biasFlip port pages)) s (fun s =>
    if !s.regsOpen then s
    else if s.host.flip.isSome || pages = 0 || !(s.portMode 0 == 2 || s.portMode 1 == 2) then s.barError port 0x322048 4 pages
    else
      let a := s.reg 0x322040 / 4096 * 4096
      if s.inMemory 16 a (4096 * pages) then { s with host := { s.host with flip := some (a / 4096, pages) } }
      else s.setField 0x32204C 1 1 1)

/-- The device page numbers by which a physical page can be named (R259). -/
def pageNames (pg : Nat) : List Nat :=
  let x := pg * 4096
  if x < 8 * sliceSize then [pg, (0x8000000000 + (x % sliceSize / 4096 * 8 + x / sliceSize) * 4096) / 4096] else [pg]

/-- BIAS_FLIP_COMPLETE: each line of the pages is taken with RdOwnNoData, and they are in device bias (R305). -/
def execBiasFlipComplete (s : State) : Host.Outcome State Fault Refusal :=
  run (Instr.wf .biasFlipComplete) s (fun s =>
    match s.host.flip with
    | none => s
    | some (first, n) =>
      let mine (pg : Nat) : Bool := (pageNames pg).any (fun k => first ≤ k && k < first + n)
      let ps := s.host.hostBias.filter mine
      let s := ps.foldl (fun s pg => (upto 64).foldl (fun s i => s.emit (.cxlTake (dieOfPhys (pg * 4096)) (pg * 4096 + 64 * i))) s) s
      { s with host := { s.host with flip := none, hostBias := s.host.hostBias.filter (fun pg => !mine pg) } })

/-- HOST_BIAS_FLUSH: completes when no flip is in progress (Table 16.7). -/
def execHostBiasFlush (s : State) : Host.Outcome State Fault Refusal :=
  run (Instr.wf .hostBiasFlush) s (fun s => s.runAdmin 0x44 (fun c s => if s.host.flip.isSome then s else s.adminEnd c true))

end Sys2Proof.Machine
end

