-- ==== Sys2Proof/Machine/Pace.lean ====
section
/-!
DEFINITION. Pace, the guarantee and TIME (02).
-/
namespace Sys2Proof.Machine

/-- Base of the PACE registers of die `d`. -/
def paceBase (d : Nat) : Nat := 0x10100 + 0x40 * d

/-- Ceiling of the grade in Mstep/s (R30). -/
def paceCeiling : Nat := if Config.gradeE then 1300 else 1900

/-- Pace state of die `d`. -/
def State.diePace (s : State) (d : Nat) : DiePace := nth s.pace.dies d DiePace.reset

/-- Pace state of die `d` changed. -/
def State.updPace (s : State) (d : Nat) (f : DiePace → DiePace) : State :=
  { s with pace := { s.pace with dies := (upto 8).map (fun e => if e = d then f (s.diePace d) else s.diePace e) } }

/-- The partitions R34 names for die `d`: owners of a cluster on it, and those with a launch in flight, placed and not yet fenced, using a
unit of it. -/
def State.paceParts (s : State) (d : Nat) : List Nat :=
  s.dieOwners d ++ (s.cids.filter (fun c => (s.cmd c).inFlight && bit (s.cmd c).dies d)).filterMap (fun c => (s.cmd c).part)

/-- The pace policy of partition `p`: 0 ENERGY, 1 TARGET, 2 EFFICIENCY (Table 3.5). -/
def State.policy (s : State) (p : Nat) : Nat := match cfgPart s.folio.active p with | some r => r.f 1 1 | none => 0

/-- The margin in force on die `d` (R472): the largest kept by a unit of the die, or that of the stage being run. -/
def State.margin (s : State) (d : Nat) : Nat :=
  let kept := (s.flt.units.filter (fun e => dieOfUnit (e.1 / 4096) (e.1 % 4096) == d)).foldl
    (fun m e => max m (stageMargin (e.2.kept.getD 0))) 0
  match s.flt.suspects.find? (fun u => dieOfUnit u.kind u.num == d) with
  | some u => max kept (stageMargin u.stage)
  | none => kept

/-- Every partition that owns a cluster on die `d` selects EFFICIENCY and the package permits it (R33). -/
def State.efficient (s : State) (d : Nat) : Bool :=
  !(s.dieOwners d).isEmpty && (s.dieOwners d).all (fun p => s.policy p == 2) && bit ((cfgPackage s.folio.active).f 0 4) 0

/-- The pace goal of the combined policy of die `d`, if it keeps the guarantee (Table 2.3). -/
def State.paceGoal (s : State) (d : Nat) : Option Nat :=
  let own := s.dieOwners d
  let targets := (own.filter (fun p => s.policy p == 1)).filterMap (fun p => (cfgPart s.folio.active p).map (fun r => min (r.f 2 2) paceCeiling))
  if !targets.isEmpty then some (targets.foldl max 0)
  else if own.isEmpty || own.any (fun p => s.policy p == 0) then some 1150
  else none

/-- The conditions of Table 2.2 that fail in a window, bits in row order (R29, R34). -/
def failedConds (m : DieMeas) (meas : Nat) (eff : Bool) : Nat :=
  b2n (decide (m.vcore < 700)) + 2 * b2n (decide (m.tjLo < 0) || decide (420 < m.tjHi)) + 4 * b2n (decide (meas < 1100)) + 8 * b2n eff

/-- Pace limit of die `d`: the grade ceiling and the thermal cap (R30, R294). -/
def State.paceLimit (s : State) (d : Nat) : Nat :=
  match nth s.memc.cap d none with | some c => min c paceCeiling | none => paceCeiling

/-- THERMAL_THROTTLE with the capped pace, and the cap in force (R294). -/
def State.applyCap (s : State) (d meas : Nat) (tstack : Int) : State :=
  let cap := meas * 70 / 100
  let s := { s with memc := { s.memc with cap := updAt s.memc.cap d (fun _ => some cap), capDue := updAt s.memc.capDue d (fun _ => false) } }
  let s := s.setField (paceBase d) 30 30 1
  s.blot { cls := 0x0105, src := ⟨4, 64 + d⟩, detail := [(d, 1), (ofInt 16 tstack, 2), (cap, 2)] } (s.ringsGPd d)

/-- The loss of the guarantee of die `d` in the window that began at `start` (R34, R35). -/
def State.loseGuarantee (s : State) (d conds start meas : Nat) (m : DieMeas) : State :=
  let s := (s.setField 0x10000 d d 0).setField 0x10000 (8 + d) (8 + d) 1
  let s := (s.bump (paceBase d + 8) 32 1).setReg (paceBase d + 0x18) start
  let s := s.updPace d (fun x => { x with lost := true, lostFrom := start })
  s.blot { cls := 0x0101, src := ⟨5, d⟩,
           detail := [(d, 1), (conds, 1), (start, 8), (meas, 2), (m.vcore, 2), (ofInt 16 m.tjHi, 2)] } (ringG :: s.paceParts d)

/-- Die `d` gains the guarantee at the end of the 100th window (R36). -/
def State.gainGuarantee (s : State) (d : Nat) : State :=
  let x := s.diePace d
  let s := s.setField 0x10000 d d 1
  let s := s.updPace d (fun x => { x with ever := true, lost := false })
  if x.lost then
    let len := s.time - x.lostFrom
    (s.bump (paceBase d + 0x10) 64 len).blot { cls := 0x0102, src := ⟨5, d⟩, detail := [(d, 1), (len, 8)] } (ringG :: s.paceParts d)
  else s

/-- The window of die `d` measured and judged (R27, R29, R30, R34, R36). -/
def State.judgeDie (s : State) (start : Nat) (d : Nat) (m : DieMeas) : State :=
  let dt := s.time - start
  let raw := (m.mon.foldl (fun (a : Option Nat) x => match a with | none => some x | some y => some (min x y)) none).getD 0
  let lim := s.paceLimit d
  let meas := min raw lim % 65536
  let now := bit (s.reg (paceBase d)) 29
  let eff := now || (s.diePace d).eff
  let capped := (nth s.memc.cap d none).isSome
  let s := s.setReg (paceBase d)
    (b2n capped * 2 ^ 30 + b2n now * 2 ^ 29 + b2n (decide (lim < raw)) * 2 ^ 28 + m.vcore % 4096 * 65536 + meas)
  let s := s.setReg (paceBase d + 4) (ofInt 10 m.tstack * 65536 + ofInt 10 m.tjHi)
  let conds := failedConds m meas eff
  let x := s.diePace d
  let good := if conds = 0 then min 100 (x.good + 1) else 0
  let s := s.updPace d (fun x => { x with meas := meas, windows := x.windows + 1, good := good, base := x.vcore, eff := now })
  let s := if nth s.memc.capDue d false then s.applyCap d meas m.tstack else s
  let s := if capped then s.bump (eccBase d + 0x48) 64 dt else s
  let s := if nth s.memc.halt d false then s.bump (eccBase d + 0x50) 64 dt else s
  if conds != 0 then (if bit s.inside d then s.loseGuarantee d conds start meas m else s)
  else if !(bit s.inside d) && x.good + 1 ≥ 100 then s.gainGuarantee d
  else s

/-- TIME after one window of 1,000 periods: the rate correction, and a negative offset slewed in (R40, R42). -/
def State.advanceTime (s : State) : State :=
  let slew := min s.pace.slew 500000
  let rate : Int := signed 32 (s.reg 0x10014)
  let total : Int := 1000 * 1000000 + s.pace.frac + rate - slew
  { s with pace := { s.pace with time := timeTop (s.pace.time + (total / 1000000).toNat), frac := total % 1000000, slew := s.pace.slew - slew } }

/-- HOT_N: low while a thermal cap or halt is in force on any die (Table 22.4). -/
def State.hotPin (s : State) : State :=
  let hot := (upto 8).any (fun d => bit (s.reg (paceBase d)) 30 || bit (s.reg (eccBase d + 0x40)) 2)
  if s.pins.hotN == !hot then s else { s with pins := { s.pins with hotN := !hot } }.emit (.pin 0 (!hot))

/-- The launches whose execution overlaps the window take the dies that lacked the guarantee in it (R35). -/
def State.markLost (s : State) (mask : Nat) : State :=
  s.cids.foldl (fun s c =>
    let x := s.cmd c
    if x.executing || (x.st == .fenced && x.firstEver.isSome && x.fenceWin == s.pace.windows) then
      s.setCmd c { x with lost := x.lost ||| mask }
    else s) s

/-- PACE_WINDOW_END: one 1 µs grid window ends (R27, R34-R36, R40). -/
def execPaceWindowEnd (meas : List DieMeas) (s : State) : Host.Outcome State Fault Refusal :=
  run (Instr.wf (.paceWindowEnd meas)) s (fun s =>
    let start := s.pace.winStart
    let before := s.inside
    let s := s.advanceTime
    let s := (meas.zipIdx).foldl (fun s m => s.judgeDie start m.2 m.1) s
    let s := (s.markLost (255 - (before &&& s.inside))).hotPin
    { s with pace := { s.pace with winStart := s.pace.time, windows := s.pace.windows + 1 } })

/-- The voltage to which the die nib moves die `d` when its control loop asks for `mv` (R31-R33, R294, R472): within the
policy's range, not away from the policy's pace goal, at most 10 mV from where it stood at the last grid point (log entry 191), and not
upward under the cap. -/
def State.nextVcore (s : State) (d mv : Nat) : Nat :=
  let x := s.diePace d
  let lo := min 880 ((if s.efficient d then 600 else 715) + s.margin d)
  let want := match s.paceGoal d with
    | some g => if x.meas < g then max mv x.vcore else if g < x.meas then min mv x.vcore else x.vcore
    | none => mv
  let goal := max lo (min want 880)
  let v := max (x.base - 10) (min goal (x.base + 10))
  if (nth s.memc.cap d none).isSome then min v x.vcore else v

/-- VCORE_ADJUST: the die nib moves VCORE; efficiency mode follows the owners' policies (R31-R33). A die nib that failed
keeps its last value (R476), and the shutdown test holds it (R449). -/
def execVcoreAdjust (die mv : Nat) (s : State) : Host.Outcome State Fault Refusal :=
  run (Instr.wf (.vcoreAdjust die mv)) s (fun s =>
    if (die = 0 && s.leadDie = 4) || s.field 0x800014 2 0 = 3 then s
    else
      let v := s.nextVcore die mv
      let s := s.setField (paceBase die) 29 29 (b2n (s.efficient die))
      let s := s.updPace die (fun x => { x with eff := x.eff || s.efficient die })
      if v = (s.diePace die).vcore then s
      else (s.updPace die (fun x => { x with vcore := v })).emit (.rail die v))

/-- An offset applied to TIME: a positive one at once, up to the largest value of TIME (log entry 189); a negative one slewed in (R42). -/
def State.stepTime (s : State) (z : Int) : State :=
  if 0 ≤ z then { s with pace := { s.pace with time := timeTop (s.pace.time + z.toNat) } }
  else { s with pace := { s.pace with slew := s.pace.slew + z.natAbs * 1000000, slewing := true } }

/-- PTP_EN (Table 2.9). -/
def State.ptpOn (s : State) : Bool := bit (s.reg 0x10010) 0

/-- A write of PACE_TIME_STEP (R42): ignored while PTP disciplines TIME. -/
def State.timeStepWrite (s : State) (value : Nat) : State :=
  if !s.regsOpen || s.ptpOn then s else s.stepTime (signed 64 value)

/-- PACE_TIME_STEP_WRITE: one 64-bit write (R12, R42). -/
def execPaceTimeStepWrite (port value : Nat) (s : State) : Host.Outcome State Fault Refusal :=
  run (Instr.wf (.paceTimeStepWrite port value)) s (fun s =>
    if s.regsOpen then (s.whole64 port 0x10018).timeStepWrite value else s)

/-- PACE_TIME_RATE_WRITE (R42, Table 2.10): a rate beyond ±100,000 is reserved; ignored while PTP disciplines TIME. -/
def execPaceTimeRateWrite (port value : Nat) (s : State) : Host.Outcome State Fault Refusal :=
  run (Instr.wf (.paceTimeRateWrite port value)) s (fun s =>
    if !s.regsOpen then s
    else if (signed 32 value).natAbs > 100000 then s.barError port 0x10014 4 (trunc 32 value)
    else if s.ptpOn then s
    else s.setReg 0x10014 (trunc 32 value))

/-- TIME_SLEW_COMPLETE: SLEWING clears once the offset is consumed (R42). -/
def execTimeSlewComplete (s : State) : Host.Outcome State Fault Refusal :=
  run (Instr.wf .timeSlewComplete) s (fun s =>
    if s.pace.slew = 0 then { s with pace := { s.pace with slewing := false } } else s)

/-- Base of the registers of Ethernet port `n`. -/
def ethBase (n : Nat) : Nat := 0x401000 + 0x200 * n

/-- Sub-port `sub` of Ethernet port `n` is up (Table 18.11). -/
def State.subUp (s : State) (n sub : Nat) : Bool := bit (s.reg (ethBase n + 4)) sub

/-- The PTP messages of a master that a slave with the end-to-end delay mechanism uses, by messageType of IEEE 1588-2019: Sync, Follow_Up,
Delay_Resp and Announce. The others carry the unsupported peer-delay mechanism or address a master (log entry 192). -/
def ptpUsed (kind : Nat) : Bool := [0, 8, 9, 11].contains kind

/-- Delay_Req sent on sub-port 0 of the PTP port: a PTP frame (kind 4) with its messageType (log entry 192). -/
def State.delayReq (s : State) (eport : Nat) : State := (s.emit (.frame eport 0 4 [1])).bump (ethBase eport + 0x10) 64 1

/-- PTP_MESSAGE_RECEIVE (R41): used on sub-port 0 of the selected port, discarded elsewhere; the servo's corrections are
`stepNs` and `ratePpb` (log entry 20). A Sync counts toward LOCKED, and the Follow_Up of a two-step Sync is followed by a Delay_Req. -/
def execPtpMessageReceive (eport sub kind : Nat) (offset stepNs ratePpb : Int) (s : State) : Host.Outcome State Fault Refusal :=
  run (Instr.wf (.ptpMessageReceive eport sub kind offset stepNs ratePpb)) s (fun s =>
    if !s.subUp eport sub then s
    else
    let s := s.bump (ethBase eport + 0x18) 64 1
    if s.ptpOn && s.field 0x10010 3 1 == eport && sub == 0 then
      if !ptpUsed kind then s
      else
        let n := if kind != 0 then s.pace.syncs else if offset.natAbs ≤ 50 then min 16 (s.pace.syncs + 1) else 0
        let s := { s with pace := { s.pace with syncs := n, holdover := false } }
        let s := (s.setReg 0x10014 (ofInt 32 (max (-100000) (min ratePpb 100000)))).stepTime stepNs
        if kind = 8 then s.delayReq eport else s
    else s.bump (ethBase eport + 0x20) 64 1)

/-- PTP_HOLDOVER_TIMEOUT (Table 2.11). -/
def execPtpHoldoverTimeout (s : State) : Host.Outcome State Fault Refusal :=
  run (Instr.wf .ptpHoldoverTimeout) s (fun s =>
    if s.ptpOn then { s with pace := { s.pace with holdover := true } } else s)

end Sys2Proof.Machine
end

