-- ==== Sys2Proof/Machine/Boot.lean ====
section
/-!
DEFINITION. The start, the measurements' responder and the shutdown (19); the reset and trip pins (22).
-/
namespace Sys2Proof.Machine

/-! ## Reset (R438, R488) -/

/-- The block with RESET_N low: flash, fuses and the memory of the T3 windows keep what they hold, and so does what the outside has
seen; all else is at its reset value (R488, R435, R436). -/
def State.powerOff (s : State) : State :=
  let z := State.reset
  { z with
    pending := s.pending, flash := s.flash, free := s.free, out := s.out
    folio := { z.folio with retired := s.folio.retired }
    mem := s.mem.filter (fun e => decide (0x80000000000 ≤ e.1))
    memc := { z.memc with pages := s.memc.pages, pageSer := s.memc.pageSer, modSer := s.memc.modSer, hppr := s.memc.hppr,
                          sectors := s.memc.sectors.filter (fun e => decide (0x80000000000 ≤ 64 * e.1)) }
    pins := { z.pins with perst := s.pins.perst } }

/-- RESET_ASSERT: all work stops at once, with no fence and no completion record (R488). THERMTRIP_N is released (R493). -/
def execResetAssert (s : State) : Host.Outcome State Fault Refusal :=
  if Instr.wf .resetAssert then .next (if s.pins.resetN then s.powerOff else s) else .fault .noSuchUnit

/-- POWER_ON_START: RESET_N is released; STAGE 0 begins with every register at its reset value and TIME at 0 (R438, R488). -/
def execPowerOnStart (s : State) : Host.Outcome State Fault Refusal :=
  if Instr.wf .powerOnStart then
    .next (if s.pins.resetN then s else { s with pins := { s.pins with resetN := true } })
  else .fault .noSuchUnit

/-- THERMTRIP: THERMTRIP_N goes low and nothing acts any more until RESET_N is asserted (R493). -/
def execThermtrip (die : Nat) (s : State) : Host.Outcome State Fault Refusal :=
  run (Instr.wf (.thermtrip die)) s (fun s => { s with pins := { s.pins with thermtripN := false } }.emit (.pin 1 false))

/-! ## PERST (R489) -/

/-- The level of a port's PERST. -/
def State.setPerst (s : State) (port : Nat) (b : Bool) : State :=
  { s with pins := { s.pins with perst := updAt s.pins.perst port (fun _ => b) } }

/-- PERST_ASSERT: the port's link is down while its PERST is asserted (R301, R489). -/
def execPerstAssert (port : Nat) (s : State) : Host.Outcome State Fault Refusal :=
  if Instr.wf (.perstAssert port) then
    .next (if s.alive then { (s.linkDown port).setPerst port false with pending := s.pending } else s.setPerst port false)
  else .fault .noSuchUnit

/-- PERST_RELEASE: link training may start afresh; while RESET_N is low nothing does (R489). -/
def execPerstRelease (port : Nat) (s : State) : Host.Outcome State Fault Refusal :=
  if Instr.wf (.perstRelease port) then .next (s.setPerst port true) else .fault .noSuchUnit

/-! ## Boot firmware (R439-R441) -/

/-- SECURITY_VERSION of a boot firmware image (Table 19.4). -/
def bfwSecver (b : List Nat) : Nat := fieldOf b 12 4

/-- The signature of a boot firmware image verifies under the boot key (R439). -/
def bfwSigned (b : List Nat) : Bool := Config.ecdsaVerify Config.bootKeyId (signedBytes b 64) (fieldOf b 64 96)

/-- A boot firmware image is valid (R439). -/
def State.bfwValid (s : State) (b : List Nat) : Bool := !b.isEmpty && bfwSigned b && decide (counterOf s.flash.bootRows ≤ bfwSecver b)

/-- Field of NIB_BOOT_STATUS set. -/
def State.setBoot (s : State) (hi lo v : Nat) : State := s.setField 0x800000 hi lo v

/-- BOOT_FIRMWARE_START: the image of the active slot runs, else that of the other slot, which becomes active; when neither verifies the
start is HALTED (R438-R440, R445). -/
def execBootFirmwareStart (s : State) : Host.Outcome State Fault Refusal :=
  run (Instr.wf .bootFirmwareStart) s (fun s =>
    if s.stage != 0 then s
    else
      let before := s
      let a := s.flash.bootSlot
      let img (k : Nat) : List Nat := nth s.flash.boot k []
      let go (k : Nat) : State :=
        let s := { s with flash := { s.flash with bootSlot := k }, nib := { s.nib with bootRun := img k } }
        ((s.setBoot 4 4 k).setBoot 3 0 1).measChanged before
      if s.bfwValid (img a) then go a else if s.bfwValid (img (1 - a)) then go (1 - a) else s.setBoot 3 0 15)

/-- BOOT_LEAD_TIMEOUT: STAGE 1 is not reached 300 ms after the release of RESET_N, and the die nib of C4 leads (R441). -/
def execBootLeadTimeout (s : State) : Host.Outcome State Fault Refusal :=
  run (Instr.wf .bootLeadTimeout) s (fun s => if s.stage = 0 && 300000000 ≤ s.time then s.setBoot 5 5 1 else s)

/-! ## Training (R274, R291, R292) -/

/-- A module keeps the rules of R274. -/
def moduleGood (m : DdrModule) : Bool :=
  m.ecc && [32, 64, 96, 128, 256].contains m.gib && ((m.kind == 1 && (m.ranks == 1 || m.ranks == 2)) || (m.kind == 2 && m.ranks == 2))

/-- Two modules are of one make-up. -/
def modulesAlike (a b : DdrModule) : Bool :=
  a.present == b.present && (!a.present || (a.kind == b.kind && a.ecc == b.ecc && a.ranks == b.ranks && a.gib == b.gib))

/-- MEM_DDR_c_STATUS after training (Table 12.7); MTS is set with a folio. -/
def moduleStatus (m : DdrModule) (disabled : Bool) : Nat :=
  if m.present then
    m.gib % 1024 * 2 ^ 22 + (if m.kind = 1 || m.kind = 2 then m.kind else 3) * 2 ^ 20 + 8 * b2n m.ecc + 4 * b2n m.trained + 2 * b2n disabled + 1
  else 2 * b2n disabled

/-- The channel and cause with which a pair is disabled (R274). -/
def pairFault (c : Nat) (a b : DdrModule) : Option (Nat × Nat) :=
  if a.present && !moduleGood a then some (c, 0) else if b.present && !moduleGood b then some (c + 1, 0)
  else if !modulesAlike a b then some (c, 1)
  else if a.present && !a.trained then some (c, 2) else if b.present && !b.trained then some (c + 1, 2) else none

/-- The DDR channels of die `d` as trained. -/
def State.trainPair (s : State) (mods : List DdrModule) (d : Nat) : State :=
  let none' : DdrModule := ⟨false, 0, false, 0, 0, 0, false⟩
  let a := nth mods (2 * d) none'
  let b := nth mods (2 * d + 1) none'
  let bad := pairFault (2 * d) a b
  let s := (s.setReg (0x104000 + 0x80 * d) (moduleStatus a bad.isSome)).setReg (0x104040 + 0x80 * d) (moduleStatus b bad.isSome)
  let ser (m : DdrModule) : Nat := if m.present then m.serial + 1 else 0
  let s := { s with memc := { s.memc with modSer := Tbl.set 0 (Tbl.set 0 s.memc.modSer (2 * d) (ser a)) (2 * d + 1) (ser b) } }
  match bad with
  | some x => s.blot { cls := 0x0407, src := ⟨4, 64 + d⟩, detail := [(x.1, 1), (x.2, 1)] } [ringG]
  | none => s

/-- Pages of modules that are no longer installed leave the list; hard repairs recorded before have been made; T2 is to be zeroed. -/
def State.trained (s : State) : State :=
  let here (p : Nat) : Bool := tierOf (4096 * p) != 2 || s.memc.modSer.any (fun e => e.2 == Tbl.get 0 s.memc.pageSer p)
  let keep := s.memc.pages.filter here
  { s with memc := { s.memc with pages := keep, pageSer := s.memc.pageSer.filter (fun e => keep.contains e.1), hppr := [],
                                 drainT2 := (upto 8).any (fun d => s.t2Size d != 0) } }.setReg 0x109000 keep.length

/-! ## The self-test record (R442, R443, R451) -/

/-- MAGIC of a self-test record: "LN7BISTR". -/
def recordMagic : List Nat := [0x4C, 0x4E, 0x37, 0x42, 0x49, 0x53, 0x54, 0x52]

/-- What the signature of a self-test record covers: the record with SIGNATURE and CONSUMED set to 0xFF (R451). -/
def recordSigned (b : List Nat) : List Nat :=
  b.take 10 ++ [255] ++ (b.drop 11).take 133 ++ List.replicate 96 255 ++ b.drop 240

/-- The first check of Table 19.5 that a record fails; 0 when it is valid. -/
def State.recordCheck (s : State) (b : List Nat) : Nat :=
  let zero (off n : Nat) : Bool := fieldOf b off n == 0
  if b.take 8 != recordMagic || fieldOf b 8 2 != 1 || fieldOf b 11 1 / 4 != 0 || !zero 42 6 || !zero 240 16 then 1
  else if !Config.ecdsaVerify Config.identityKeyId (recordSigned b) (fieldOf b 144 96) then 2
  else if fieldOf b 16 8 != Config.serial % 2 ^ 64 then 3
  else if fieldOf b 10 1 != 255 then 4
  else if fieldOf b 24 8 != s.flash.bistSeq then 5
  else if !bit (fieldOf b 11 1) 0 then 6
  else 0

/-- A failure entry's 16 bytes (Table 19.11). -/
def failBytes (f : FailEntry) : List Nat :=
  natBytes 1 f.unit ++ natBytes 1 f.die ++ natBytes 2 f.num ++ natBytes 4 f.cause ++ natBytes 8 f.addr

/-- The failure entries of a record. -/
def recordFails (b : List Nat) : List FailEntry :=
  (upto (min 1024 (fieldOf b 12 2))).map (fun i =>
    let o := 256 + 16 * i
    ⟨fieldOf b o 1, fieldOf b (o + 1) 1, fieldOf b (o + 2) 2, fieldOf b (o + 4) 4, fieldOf b (o + 8) 8⟩)

/-- A stack row spared, or its page retired once its bank has no spare (R289, R290). -/
def State.spareRow (s : State) (a : Nat) : State :=
  let d := dieOfPhys a
  let key := d * 65536 + (Config.rowOf a).1 % 65536
  if Tbl.get 0 s.memc.spares key < 2 then s.useSpare d key (Config.rowOf a).2 else s.retirePage a

/-- A DDR row repaired, or its page retired when the module has no repair left: which of the two is the module's (log entry 3). -/
def State.repairRow (s : State) (a : Nat) : State :=
  let left := bit s.freeVal 0
  let s := s.useFree
  if left then s.usePpr (dieOfPhys a) (chanOfT2 a) (Config.rowOf a).1 (Config.rowOf a).2 else s.retirePage a

/-- A lane found failing: every sub-port that uses it is held down, and one that is up goes down. -/
def State.laneDown (s : State) (lane : Nat) : State :=
  let n := lane / 8
  let s := { s with nib := { s.nib with lanes := s.nib.lanes ++ [lane] } }
  let mode := s.field (fabPort n + 4) 11 10
  (upto 8).foldl (fun s sub =>
    let st := s.reg (fabPort n + 4)
    if bit st sub && s.laneFails n sub mode then
      (s.setReg (fabPort n + 4) (setBit st sub false)).blot { cls := 0x0601, src := ⟨7, n⟩, detail := [(n, 1), (sub, 1)] } [ringG]
    else s) s

/-- A failure entry applied at a start (Table 19.6). -/
def State.applyFail (s : State) (f : FailEntry) : State :=
  let a := f.addr / 64 * 64
  match f.unit with
  | 0 | 1 | 2 => s.addRetired f.unit f.num Config.bistFail
  | 3 => if (s.phys a) == some a && tierOf a = 1 then s.spareRow a else s
  | 4 => if (s.phys a) == some a && tierOf a = 2 then s.repairRow a else s
  | 5 => s.laneDown f.num
  | _ => { s with nib := { s.nib with fatal := s.nib.fatal ++ [f] } }

/-- The failure entries of a record or a start test applied. -/
def State.applyFails (s : State) (fs : List FailEntry) : State := (fs.filter (·.ok)).foldl (fun s f => s.applyFail f) s

/-- TRAINING_COMPLETE: the DDR channels are reported, and the self-test record is checked and marked CONSUMED; with a valid one its
failures are applied and the folio is loaded, without one the start test runs (R274, R438, R442, R443). -/
def execTrainingComplete (mods : List DdrModule) (s : State) : Host.Outcome State Fault Refusal :=
  run (Instr.wf (.trainingComplete mods)) s (fun s =>
    if s.stage != 1 then s
    else
      let before := s
      let s := ((upto 8).foldl (fun s d => s.trainPair mods d) s).trained
      let b := s.flash.record
      let code := s.recordCheck b
      let s := (s.setBoot 3 0 3).setBoot 23 16 code
      let s := { s with flash := { s.flash with record := updAt b 10 (fun _ => 0) } }
      if code = 0 then
        let s := { s with nib := { s.nib with recDig := Config.sha384 b } }
        ((((s.setBoot 6 6 1).applyFails (recordFails b)).measChanged before)).startLoad
      else (s.setBoot 3 0 4).measChanged before)

/-- START_TEST_COMPLETE: the start test has run and its failures are applied (R443). -/
def execStartTestComplete (fails : List FailEntry) (s : State) : Host.Outcome State Fault Refusal :=
  run (Instr.wf (.startTestComplete fails)) s (fun s =>
    if s.stage != 4 then s
    else (((s.setBoot 7 7 1).applyFails fails).measChanged s).startLoad)

/-! ## STAGE 6 (R444, R447) -/

/-- The folio of a start put in force with its patches (R71, R72, R445). -/
def State.startApplied (s : State) (o : FolioOp) (k : Nat) : State :=
  let before := s
  let s := (s.loadFull o).replayPatches o.patches
  let s := s.setField 0x20000 0 0 (b2n (s.flash.committed != some k))
  let s := { s with folio := { s.folio with op := none } }.folioStatus 1 0
  (s.folioBlot 0x0201 o 0 s.parts).measChanged before

/-- The boot-firmware counter raised to the version that reached STAGE 6 (R436, R447). -/
def State.raiseBootMin (s : State) : State :=
  let v := bfwSecver s.nib.bootRun
  if v ≤ counterOf s.flash.bootRows then s
  else if s.flash.bootRows.length < counterRows then { s with flash := { s.flash with bootRows := s.flash.bootRows ++ [v] } }
  else s.blot { cls := 0x0205, src := ⟨5, s.leadDie⟩, detail := [(1, 1)] } [ringG]

/-- PKG_STATE at STAGE 6, checked in the order of R444; `ok` says that a folio slot loaded. -/
def State.settlePkg (s : State) (ok : Bool) : State :=
  if !s.nib.fatal.isEmpty then
    let s := (if ok then s.openService else s.setPkg 3).setBoot 8 8 1
    s.nib.fatal.foldl (fun s f => s.blot { cls := 0x0206, src := ⟨5, f.die⟩, detail := [(fieldOf (failBytes f) 0 16, 16)] } [ringG]) s
  else if s.flash.committed.isNone then s.setPkg 0
  else if !ok then s.setPkg 3
  else s.openService

/-- What START_DONE does once what it moves is admitted and the host has released what it writes. -/
def State.doStartDone (s : State) : State :=
  if s.stage != 5 then s
  else
    let r := match s.folio.op with
      | some o => (match o.slot with | some k => (s.startApplied o k, true) | none => (s, false))
      | none => (s, false)
    let s := ((r.1.settlePkg r.2).setBoot 3 0 6).setReg 0x800008 r.1.time
    ((s.raiseBootMin).measChanged s).shutdownBegin

/-- START_DONE: the folio is in force, STAGE is 6 and PKG_STATE is set (R444). -/
def execStartDone (s : State) : Host.Outcome State Fault Refusal :=
  runMem (Instr.wf .startDone) [] s (fun s => s.doStartDone)

/-- T2_ZEROING_COMPLETE: every T2 sector has been written with zeros; what waited for it goes on (R438). -/
def execT2ZeroingComplete (s : State) : Host.Outcome State Fault Refusal :=
  run (Instr.wf .t2ZeroingComplete) s (fun s =>
    if s.stage != 6 || !s.memc.drainT2 then s
    else ({ s with memc := { s.memc with drainT2 := false } }.pumpZero).mcAll)

/-! ## Owner slots (R437) -/

/-- NIB_OWNER_SET: the request of 144 bytes is checked; the next owner slot is to be programmed. -/
def execNibOwnerSet (port value : Nat) (data : List Nat) (s : State) : Host.Outcome State Fault Refusal :=
  run (Instr.wf (.nibOwnerSet port value data)) s (fun s =>
    let err (e : Nat) : State := s.setField 0x80003C 15 8 e
    if !bit value 0 || s.nib.owner.isSome then s
    else if 4 ≤ s.flash.owners.length then err 2
    else
      let ok := match s.ownerKey with
        | none => true
        | some k => Config.ecdsaVerify k (data.take 48 ++ natBytes 8 Config.serial) (fieldOf data 48 96)
      if data.length != 144 || !ok then err 1
      else { err 0 with nib := { s.nib with owner := some (fieldOf data 0 48) } }.setField 0x80003C 16 16 1)

/-- OWNER_SET_COMPLETE: the slot is programmed, and its key governs from now on (R437, R445). -/
def execOwnerSetComplete (s : State) : Host.Outcome State Fault Refusal :=
  run (Instr.wf .ownerSetComplete) s (fun s =>
    match s.nib.owner with
    | none => s
    | some d =>
      let before := s
      let s := { s with nib := { s.nib with owner := none }, flash := { s.flash with owners := s.flash.owners ++ [d] } }
      (s.setField 0x80003C 16 16 0).measChanged before)

/-! ## Boot firmware update (R447) -/

/-- NIB_BFW_INSTALL: the image is verified; it is to be written to the inactive slot. -/
def execNibBfwInstall (port value : Nat) (data : List Nat) (s : State) : Host.Outcome State Fault Refusal :=
  run (Instr.wf (.nibBfwInstall port value data)) s (fun s =>
    let err (e : Nat) : State := s.setField 0x80002C 15 8 e
    let size := bits value 31 8
    if !bit value 0 then s
    else if s.nib.install.isSome || s.nib.down then err 5
    else if size < 4096 || 8388608 < size || data.length != size || fieldOf data 16 4 != size then err 3
    else if !bfwSigned data then err 1
    else if bfwSecver data < counterOf s.flash.bootRows then err 2
    else { err 0 with nib := { s.nib with install := some data } }.setField 0x80002C 0 0 1)

/-- BFW_INSTALL_COMPLETE: the image is written and its slot is active from the next start; or flash failed. -/
def execBfwInstallComplete (ok : Bool) (s : State) : Host.Outcome State Fault Refusal :=
  run (Instr.wf (.bfwInstallComplete ok)) s (fun s =>
    match s.nib.install with
    | none => s
    | some b =>
      let s := { s with nib := { s.nib with install := none } }.setField 0x80002C 0 0 0
      if ok then
        let k := 1 - s.flash.bootSlot
        { s with flash := { s.flash with boot := updAt s.flash.boot k (fun _ => b), bootSlot := k } }.setField 0x80002C 1 1 1
      else s.setField 0x80002C 15 8 4)

/-! ## Shutdown (R448-R451) -/

/-- PHASE set. -/
def State.setPhase (s : State) (v : Nat) : State := s.setField 0x800014 2 0 v

/-- A write of NIB_SHUTDOWN: MODE 1 OFF, 2 TEST; a second one and a reserved MODE are discarded (R448, R10). -/
def State.shutdownWrite (s : State) (port value : Nat) : State :=
  let v := trunc 32 value
  let mode := v % 4
  if mode = 0 || mode = 3 || s.nib.down then s.barError port 0x800010 4 v
  else { s with nib := { s.nib with down := true, test := mode == 2, ddrTest := mode == 2 && bit v 2 } }.shutdownBegin

/-- SHUTDOWN_OFF: a shutdown for power-off begins once no folio operation is in progress. -/
def execShutdownOff (port value : Nat) (s : State) : Host.Outcome State Fault Refusal :=
  run (Instr.wf (.shutdownOff port value)) s (fun s => s.shutdownWrite port value)

/-- SHUTDOWN_TEST: a shutdown for the self-test begins once no folio operation is in progress. -/
def execShutdownTest (port value : Nat) (s : State) : Host.Outcome State Fault Refusal :=
  run (Instr.wf (.shutdownTest port value)) s (fun s => s.shutdownWrite port value)

/-- SHUTDOWN_QUIESCED: no partition has a command under way, and the shutdown is FLUSHING. -/
def execShutdownQuiesced (s : State) : Host.Outcome State Fault Refusal :=
  run (Instr.wf .shutdownQuiesced) s (fun s =>
    if s.phase != 1 || !(s.cids.all (fun c => (s.cmd c).st == .fetched)) then s else s.setPhase 2)

/-- Every Modified host line written back. -/
def State.flushLines (s : State) : State :=
  (upto 8).foldl (fun s d => match s.diePort d with
    | none => s
    | some p =>
      let dirty := (s.hlc d).filter (fun l => !l.dirty.isEmpty)
      dirty.foldl (fun s l => s.dirtyEvict d p l) (s.updHlc d (fun _ => []))) s

/-- The contents of T1, T2 and every SRAM lost (R448). -/
def State.loseMemory (s : State) : State :=
  { s with mem := s.mem.filter (fun e => decide (0x80000000000 ≤ e.1)), tiles := [], caches := [], saved := [],
           memc := { s.memc with sectors := s.memc.sectors.filter (fun e => decide (0x80000000000 ≤ 64 * e.1)) } }

/-- SHUTDOWN_FLUSHED: host lines are written back and flows closed; TESTING begins at 0.80 V, or the LN7 is ready for off. -/
def execShutdownFlushed (s : State) : Host.Outcome State Fault Refusal :=
  run (Instr.wf .shutdownFlushed) s (fun s =>
    if s.phase != 2 then s
    else
      let s := s.flushLines
      let s := (s.fab.flows.map (·.1)).foldl (fun s f => if (s.flow f).st = 0 then s else s.flowDown f 0) s
      let s := s.loseMemory
      if s.nib.test then
        let s := (upto 8).foldl (fun s d =>
          if (s.diePace d).vcore = 800 then s else (s.updPace d (fun x => { x with vcore := 800 })).emit (.rail d 800)) s
        { s with nib := { s.nib with from' := s.time } }.setPhase 3
      else s.setPhase 5)

/-- The test has ended; its result is to be written (R449, R451). -/
def State.testEnds (s : State) (complete : Bool) (fails : List FailEntry) (vmin : Nat) (tjMax : Int) : State :=
  if s.phase != 3 then s
  else
    let s := { s with nib := { s.nib with complete := complete, fails := fails, vmin := vmin, tjMax := tjMax, lasted := s.time - s.nib.from' } }
    (s.setReg 0x800014 (65536 * fails.length + 8 * b2n complete)).setPhase 4

/-- BIST_PAUSE_LIMIT: the pauses of a die total 10 s, and the test ends incomplete. -/
def execBistPauseLimit (die : Nat) (fails : List FailEntry) (vmin : Nat) (tjMax : Int) (s : State) : Host.Outcome State Fault Refusal :=
  run (Instr.wf (.bistPauseLimit die fails vmin tjMax)) s (fun s => s.testEnds false fails vmin tjMax)

/-- BIST_COMPLETE: every block of every die has been tested. -/
def execBistComplete (fails : List FailEntry) (vmin : Nat) (tjMax : Int) (s : State) : Host.Outcome State Fault Refusal :=
  run (Instr.wf (.bistComplete fails vmin tjMax)) s (fun s => s.testEnds true fails vmin tjMax)

/-- The self-test record with sequence `seq`, before its signature is put in (Table 19.10). -/
def State.recordBody (s : State) (seq : Nat) : List Nat :=
  recordMagic ++ natBytes 2 1 ++ [255] ++ [b2n s.nib.complete + 2 * b2n s.nib.ddrTest] ++ natBytes 2 s.nib.fails.length
    ++ natBytes 2 s.nib.vmin ++ natBytes 8 Config.serial ++ natBytes 8 seq ++ natBytes 8 s.nib.lasted
    ++ natBytes 2 (ofInt 16 s.nib.tjMax) ++ natBytes 6 0 ++ s.meas 2 ++ s.meas 6 ++ List.replicate 96 255 ++ natBytes 16 0
    ++ (s.nib.fails.map failBytes).flatten

/-- READY_FOR_OFF: the record is signed and written, and NIB_BIST_SEQ raised (R448, R451). -/
def execReadyForOff (s : State) : Host.Outcome State Fault Refusal :=
  run (Instr.wf .readyForOff) s (fun s =>
    if s.phase != 4 then s
    else
      let seq := s.flash.bistSeq + 1
      let b := s.recordBody seq
      let b := b.take 144 ++ natBytes 96 (Config.identitySign b) ++ b.drop 240
      { s with flash := { s.flash with bistSeq := seq, record := b } }.setPhase 5)

/-! ## SPDM (R446): the codes of messages and the bits of their fields are those of DSP0274 (log entry 43) -/

/-- An SPDM request on a port's function, answered while boot firmware runs. -/
def State.spdm (s : State) (port : Nat) (code : Nat) (fields : List Nat) : State :=
  if s.portUp port && 1 ≤ s.stage && s.stage ≤ 6 && s.phase != 5 then s.emit (.spdm code (port :: fields)) else s

/-- ERROR with a code. -/
def State.spdmError (s : State) (port err : Nat) : State := s.spdm port 0x7F [err]

/-- The digest of slot 0's certificate chain. -/
def chainDigest : Nat := Config.sha384 Config.certChain

/-- GET_VERSION: versions 1.2 and 1.3. -/
def execGetVersion (port : Nat) (s : State) : Host.Outcome State Fault Refusal :=
  run (Instr.wf (.getVersion port)) s (fun s => s.spdm port 0x04 [0x12, 0x13])

/-- GET_CAPABILITIES: CERT_CAP, CHAL_CAP, MEAS_CAP with signature. -/
def execGetCapabilities (port : Nat) (s : State) : Host.Outcome State Fault Refusal :=
  run (Instr.wf (.getCapabilities port)) s (fun s => s.spdm port 0x61 [0x16])

/-- NEGOTIATE_ALGORITHMS: ECDSA P-384, SHA-384, measurement hash SHA-384. -/
def execNegotiateAlgorithms (port : Nat) (s : State) : Host.Outcome State Fault Refusal :=
  run (Instr.wf (.negotiateAlgorithms port)) s (fun s => s.spdm port 0x63 [0x80, 0x02, 0x04])

/-- GET_DIGESTS: slot 0. -/
def execGetDigests (port : Nat) (s : State) : Host.Outcome State Fault Refusal :=
  run (Instr.wf (.getDigests port)) s (fun s => s.spdm port 0x01 (natBytes 48 chainDigest))

/-- GET_CERTIFICATE: a portion of the chain of slot 0: its length, the length left, its bytes. -/
def execGetCertificate (port off len : Nat) (s : State) : Host.Outcome State Fault Refusal :=
  run (Instr.wf (.getCertificate port off len)) s (fun s =>
    let l := (Config.certChain.drop off).take len
    if Config.certChain.length ≤ off then s.spdmError port 1
    else s.spdm port 0x02 ([l.length, Config.certChain.length - off - l.length] ++ l))

/-- CHALLENGE: the chain's digest, the nonce and a measurement summary (0 none, 1 TCB, 0xFF all), signed. -/
def execChallenge (port nonce summary : Nat) (s : State) : Host.Outcome State Fault Refusal :=
  run (Instr.wf (.challenge port nonce summary)) s (fun s =>
    let sum (n : Nat) : List Nat := natBytes 48 (Config.sha384 ((upto n).map (fun i => s.meas (i + 1))).flatten)
    let digest := if summary = 0 then some [] else if summary = 1 then some (sum 5) else if summary = 255 then some (sum 10) else none
    match digest with
    | none => s.spdmError port 1
    | some d =>
      let body := natBytes 48 chainDigest ++ natBytes 32 nonce ++ d
      s.spdm port 0x03 (body ++ natBytes 96 (Config.identitySign body)))

/-- DMTF value type of a measurement (Table 19.7). -/
def measType (i : Nat) : Nat := nth [0, 0, 1, 1, 1, 1, 3, 3, 2, 2, 4] i 0

/-- A measurement block: index, value type, length, bytes. -/
def State.measBlock (s : State) (i : Nat) : List Nat := [i, measType i, (s.meas i).length] ++ s.meas i

/-- GET_MEASUREMENTS: index 0 the count, 1-10 one, 0xFF all; signed on request with the nonce. -/
def execGetMeasurements (port index : Nat) (signed : Bool) (nonce : Nat) (s : State) : Host.Outcome State Fault Refusal :=
  run (Instr.wf (.getMeasurements port index signed nonce)) s (fun s =>
    let answer := if index = 0 then some [10]
      else if index ≤ 10 then some (1 :: s.measBlock index)
      else if index = 255 then some (10 :: ((upto 10).map (fun i => s.measBlock (i + 1))).flatten)
      else none
    match answer with
    | none => s.spdmError port 1
    | some l => s.spdm port 0x60 (l ++ if signed then natBytes 96 (Config.identitySign (l ++ natBytes 32 nonce)) else []))

/-- SPDM_UNSUPPORTED_REQUEST: any other request is answered with ERROR UnsupportedRequest. -/
def execSpdmUnsupportedRequest (port code : Nat) (s : State) : Host.Outcome State Fault Refusal :=
  run (Instr.wf (.spdmUnsupportedRequest port code)) s (fun s => s.spdmError port 7)

end Sys2Proof.Machine
end

