-- ==== Sys2Proof/Machine/Heat.lean ====
section
/-!
DEFINITION. Stack temperatures (13, R293-R297): refresh, cap, halt and their release.
-/
namespace Sys2Proof.Machine

/-- A thermal blot: class, die, temperature, capped pace. -/
def State.heatBlot (s : State) (d cls : Nat) (tstack : Int) (pace : Nat) : State :=
  s.blot { cls := cls, src := ⟨4, 64 + d⟩, detail := [(d, 1), (ofInt 16 tstack, 2), (pace, 2)] } (s.ringsGPd d)

/-- Bit `i` of MEM_THM_d_STATUS. -/
def State.setThm (s : State) (d i : Nat) (b : Bool) : State := s.setReg (eccBase d + 0x40) (setBit (s.reg (eccBase d + 0x40)) i b)

/-- A lookup in progress has work on die `d`: a pass whose home engine is there, or a row of one. -/
def TeCmd.onDie (c : TeCmd) (d : Nat) : Bool :=
  c.passes.any (fun p => p.started && !p.done && (p.home / 2 == d || p.rows.any (fun r => r.st != .done && r.eng / 2 == d)))

/-- An update in progress has work on die `d`. -/
def UpdCmd.onDie (c : UpdCmd) (d : Nat) : Bool :=
  c.passes.any (fun p => p.st != .waiting && p.st != .done && (p.home / 2 == d || p.rows.any (fun r => !r.done && r.die == d)))

/-- A session request in progress has an operation on die `d`. -/
def SesCmd.onDie (c : SesCmd) (d : Nat) : Bool :=
  (c.ents.zipIdx).any (fun e => !nth c.done e.2 true && (keyPlace (seKey e.1)).1 == d)

/-- The commands whose work the table engines, the update unit and the Saffron unit of die `d` hold (R295). -/
def State.unitWorkOn (s : State) (d : Nat) : List Nat :=
  (s.units.te.filter (fun e => e.2.onDie d)).map (·.1) ++ (s.units.upd.filter (fun e => e.2.onDie d)).map (·.1)
    ++ (s.units.ses.filter (fun e => e.2.onDie d)).map (·.1)

/-- Packets of collectives that have been handed to Quill stay with it when their launches end (R297): they are no command's any more. -/
def State.handOver (s : State) (ids : List Nat) : State :=
  let keep (k : TxPkt) : TxPkt := if k.kind = 5 && ids.contains k.op then { k with op := 0, cid := none } else k
  { s with fab := { s.fab with flows := s.fab.flows.map (fun (e : Nat × Flow) => (e.1, { e.2 with queue := e.2.queue.map keep })) } }

/-- Every collective in progress that uses die `d` aborted, with ABORT to its members behind the steps already handed over, and then the
launches that took part end (R297, R429). -/
def State.abortThermal (s : State) (d : Nat) : State :=
  let os := s.fab.ops.filter (fun o => 4 ≤ o.kind && o.kind ≤ 6 && dieOfTile o.tile == d && o.group.isSome)
  let s := s.handOver (os.map (·.id))
  let s := os.foldl (fun s o => (s.queueAbort o 1 d).collOver (o.group.getD 0) o.seq) s
  let s := { s with fab := { s.fab with ops := s.fab.ops.filter (fun x => !os.any (fun o => o.id == x.id)) } }
  os.foldl (fun s o => s.endCmd o.cid 6 d [] false) s

/-- Compute of die `d` halts (R295, R297). -/
def State.haltDie (s : State) (d : Nat) : State :=
  let s := { s with memc := { s.memc with halt := updAt s.memc.halt d (fun _ => true) } }
  let s := (s.setThm d 2 true).abortThermal d
  let ts := (upto 128).filter (fun t => dieOfTile t == d)
  let s := ts.foldl (fun s t => match s.tileCmd t with | some cid => s.endCmd cid 6 d ts false | none => s) s
  ((s.unitWorkOn d).foldl (fun s cid => s.endCmd cid 6 d [] false) s).sendAll.mcAll

/-- STACK_TEMP_SAMPLE: TSTACK in 0.25 °C against the thresholds of Table 13.4. -/
def execStackTempSample (die : Nat) (tstack : Int) (s : State) : Host.Outcome State Fault Refusal :=
  run (Instr.wf (.stackTempSample die tstack)) s (fun s =>
    let s :=
      if !nth s.memc.refresh die false && 340 ≤ tstack then
        (({ s with memc := { s.memc with refresh := updAt s.memc.refresh die (fun _ => true) } }.setThm die 0 true).heatBlot die 0x0104 tstack 0)
      else if nth s.memc.refresh die false && tstack < 328 then
        (({ s with memc := { s.memc with refresh := updAt s.memc.refresh die (fun _ => false) } }.setThm die 0 false).heatBlot die 0x0107 tstack 0)
      else s
    let capped := (nth s.memc.cap die none).isSome || nth s.memc.capDue die false
    let s :=
      if !capped && 380 ≤ tstack then
        let s := s.setThm die 1 true
        if (s.diePace die).windows = 0 then { s with memc := { s.memc with capDue := updAt s.memc.capDue die (fun _ => true) } }
        else s.applyCap die (s.diePace die).meas tstack
      else if capped && tstack < 368 then
        let s := { s with memc := { s.memc with cap := updAt s.memc.cap die (fun _ => none), capDue := updAt s.memc.capDue die (fun _ => false) } }
        (((s.setField (paceBase die) 30 30 0).setThm die 1 false).heatBlot die 0x0107 tstack 0)
      else s
    if !nth s.memc.halt die false && 420 ≤ tstack then ((s.haltDie die).heatBlot die 0x0106 tstack 0).hotPin
    else if nth s.memc.halt die false && tstack < 400 then
      let s := { s with memc := { s.memc with halt := updAt s.memc.halt die (fun _ => false) } }
      (((s.setThm die 2 false).heatBlot die 0x0107 tstack 0).placeAll).hotPin
    else s.hotPin)

end Sys2Proof.Machine
end

