-- ==== Sys2Proof/Machine/Faults.lean ====
section
/-!
DEFINITION. Blot rings as software drives them, probe kernels, the suspect procedure and the hand-over of the lead die nib (20).
-/
namespace Sys2Proof.Machine

/-! ## Rings (R456, R459, R460) -/

/-- Setting EN of ring `r`: SEQ, HEAD and TAIL start at 0. -/
def State.enableRing (s : State) (r : Nat) : State :=
  if s.ringOn r then s
  else
    let s := (s.setField (ringReg r + 8) 0 0 1).setReg (ringReg r + 0xC) 0
    s.updRing r (fun g => { g with k := 0, released := 0 })

/-- Clearing EN of ring `r`: writes stop at once, and the records it held are lost. -/
def State.disableRing (s : State) (r : Nat) : State :=
  let held := (s.ring r).held
  let s := (s.setField (ringReg r + 8) 0 0 0).updRing r (fun g => { g with held := [] })
  held.foldl (fun s b => s.ringLose r b) s

/-- BLOT_RING_ENABLE: EN of a ring is set. -/
def execBlotRingEnable (port ring : Nat) (s : State) : Host.Outcome State Fault Refusal :=
  run (Instr.wf (.blotRingEnable port ring)) s (fun s => if s.regsOpen then s.enableRing ring else s)

/-- FLT_HEAD_WRITE: records are released; held ones, then BLOTS_LOST, are written into the room. -/
def execFltHeadWrite (port ring value : Nat) (s : State) : Host.Outcome State Fault Refusal :=
  run (Instr.wf (.fltHeadWrite port ring value)) s (fun s =>
    let n := ringSize ring
    let head := bits value 11 0
    let g := s.ring ring
    let rel := (head + n - s.reg (ringReg ring + 0xC)) % n
    if !s.regsOpen then s
    else if n ≤ head || g.k - g.released < rel then s.barError port (ringReg ring + 0xC) 4 (trunc 32 value)
    else ((s.setReg (ringReg ring + 0xC) head).updRing ring (fun g => { g with released := g.released + rel })).ringFlush 4200 ring)

/-- FLT_OVF_CLEAR: the overflow counters and kept records of the selected ring are cleared. -/
def execFltOvfClear (port value : Nat) (s : State) : Host.Outcome State Fault Refusal :=
  run (Instr.wf (.fltOvfClear port value)) s (fun s =>
    if !s.regsOpen || !bit value 0 then s
    else { s with flt := { s.flt with ovf := s.flt.ovf.filter (fun e => e.1 / 65536 != s.field 0x30400 20 16) } })

/-! ## Probe kernels (R463-R465) -/

/-- Bits of the probe sets a unit of this kind has (Table 20.5): 0 to 5 a tile, 6 a table engine, 7 the update and reduction units of
a die, 8 its Saffron unit. -/
def setsOf (kind : Nat) : Nat := nth [0, 0x3F, 0x18, 0x40, 0x180] kind 0

/-- A probe added to those that wait or run. -/
def State.addProbe (s : State) (p : Probe) : State := { s with flt := { s.flt with probes := s.flt.probes ++ [p] } }

/-- A unit has a probe waiting or running. -/
def State.probing (s : State) (kind num : Nat) : Bool := s.flt.probes.any (fun p => p.kind == kind && p.num == num)

/-- A die unit holds no work: unit 1 update (with the reduction unit), 3 Saffron. -/
def State.dieUnitIdle (s : State) (num : Nat) : Bool :=
  let d := num % 8
  if num / 16 = 3 then s.units.ses.all (fun e => !e.2.onDie d)
  else s.units.upd.all (fun e => !e.2.onDie d) && s.units.red.isEmpty

/-- The unit may run probes now: a tile without a task, a shared unit without work. -/
def State.probeFree (s : State) (kind num : Nat) : Bool :=
  if kind = 4 then s.dieUnitIdle num else kind != 0 && s.unitIdle (kind - 1) num

/-- Sets 0 to 5 on a tile. -/
def State.probeTile (s : State) (t why : Nat) : State :=
  if (s.tile t).task.isSome || s.tileConfined t || s.tileRetired t || s.probing 1 t then s else s.addProbe ⟨1, t, 0x3F, why⟩

/-- PROBE_SAMPLE_DUE: every 2^SAMPLE_LOG2-th launch that ends on a tile, while SAMPLE_EN is 1 (R464). -/
def execProbeSampleDue (t : Nat) (s : State) : Host.Outcome State Fault Refusal :=
  run (Instr.wf (.probeSampleDue t)) s (fun s => if s.probeDue t then s.probeTile t 0 else s)

/-- PROBE_IDLE_TIMER: a tile has run no task for 1 s (R464). -/
def execProbeIdleTimer (t : Nat) (s : State) : Host.Outcome State Fault Refusal :=
  run (Instr.wf (.probeIdleTimer t)) s (fun s => if bit (s.reg 0x30800) 0 then s.probeTile t 1 else s)

/-- Sets `mask` of 6 to 8 on the shared units of die `d`; of its table engines, on those of `engs`. -/
def State.probeShared (s : State) (d mask : Nat) (engs : List Nat) (why : Nat) (idle : Bool) : State :=
  let go (kind num m : Nat) (s : State) : State :=
    if m = 0 || s.probing kind num || (idle && !s.probeFree kind num)
        || (kind = 3 && (s.retired 2 num || s.unitConfined 3 num)) then s else s.addProbe ⟨kind, num, m, why⟩
  let s := engs.foldl (fun s n => go 3 n (mask &&& 0x40) s) s
  go 4 (d + 48) (mask &&& 0x100) (go 4 (d + 16) (mask &&& 0x80) s)

/-- IDLE_UNIT_PROBE: the memory nib of a die probes those of its shared units that are idle, while IDLE_EN is 1 (R465). -/
def execIdleUnitProbe (die : Nat) (s : State) : Host.Outcome State Fault Refusal :=
  run (Instr.wf (.idleUnitProbe die)) s (fun s =>
    if bit (s.reg 0x30800) 8 then s.probeShared die 0x1C0 [2 * die, 2 * die + 1] 1 true else s)

/-- FLT_PROBE_CMD: probe sets on one tile or table engine; BUSY until each has run (R465). -/
def execFltProbeCmd (port value : Nat) (s : State) : Host.Outcome State Fault Refusal :=
  run (Instr.wf (.fltProbeCmd port value)) s (fun s =>
    let kind := bits value 15 12
    let num := bits value 6 0
    let mask := bits value 31 16
    if !s.regsOpen then s
    else if (kind != 1 && kind != 3) || (kind = 3 && 16 ≤ num) || bit (s.reg 0x30808) 0 then s.barError port 0x30804 4 (trunc 32 value)
    else
      let s := s.setReg 0x30808 0
      let s := if kind = 1 then (if mask &&& 0x3F = 0 then s else s.addProbe ⟨1, num, mask &&& 0x3F, 2⟩)
               else s.probeShared (num / 2) (mask &&& 0x1C0) [num] 2 false
      if s.flt.probes.any (fun p => p.why == 2) then s.setField 0x30808 0 0 1 else s)

/-- PROBE_FAIL for each failing set of a mask, with the stage and a mismatched word that is free; `event` counts each as a suspect
event of the unit (R465, R470). -/
def State.probeFails (s : State) (kind num mask stage : Nat) (event : Bool) : State :=
  (bitList 16 mask).foldl (fun s n =>
    let rs := if kind = 4 then s.ringsGPd (num % 8) else s.susRings kind num
    let s := (s.blot { cls := 0x0701, src := ⟨kind, num⟩, detail := [(n, 2), (stage, 1), (trunc 32 s.freeVal, 4)] } rs).useFree
    if event && kind != 4 then s.suspect kind num 0x0701 else s) s

/-- Probe sets counted: `runs` sets run, `fails` failed. -/
def State.countProbes (s : State) (runs fails : Nat) : State := (s.bump 0x30810 64 runs).bump 0x30818 32 fails

/-- PROBE_COMPLETE: a probe run ends; `failed` is the mask of the sets that failed. -/
def execProbeComplete (kind num failed : Nat) (s : State) : Host.Outcome State Fault Refusal :=
  run (Instr.wf (.probeComplete kind num failed)) s (fun s =>
    match s.flt.probes.find? (fun p => p.kind == kind && p.num == num) with
    | none => s
    | some p =>
      if !s.probeFree kind num then s
      else
        let bad := failed &&& p.sets
        let s := { s with flt := { s.flt with probes := s.flt.probes.erase p } }
        let s := s.countProbes (popCount 16 p.sets) (popCount 16 bad)
        let s := if p.why = 0 then { s with flt := { s.flt with launches := Tbl.set 0 s.flt.launches num 0 } } else s
        let s := s.probeFails kind num bad ((s.susUnit kind num).kept.getD 0) true
        let s := if p.why != 2 then s
          else
            let s := s.setReg 0x30808 (s.reg 0x30808 ||| (bad * 65536))
            if s.flt.probes.any (fun q => q.why == 2) then s else s.setField 0x30808 0 0 0
        s.placeAll)

/-! ## The suspect procedure (R471-R474) -/

/-- The unit leaves the procedure, and the next of its die begins. -/
def State.procEnds (s : State) (u : Suspect) : State :=
  let rest := s.flt.suspects.filter (fun x => !(x.kind == u.kind && x.num == u.num))
  let d := dieOfUnit u.kind u.num
  let next := rest.find? (fun x => dieOfUnit x.kind x.num == d)
  { s with flt := { s.flt with suspects := rest.map (fun x => if some x == next then { x with running := true } else x) } }

/-- The tiles of a unit. -/
def unitTiles (kind num : Nat) : List Nat :=
  if kind = 1 then [num] else if kind = 2 then (upto 4).map (fun i => 4 * num + i) else []

/-- The unit restored at its stage (R471, R472): it keeps the stage, and R124's bar ends. -/
def State.restoreUnit (s : State) (u : Suspect) : State :=
  let s := (s.updSus u.kind u.num (fun x => { x with kept := some u.stage })).procEnds u
  let s := (unitTiles u.kind u.num).foldl (fun s t => s.updTile t (fun x => { x with reprobe := false })) s
  (s.blot { cls := 0x0704, src := ⟨u.kind, u.num⟩, detail := [(u.stage, 1), (stageMargin u.stage, 1), (stageCap u.stage, 2)] }
    (s.susRings u.kind u.num)).placeAll

/-- The unit retired (R473): by a REPAIR folio of the lead die nib, whose digest is free, or left RETIRE_PENDING. -/
def State.retireSuspect (s : State) (u : Suspect) : State :=
  let s := s.procEnds u
  if bit (s.reg 0x30C00) 0 then
    let before := s
    let s := ((s.chained s.freeVal).useFree.measChanged before).setField 0x20000 0 0 1
    let s := if s.folio.op.isNone then s.folioStatus 3 0 else s
    s.retireNow (u.kind - 1) u.num u.cls
  else
    let s := s.updSus u.kind u.num (fun x => { x with pending := true })
    s.blot { cls := 0x0705, src := ⟨u.kind, u.num⟩, detail := [(u.kind - 1, 1), (u.num, 2), (u.cls, 4)] } (s.susRings u.kind u.num)

/-- SUSPECT_STAGE_COMPLETE: the three probe runs of the stage end; `failed` is the mask of the sets that failed in any of them. The
procedure waits while the die is halted, and until the unit runs no task. -/
def execSuspectStageComplete (die failed : Nat) (s : State) : Host.Outcome State Fault Refusal :=
  run (Instr.wf (.suspectStageComplete die failed)) s (fun s =>
    match s.flt.suspects.find? (fun u => u.running && dieOfUnit u.kind u.num == die) with
    | none => s
    | some u =>
      if nth s.memc.halt die false || !s.unitIdle (u.kind - 1) u.num then s
      else
        let bad := failed &&& setsOf u.kind
        let s := if u.stage < 7 then
            (s.countProbes (3 * popCount 16 (setsOf u.kind)) (popCount 16 bad)).probeFails u.kind u.num bad u.stage false
          else s
        if s.field 0x30C00 4 1 ≤ s.strikes u.kind u.num then s.retireSuspect u
        else if u.stage < 7 && bad = 0 then s.restoreUnit u
        else match nextStage u.kind (u.stage + 1) with
          | some st =>
            { s with flt := { s.flt with suspects := s.flt.suspects.map (fun x => if x == u then { x with stage := st } else x) } }
          | none => s.retireSuspect u)

/-! ## Hand-over of the lead die nib (R475, R476) -/

/-- HEARTBEAT_WRITE: the lead die nib writes its heartbeat. -/
def execHeartbeatWrite (s : State) : Host.Outcome State Fault Refusal :=
  run (Instr.wf .heartbeatWrite) s (fun s => { s with flt := { s.flt with beatAt := s.time } })

/-- The folio operation and the administration commands in progress fail at a hand-over (R476). -/
def State.failAdmin (s : State) : State :=
  let s := match s.folio.op with
    | none => s
    | some o =>
      if o.op = 4 || o.phase = 0 then s.folioEnd o 0xE
      else if o.op = 3 then { s with flt := { s.flt with retiring := [] } }.folioEnd o 0xE
      else { s with folio := { s.folio with op := some { o with fail := true } } }
  let busy := match s.folio.op with | some o => o.slot.isNone | none => false
  let cid := match s.folio.op with | some o => o.cid | none => 0
  ((s.queueCmds 0).filter (fun c => (s.cmd c).st == .running && !(busy && c == cid))).foldl (fun s c => s.finish c 8 8) s

/-- HEARTBEAT_TIMEOUT: ten heartbeats are missing, and the die nib of C4 takes the lead until the next start. -/
def execHeartbeatTimeout (s : State) : Host.Outcome State Fault Refusal :=
  run (Instr.wf .heartbeatTimeout) s (fun s =>
    if s.stage != 6 || s.leadDie = 4 || s.time < s.flt.beatAt + 1000000 then s
    else
      let s := s.setField 0x800000 5 5 1
      let s := { s with pace := { s.pace with syncs := 0 } }
      (s.blot { cls := 0x0108, src := ⟨5, 4⟩, detail := [(0, 1), (4, 1)] } [ringG]).failAdmin)

end Sys2Proof.Machine
end

