-- ==== Sys2Proof/Machine/Matrix.lean ====
section
/-!
DEFINITION. The matrix engines (05): steps, the checksum slice, drains and the checksum test register.
-/
namespace Sys2Proof.Machine

/-! ## Operand lines -/

/-- Every quarter of a presented line has been read. -/
def PLine.complete (l : PLine) : Bool := l.quarters.all (·.isSome)

/-- The bytes of a complete line. -/
def PLine.bytes (l : PLine) : List Nat := (l.quarters.map (fun q => q.getD [])).flatten

/-- The scale lane of a line. -/
def PLine.lane (l : PLine) : List Nat := l.scales.flatten

/-- A line of the length its class reads; what a shorter line lacks is a free value (log entry 3). -/
def padLine (s : State) (n : Nat) (l : List Nat) : List Nat :=
  l.take n ++ (upto (n - l.length)).map (fun i => Config.freeValue (s.free + i) % 256)

/-- The operand matrix of a line (R106, R83): element (r, k) under its scale, 127 (2^0) where its channel gives no scale lane (log entry 211). -/
def operand (cls f gs : Nat) (line lane : List Nat) : List (List NumVal) :=
  (upto 16).map (fun r => (upto (kappa cls)).map (fun k => scaleNum gs (nth lane r 127) (decodeNum f (lineElem cls f line r k))))

/-- What one product group brings to each accumulator, index 16i + j (R98, R103). -/
def groupContribs (f : Nat) (comp : Bool) (a b : List (List NumVal)) : List (Nat × Contrib) :=
  ((upto 16).map (fun i => (upto 16).map (fun j =>
    (16 * i + j, ((nth a i []).zip (nth b j [])).foldl (fun c p => c.term f comp p.1 p.2) {})))).flatten

/-! ## A step (R110, R117, R121-R124) -/

/-- The bank image at a scratch address, read through the swizzle of the engine's collect channel (log entry 24). -/
def State.imageAt (s : State) (t e a : Nat) : List Byte :=
  ((s.tile t).scrRead (s.chan t (6 * e + 4)).swz a 4224).map (BitVec.ofNat 8)

/-- The heads of the two feeders of engine `e`, when both present a complete line. -/
def State.feeders (s : State) (t e : Nat) : Option (PLine × PLine) :=
  match ((s.chan t (6 * e + 1)).lines).head?, ((s.chan t (6 * e + 3)).lines).head? with
  | some a, some b => if a.complete && b.complete then some (a, b) else none
  | _, _ => none

/-- The consumer takes the head line of a present channel. -/
def State.popLine (s : State) (t c : Nat) : State := s.updChan t c (fun ch => { ch with lines := ch.lines.drop 1 })

/-- ARRAY_CHECKSUM on engine `e` (R124): captured, counted, written; the launch ends with DATA_ERROR and the tile is barred. -/
def State.checksumFail (s : State) (t e bank cols : Nat) (injected : Bool) : State :=
  let r := engBase t e
  let cid := (s.tileCmd t).getD 0
  let s := s.bump (r + 0x28) 32 1
  let g := (s.tile t).engine e
  let part := (s.cmd cid).part
  let cap0 := g.group % 2 ^ 32 * 2 ^ 32 + cols * 2 ^ 16 + b2n injected * 2 + 1
  let cap1 := part.getD 0 * 2 ^ 36 + (cmdName cid).1 * 2 ^ 24 + bank * 2 ^ 23 + (cmdName cid).2
  let s := if bit (s.reg (r + 0x18)) 0 then s else (s.setReg (r + 0x18) cap0).setReg (r + 0x20) cap1
  let s := s.blotCmd cid 0x0301 ⟨1, t⟩ 0 [(e, 1), (s.reg (r + 0x18), 8), (s.reg (r + 0x20), 8)] true
  let s := s.updTile t (fun x => { x with reprobe := true })
  (s.endCmd cid 3 1 [t] false).suspect 1 t 0x0301

/-- The columns a group skips (R123), as a mask. -/
def skippedCols (cs : List (Nat × Contrib)) : Nat :=
  (upto 16).foldl (fun m j => if cs.any (fun c => c.1 % 16 == j && c.2.nonfinite) then m + 2 ^ j else m) 0

/-- Whether some s[k] of a group is not exact in 96 bits (R122). -/
def groupApprox (a : List (List NumVal)) (kap : Nat) : Bool :=
  (upto kap).any (fun k => !colSumExact (a.map (fun row => nth row k NumVal.zero)))

/-- The bank a step starts from: cleared, loaded from an image, or as it is (R117). -/
def State.stepBank (s : State) (t e bank : Nat) (clr : Bool) (image : Option Nat) : Bank :=
  match image with
  | some a => bankOfImage (s.imageAt t e a)
  | none => if clr then Bank.clear else nth ((s.tile t).engine e).banks bank Bank.clear

/-- The group enters the bank (R95-R98); its flags and a first NaN are recorded. -/
def State.accumulate (s : State) (t e bank steps : Nat) (b : Bank) (cs : List (Nat × Contrib)) : State :=
  let g := ((s.tile t).engine e).group
  let r := b.addGroup steps cs
  let s := (s.updEng t e (fun x => { x with banks := updAt x.banks bank (fun _ => r.bank), owners := updAt x.owners bank (fun _ => 1),
                                            group := x.group + 1 })).raiseEng t e r.flags
  match r.firstNan with
  | some (i, k) => s.firstInvalid t e bank g i k.code
  | none => s

/-- The contributions of a group as the array formed them: `wrong` lists accumulators and by how much theirs is wrong. -/
def withErrors (wrong : List (Nat × Int × Int)) (cs : List (Nat × Contrib)) : List (Nat × Contrib) :=
  cs.map (fun c => (c.1, (wrong.filter (·.1 == c.1)).foldl (fun x w => x.wrongBy w.2.1 w.2.2) c.2))

/-- The columns that the checksum slice finds wrong (R121), but for those it skips (R123), as a mask. -/
def mismatches (cls : Nat) (comp : Bool) (a b : List (List NumVal)) (skip : Nat) (cs : List (Nat × Contrib)) : Nat :=
  (upto 16).foldl (fun m j => if !bit skip j && chkMismatch cls comp a b cs j then m + 2 ^ j else m) 0

/-- One product group of engine `e` with both lines present. An armed injection changes a product by its leading bit, which the slice
always finds (R129); an error that it does not find enters the bank (R125). -/
def State.engineStep (s : State) (t e bank : Nat) (clr : Bool) (image : Option Nat) (wrong : List (Nat × Int × Int)) (la lb : PLine) : State :=
  let w := s.reg (engBase t e)
  let fa := bits w 3 0
  let fb := bits w 7 4
  let cls := widthClass fa
  let a := operand cls fa (bits w 15 8) (padLine s (lineBytes cls) la.bytes) la.lane
  let b := operand cls fb (bits w 23 16) (padLine s (lineBytes cls) lb.bytes) lb.lane
  let good := groupContribs fa (bit w 30) a b
  let cs := withErrors wrong good
  let skip := skippedCols good
  let eng := (s.tile t).engine e
  let s := (s.popLine t (6 * e + 1)).popLine t (6 * e + 3)
  let s := { s with free := s.free + 128 }
  let s := (s.chargeStall t eng.stall).updEng t e (fun x => { x with stall := none, inject := none })
  let s := s.bump (engBase t e + 0x10) 64 (stepsPerGroup cls)
  let s := if groupApprox a (kappa cls) then s.bump (engBase t e + 0x2C) 32 1 else s
  let s := s.bump (engBase t e + 0x30) 32 (popCount 16 skip)
  let inj := match eng.inject with | some (_, j) => if bit skip j then 0 else 2 ^ j | none => 0
  let bad := mismatches cls (bit w 30) a b skip cs ||| inj
  if bad != 0 then s.checksumFail t e bank bad (inj != 0)
  else s.accumulate t e bank (stepsPerGroup cls) (s.stepBank t e bank clr image) cs

/-- ENGINE_STEP: one product group issues when both feeders present their lines and the bank is available; otherwise the
engine waits (R110, R114). `wrong` lists accumulators (16 × row + column) whose contributions the array forms wrong, and by what exact number z × 2^e. -/
def execEngineStep (t e bank : Nat) (clr : Bool) (image : Option Nat) (wrong : List (Nat × Int × Int)) (s : State) : Host.Outcome State Fault Refusal :=
  run (Instr.wf (.engineStep t e bank clr image wrong)) s (fun s =>
    let eng := (s.tile t).engine e
    if !s.tileRuns t || !eng.busy then s
    else match s.feeders t e with
      | none =>
        let c := if ((s.chan t (6 * e + 1)).lines.head?.map (·.complete)).getD false then 6 * e + 3 else 6 * e + 1
        s.updEng t e (fun x => { x with stall := noteStall s x.stall (s.chanCause t c 5) })
      | some (la, lb) =>
        if 2 ≤ nth eng.owners bank 0 then s.updEng t e (fun x => { x with stall := noteStall s x.stall 1 })
        else match image with
          | some a =>
            if decide (scratchSize < a + 4224) || !imageOk (s.imageAt t e a) then
              (match s.tileCmd t with | some cid => s.endCmd cid 8 7 [t] false | none => s)
            else s.engineStep t e bank clr image wrong la lb
          | none => s.engineStep t e bank clr image wrong la lb)

/-! ## Drains (R114, R118, R119) -/

/-- Elements packed under R75: two 4-bit elements to a byte, every other format in whole bytes. -/
def packRow (f : Nat) (xs : List Nat) : List Nat :=
  if fmtBits f = 4 then
    (upto ((xs.length + 1) / 2)).map (fun i => nth xs (2 * i) 0 % 16 + 16 * (nth xs (2 * i + 1) 0 % 16))
  else (xs.map (natBytes (fmtBytes f))).flatten

/-- One row of a bank converted (R99): the conversions of its 16 accumulators. -/
def drainRow (b : Bank) (f : Nat) (ovf : Bool) (i : Nat) : List Cvt :=
  (upto 16).map (fun j => cvtNum f ovf .rne ((b.get (16 * i + j)).toNum b.anchor))

/-- The items of a drain: sixteen converted rows, or a bank image in 33 lines of 128 bytes. -/
def drainItems (b : Bank) (w : Nat) : List OutItem :=
  if bit w 31 then
    let img := b.image.map (·.toNat)
    (upto 33).map (fun i => { data := (img.drop (128 * i)).take 128 })
  else (upto 16).map (fun i => { data := packRow (bits w 27 24) ((drainRow b (bits w 27 24) (bit w 28) i).map (·.val)) })

/-- The flags and saturations of a converted drain; none of a raw one. -/
def drainNotes (b : Bank) (w : Nat) : Nat × Nat :=
  if bit w 31 then (0, 0)
  else
    let cs := ((upto 16).map (drainRow b (bits w 27 24) (bit w 28))).flatten
    (cs.foldl (fun f c => f ||| c.flags) 0, (cs.filter (·.sat)).length)

/-- ACC_PARITY on a read of a bank (R119): the launch ends as R124 describes. -/
def State.parityFail (s : State) (t e bank i : Nat) : State :=
  let cid := (s.tileCmd t).getD 0
  let s := s.blotCmd cid 0x0302 ⟨1, t⟩ 0 [(e, 1), (bank, 1), (i / 16 % 16, 1), (i % 16, 1)] true
  let s := s.updTile t (fun x => { x with reprobe := true })
  (s.endCmd cid 3 3 [t] false).suspect 1 t 0x0302

/-- BANK_DRAIN: a drain starts when the bank is not claimed and the collect buffer has room for all of it; `parity` is the
first accumulator whose parity fails. The bank is left as it is, and free. -/
def execBankDrain (t e bank : Nat) (parity : Option Nat) (s : State) : Host.Outcome State Fault Refusal :=
  run (Instr.wf (.bankDrain t e bank parity)) s (fun s =>
    let eng := (s.tile t).engine e
    if !s.tileRuns t || !eng.busy then s
    else
      let w := s.reg (engBase t e)
      let b := nth eng.banks bank Bank.clear
      let items := drainItems b w
      let ch := s.chan t (6 * e + 4)
      if 2 ≤ nth eng.owners bank 0 then s.updEng t e (fun x => { x with dstall := noteStall s x.dstall 1 })
      else if 33 < ch.items.length + items.length then
        s.updEng t e (fun x => { x with dstall := noteStall s x.dstall (s.chanCause t (6 * e + 4) 6) })
      else
        let s := (s.chargeStall t eng.dstall).updEng t e (fun x => { x with dstall := none })
        match parity with
        | some i => s.parityFail t e bank i
        | none =>
          let n := drainNotes b w
          let s := (s.raiseEng t e n.1).saturate t n.2
          let s := s.updEng t e (fun x => { x with owners := updAt x.owners bank (fun _ => 0) })
          s.updChan t (6 * e + 4) (fun ch => { ch with items := ch.items ++ items }))

/-! ## The checksum test register (R129) -/

/-- CHK_TEST_WRITE: taken only while the tile is idle or runs probe kernels. -/
def execChkTestWrite (port t e value : Nat) (s : State) : Host.Outcome State Fault Refusal :=
  run (Instr.wf (.chkTestWrite port t e value)) s (fun s =>
    if !s.regsOpen then s
    else if (s.tile t).task.isNone then
      s.updEng t e (fun x => { x with inject := if bit value 8 then some (bits value 7 4, bits value 3 0) else none })
    else s.barError port (engBase t e + 0x40) 4 (trunc 32 value))

end Sys2Proof.Machine
end

