-- ==== Sys2Proof/Machine/Record.lean ====
section
/-!
DEFINITION. How a command is completed: the end of its fence (14, R315), what is checked there (R142, R246, R468), its completion record
(16, R363-R365), and the MSI-X messages (14, R316, R319, R320).
-/
namespace Sys2Proof.Machine

/-! ## The end of the fence -/

/-- A write of command `cid`, or a packet of it on the wire, is not complete (R315, R423). -/
def State.fenceOpen (s : State) (cid : Nat) : Bool :=
  s.host.goWait.any (fun w => w.cids.contains cid) || s.host.biWait.any (fun w => w.cid == some cid) || s.quillPending cid

/-- The die whose front end writes the records of a queue: the home die of its partition, or the lead die. -/
def State.queueDie (s : State) (q : Nat) : Nat := ((s.queue q).part.bind (fun p => s.homeDie p)).getD s.leadDie

/-- CALIBRATION_DRIFT (R142). -/
def State.drift (s : State) (cid : Nat) : State :=
  let c := s.cmd cid
  match c.part with
  | none => s
  | some p =>
    let lim := s.reg (0x20118 + 0x20 * p)
    if bit lim 31 && bits lim 23 0 < c.sats then
      let s := s.blotCmd cid 0x0304 ⟨8, s.queueDie c.queue⟩ 0 [(min c.sats (2 ^ 32 - 1), 4), (bits lim 23 0, 4)] false
      (s.bump (0x2011C + 0x20 * p) 32 1).updCmd cid (fun c => { c with numsum := c.numsum ||| 2 ^ 11 })
    else s

/-- The digest of a task and channel; 0 where it wrote nothing. -/
def digestOf (l : List ((Nat × Nat) × Nat)) (k : Nat × Nat) : Nat := ((l.find? (fun e => e.1 == k)).map (·.2)).getD 0

/-- The digests of a launch and its shadow compared (R468). The first differing write of a mismatch is a free value: digests do not tell
it (log entry 41). -/
def State.shadowCompare (s : State) (cid : Nat) : State :=
  match s.flt.shadows.find? (fun w => w.cid == cid) with
  | none => s
  | some w =>
    let c := s.cmd cid
    let p := c.part.getD 0
    let s := { s with flt := { s.flt with shadows := s.flt.shadows.filter (fun x => x.cid != cid) } }
    let s := s.bump (0x30910 + 0x20 * p) 64 1
    let keys := ((upto 8).map (fun k => (upto 16).map (fun h => (k, h)))).flatten
    match keys.find? (fun k => digestOf w.prim k != digestOf w.shad k) with
    | none => s
    | some k =>
      let a := nth c.tiles k.1 0
      let b := nth c.shadow k.1 0
      let s := s.blotCmd cid 0x0702 ⟨8, s.queueDie c.queue⟩ 0 [(a, 1), (b, 1), (k.1, 1), (k.2, 1), (s.freeVal % 2 ^ 64, 8)] true
      ((s.useFree.bump (0x30918 + 0x20 * p) 32 1).suspect 1 a 0x0702).suspect 1 b 0x0702

/-- FENCE_COMPLETE: a replay starts, or the command is over but for its record (R284, R315). -/
def execFenceComplete (queue seq : Nat) (s : State) : Host.Outcome State Fault Refusal :=
  run (Instr.wf (.fenceComplete queue seq)) s (fun s =>
    let cid := cidOf queue seq
    if (s.cmd cid).st != .fencing || s.fenceOpen cid then s
    else if (s.cmd cid).replay then
      let s := { s with flt := { s.flt with shadows := s.flt.shadows.filter (fun x => x.cid != cid) } }
      (s.updCmd cid (fun c => { c with st := .ready, replay := false, firstStep := none, numsum := c.lookSum, sats := c.lookSats,
                                       winDone := 0, tiles := [], shadow := [] })).placeFor cid
    else
      let s := ((s.drift cid).shadowCompare cid).releaseHolds cid
      s.updCmd cid (fun c => { c with st := .fenced, tEnd := s.time, fenceWin := s.pace.windows }))

/-! ## The record (R363-R365) -/

/-- STATUS and DETAIL of a command (R35, R364). -/
def State.statusOf (s : State) (cid : Nat) (pace : Bool) : Nat × Nat :=
  let c := s.cmd cid
  let strict := match c.part.bind (fun p => cfgPart s.folio.active p) with | some r => bit (r.f 8 4) 0 | none => false
  match c.cause with
  | some (n + 1, d) => (n + 1, d)
  | some (0, d) => if pace && strict then (7, 0) else (0, d)
  | none => if pace && strict then (7, 0) else (0, 0)

/-- The pace-guarantee flag of a launch (R35). -/
def Cmd.paceFlag (c : Cmd) : Bool := c.opcode == 1 && c.dies &&& c.lost != 0

/-- WAIT_NS. -/
def Cmd.waitNs (c : Cmd) : Nat := min (c.firstEver.getD c.tEnd - c.checked) (2 ^ 32 - 1)

/-- The completion record of a command as the `k`-th of its queue. -/
def State.recordOf (s : State) (cid : Nat) : CRec :=
  let c := s.cmd cid
  let x := s.queue c.queue
  let st := s.statusOf cid c.paceFlag
  { seq := c.seq, phase := x.k / x.size % 2 == 0, status := st.1, pace := c.paceFlag, replayed := c.replayed, child := c.parent.isSome,
    numsum := numsumOf c.numsum c.sats, waitNs := c.waitNs, preempts := c.preempts, detail := st.2, tStart := c.firstStep.getD 0, tEnd := c.tEnd }

/-- A record that explains why the command ends is still held (R458). -/
def State.blotHeld (s : State) (cid : Nat) : Bool :=
  s.flt.rings.any (fun e => s.ringOn e.1 && e.2.held.any (fun b => b.cmd == some (cmdName cid)))

/-- An unwritable record (R365); in DRAINING it is discarded (R370). -/
def State.unwritable (s : State) (cid : Nat) (r : CRec) : State :=
  let q := (s.cmd cid).queue
  let x := s.queue q
  let b := qdbBase q
  if x.st = 4 then s.updQueue q (fun x => { x with discarded := x.discarded + 1 })
  else
    let fb := s.reg (b + 0x48)
    let kept := !bit fb 0
    let bytes := r.bytes
    let s := if kept then
        ((upto 4).foldl (fun s i => s.setReg (b + 0x28 + 8 * i) (ofBytes ((bytes.drop (8 * i)).take 8))) s).setReg (b + 0x48) (setBit fb 0 true)
      else s
    let s := if x.st = 3 || !kept then (s.bump (b + 0x18) 32 1).setReg (b + 0x48) (setBits (s.reg (b + 0x48)) 23 1 r.seq) else s
    let s := s.blotCmd cid 0x0506 ⟨8, s.queueDie q⟩ 0 [(b2n kept, 1)] true
    if q = 0 then s else s.updQueue q (fun x => { x with st := 3 })

/-- A record written to its ring; its message is due where it asks for one (R316, R320). -/
def State.putRecord (s : State) (cid : Nat) (r : CRec) : State :=
  let c := s.cmd cid
  let x := s.queue c.queue
  let s := s.emit (.record c.queue (x.k % x.size) (x.cq + 32 * (x.k % x.size)) r)
  let s := s.updQueue c.queue (fun x => { x with k := x.k + 1 })
  if bit c.flags 1 && x.vector != 0xFFFF then s.msixDue (s.queueDie c.queue) x.vector else s

/-- What COMPLETION_RECORD_WRITE does once what it moves is admitted and the host has released what it writes. -/
def State.doCompletionRecordWrite (s : State) (queue seq : Nat) (written : Bool) : State :=
  let cid := cidOf queue seq
  let c := s.cmd cid
  let x := s.queue queue
  if c.st != .fenced || s.blotHeld cid || (c.firstEver.isSome && s.pace.windows ≤ c.fenceWin) then s
  else
    let r := s.recordOf cid
    let addr := x.cq + 32 * (x.k % x.size)
    let w := if !written then (s, false)
      else if x.device then s.devPut none addr (r.bytes.map (·.toNat))
      else match s.diePort (s.queueDie queue) with
        | some p => (s.bump (0x320018 + 0x100 * p) 64 64, true)
        | none => (s, false)
    let s := if w.2 then w.1.putRecord cid r else w.1.unwritable cid r
    let s := if c.part.isSome then s.charge c.client c.waitNs c.preNs else s
    let s := s.setCmd cid {}
    (match c.part with | some p => s.place p | none => s).fabGo

/-- COMPLETION_RECORD_WRITE: after the fence, and the windows the launch overlaps, the record is written, and the command is over;
`written` says whether the write to the ring succeeds. -/
def execCompletionRecordWrite (queue seq : Nat) (written : Bool) (s : State) : Host.Outcome State Fault Refusal :=
  runMem (Instr.wf (.completionRecordWrite queue seq written)) [] s (fun s => s.doCompletionRecordWrite queue seq written)

/-! ## MSI-X (R319, R320) -/

/-- Offset of the pending-bit word of a vector. -/
def pbaReg (port v : Nat) : Nat := 0x360000 + 0x100 * port + 8 * (v / 64)

/-- MSIX_SEND: a message that is due is sent, or pends while its vector is masked. -/
def execMsixSend (port vector : Nat) (s : State) : Host.Outcome State Fault Refusal :=
  run (Instr.wf (.msixSend port vector)) s (fun s =>
    if !s.host.msixDue.contains (port, vector) || !s.portUp port then s
    else
      let s := { s with host := { s.host with msixDue := s.host.msixDue.erase (port, vector) } }
      if s.msixMasked port vector then
        let s := { s with host := { s.host with msixPend := s.host.msixPend ++ [(port, vector)] } }
        s.setReg (pbaReg port vector) (setBit (s.reg (pbaReg port vector)) (vector % 64) true)
      else s.emit (.msix port vector))

/-- MSIX_UNMASK: a vector's mask bit is cleared; a pending message is due again. -/
def execMsixUnmask (port vector : Nat) (s : State) : Host.Outcome State Fault Refusal :=
  run (Instr.wf (.msixUnmask port vector)) s (fun s =>
    if !s.regsOpen then s
    else
      let s := s.setField (0x33000C + 0x8000 * port + 16 * vector) 0 0 0
      if s.host.msixPend.contains (port, vector) then
        let s := s.setReg (pbaReg port vector) (setBit (s.reg (pbaReg port vector)) (vector % 64) false)
        let s := { s with host := { s.host with msixPend := s.host.msixPend.erase (port, vector) } }
        if s.portUp port then s.emit (.msix port vector)
        else { s with host := { s.host with msixDue := s.host.msixDue ++ [(port, vector)] } }
      else s)

end Sys2Proof.Machine
end

