-- ==== Sys2Proof/Machine/Regs.lean ====
section
/-!
DEFINITION. What a read of a register shows (21): the registers that mirror typed state are computed here, all others read as stored.
-/
namespace Sys2Proof.Machine

/-- Whether register `k` is an instance at `base + stride * i`, `i < n`. -/
def at? (k base stride n : Nat) : Option Nat :=
  if base ≤ k && (k - base) % stride == 0 && (k - base) / stride < n then some ((k - base) / stride) else none

/-! ## GLB and PACE -/

/-- GLB and PACE: the lines pinned in a cluster cache (R266, R267), TIME and its state (Tables 8.9, 2.8, 2.11). -/
def State.viewGlb (s : State) (k : Nat) : Nat :=
  if k = 0x10008 then s.time
  else if k = 0x10020 then
    8 * b2n s.pace.refLost + 4 * b2n s.pace.slewing + 2 * b2n (s.ptpOn && s.pace.holdover) + b2n (s.ptpOn && s.pace.syncs == 16)
  else match at? k 0x201C 0x20 32 with
    | some cl => (s.pinLines cl).length
    | none => s.reg k

/-! ## PART, FLT and ACCT -/

/-- The selected handle entry's bytes at `off` (Table 16.15). -/
def State.handleWord (s : State) (off : Nat) : Nat :=
  let p := s.field 0x20020 31 28
  let i := s.field 0x20020 23 0
  match s.handleBase p, cfgPart s.folio.active p with
  | some b, some r => if i < r.f 16 4 then s.numDP (b + 16 * i + off) 8 else 0
  | _, _ => 0

/-- STATUS of ring `r` (Table 20.9). -/
def State.ringStatus (s : State) (r : Nat) : Nat :=
  let g := s.ring r
  g.k % ringSize r * 65536 + min g.held.length 16383 * 4 + 2 * b2n (s.ringFull r) + s.field (ringReg r + 0x10) 0 0

/-- The overflow counter that FLT_OVF_SEL selects. -/
def State.ovfSel (s : State) : Ovf := Tbl.get {} s.flt.ovf (s.field 0x30400 20 16 * 65536 + s.field 0x30400 15 0)

/-- Word `i` of a kept record. -/
def ovfWord (o : Ovf) (i : Nat) : Nat :=
  match (if i < 8 then o.first else o.last) with
  | some b => fieldOf (b.bytes.map (·.toNat)) (8 * (i % 8)) 8
  | none => 0

/-- STATUS of the suspect procedure on die `d`. -/
def State.susStatus (s : State) (d : Nat) : Nat :=
  let mine := s.flt.suspects.filter (fun u => dieOfUnit u.kind u.num == d)
  match mine.find? (·.running) with
  | some u => min 255 (mine.length - 1) * 2 ^ 24 + u.kind * 4096 + u.num % 128 * 32 + u.stage % 8 * 4 + 1
  | none => min 255 mine.length * 2 ^ 24

/-- A launch of partition `p` is counted by a predicate. -/
def State.countCmds (s : State) (p : Nat) (f : Cmd → Bool) : Nat := ((s.partCmds p).filter (fun c => f (s.cmd c))).length

/-- ACCT_P_p_STATUS: launches saved, tiles running tasks, launches in the ready list (Table 17.7). -/
def State.acctStatus (s : State) (p : Nat) : Nat :=
  let tiles := ((upto 128).filter (fun t => match s.tileCmd t with | some c => (s.cmd c).part == some p | none => false)).length
  min 255 (s.countCmds p (fun c => c.st == .saved)) * 2 ^ 24 + tiles * 65536 + min 65535 (s.readyList p).length

/-- PART, FLT and ACCT. -/
def State.viewPart (s : State) (k : Nat) : Nat :=
  let part : Option Nat := (at? k 0x20104 0x20 16).map s.clusters
  let ring : Option Nat := if k = 0x30010 then some (s.ringStatus ringG) else (at? k 0x30110 0x20 16).map s.ringStatus
  let rec' : Option Nat := (at? k 0x30440 8 16).map (ovfWord s.ovfSel)
  let sus : Option Nat := ((at? k 0x30C40 0x10 8).map s.susStatus).or ((at? k 0x30C44 0x10 8).map s.margin)
  let acct : Option Nat := (((at? k 0x41000 0x100 16).map s.acctStatus).or
    ((at? k 0x41004 0x100 16).map (fun p => (upto 32).foldl (fun a n => a + 2 ^ n * b2n (s.sem p n).holder.isSome) 0))).or
    (((at? k 0x41008 0x100 16).map (fun p => s.creditPool p - s.creditsUsed p)).or
     ((at? k 0x4101C 0x100 16).map (fun p => s.framesUsed p % 65536 * 65536 + s.frames p % 65536)))
  if k = 0x20010 then counterOf s.flash.folioRows
  else if k = 0x20014 then (upto 16).foldl (fun a p => a + 2 ^ p * b2n (Tbl.get 0 s.sched.bound p != 0)) 0
  else if k = 0x20028 then s.handleWord 0
  else if k = 0x20030 then s.handleWord 8
  else if k = 0x30408 then s.ovfSel.count
  else (((part.or ring).or (rec'.or sus)).or acct).getD (s.reg k)

/-! ## TILE -/

/-- STATUS of a matrix engine (Table 5.10). -/
def State.engStatus (s : State) (t e : Nat) : Nat :=
  let x := (s.tile t).engine e
  let bank (b : Nat) : Nat := match (nth x.banks b Bank.clear).anchor with | some a => ofInt 8 a | none => 0
  let anch (b : Nat) : Nat := b2n (nth x.banks b Bank.clear).anchor.isSome
  bank 1 * 2 ^ 24 + bank 0 * 65536 + nth x.owners 1 0 * 1024 + nth x.owners 0 0 * 256 + anch 1 * 8 + anch 0 * 4
    + 2 * b2n x.stall.isSome + b2n x.busy

/-- VEC_STATUS (Table 7.8); latencies are not modelled, so DEP_WAIT reads 0. -/
def State.vecStatus (s : State) (t : Nat) : Nat :=
  let v := (s.tile t).vec
  v.claims % 16 * 32 + 16 * b2n v.claimWait.isSome + 4 * b2n v.outFull + 2 * b2n v.inEmpty + b2n (s.tileRuns t)

/-- SEL_STATUS (Table 7.9). -/
def State.selStatus (s : State) (t : Nat) : Nat :=
  let x := (s.tile t).sel
  b2n x.ord * 2 ^ 31 + x.k % 2048 * 2 ^ 20 + x.list.length % 2048 * 512 + 256 * b2n x.merging

/-- STATUS of a channel (Table 8.8). -/
def State.strStatus (s : State) (t c : Nat) : Nat :=
  let x := s.chan t c
  let w : Nat := match x.wait with | .no => 0 | .token _ _ => 4 | .data => 2 | .sink => 1
  x.pc % 32 * 2 ^ 27 + b2n x.phase * 2 ^ 26 + x.loops.length % 8 * 2 ^ 23 + w * 2 ^ 20 + ((x.reqs.take 64).filter (fun r => r.st != .new)).length * 4096 + b2n x.active

/-- TILE_t_SUS (Table 20.9). -/
def State.tileSus (s : State) (t : Nat) : Nat :=
  let kept := (s.susUnit 1 t).kept.getD 0
  let st := if s.retired 0 t then 3 else if (s.susUnit 1 t).pending then 2 else b2n (s.flt.suspects.any (fun u => u.kind == 1 && u.num == t))
  stageCap kept * 65536 + min 15 (s.strikes 1 t) * 4096 + kept % 8 * 16 + st

/-- Tokens `lo` to `lo + 7` of a tile. -/
def State.tokenWord (s : State) (t lo : Nat) : Nat := (upto 8).foldl (fun a i => a + nth (s.tile t).tokens (lo + i) 0 % 256 * 256 ^ i) 0

/-- TILE. -/
def State.viewTile (s : State) (k : Nat) : Nat :=
  let t := (k - 0x80000) / 0x1000
  let o := (k - 0x80000) % 0x1000
  if o = 8 then s.engStatus t 0 else if o = 0x108 then s.engStatus t 1
  else if o = 0x200 then s.vecStatus t else if o = 0x210 then s.selStatus t else if o = 0x310 then s.tileSus t
  else if o = 0xB00 then s.tokenWord t 0 else if o = 0xB08 then s.tokenWord t 8
  else if 0x400 ≤ o && o < 0x800 then
    let c := (o - 0x400) / 0x40
    let x := s.chan t c
    match (o - 0x400) % 0x40 with
    | 0 => s.strStatus t c
    | 4 => x.rearms % 2 ^ 32
    | 0x8 => nth x.base 0 0
    | 0x10 => nth x.base 1 0
    | 0x18 => nth x.base 2 0
    | 0x20 => nth x.base 3 0
    | _ => s.reg k
  else s.reg k

/-! ## MEM -/

/-- STATUS of far-memory window `w` (Table 12.7). -/
def State.t3Status (s : State) (w : Nat) : Nat :=
  4 * bits (s.reg (0x106000 + 0x40 * w)) 1 1 + 2 * b2n (s.t3LinkOk w) + b2n (s.t3Defined w)

/-- MEM. -/
def State.viewMem (s : State) (k : Nat) : Nat :=
  if k < 0x104000 then
    let p := (k - 0x100000) / 0x400
    let i := (k - 0x100000) % 0x400 / 0x20
    let slotIn := if i = 16 || i = 17 then i + 10 else i
    match k % 0x20 with
    | 0 => match cfgReg s.folio.active p i with | some r => r.f 4 4 | none => 0
    | 4 => match cfgReg s.folio.active p i with | some r => r.f 8 4 | none => 0
    | 8 => ofInt 32 (s.bucket p i).tokens
    | 0xC => if i = 16 || i = 17 then ofInt 32 (s.bucket p slotIn).tokens else 0
    | 0x18 => satAdd 64 (s.reg k) (match (s.bucket p i).waitFrom with | some t => s.time - t | none => 0)
    | _ => s.reg k
  else if k = 0x109000 then s.memc.pages.length
  else if k = 0x109008 then
    (match s.memc.pages[s.field 0x109004 13 0]? with | some pg => 4096 * pg + 1 | none => 0)
  else
    let mig : Option Nat := ((at? k 0x108004 0x100 8).map (fun d => min 31 (s.migsOn d))).or
      (((at? k 0x108018 0x100 8).map s.heldOn).or ((at? k 0x108020 0x100 8).map s.dirtyOn))
    ((((at? k 0x106010 0x40 8).map s.t3Status).or mig).getD (s.reg k))

/-! ## TE, SES and XLAT -/

/-- A pass holds table engine `n`. -/
def State.teHeld (s : State) (n : Nat) : List Nat :=
  (s.units.te.filter (fun e => e.2.passes.any (fun p => p.started && !p.done && (p.home == n || p.rows.any (fun r => r.eng == n))))).map (·.1)
  ++ (s.units.upd.filter (fun e => e.2.passes.any (fun p => p.st != .waiting && p.st != .done && (p.home == n || p.rows.any (fun r => r.eng == n))))).map (·.1)

/-- Commands with a pass that waits for the engines of die `n / 2`. -/
def State.teWaiting (s : State) (n : Nat) : List Nat :=
  (s.units.te.filter (fun e => e.2.die == n / 2 && e.2.passes.any (fun p => !p.started && !p.done))).map (·.1)
  ++ (s.units.upd.filter (fun e => e.2.die == n / 2 && e.2.passes.any (fun p => p.st == .waiting))).map (·.1)

/-- STATUS of table engine `n` (Table 9.14): the partition served is that of the first pass held (log entry 45). -/
def State.teStatus (s : State) (n : Nat) : Nat :=
  let held := s.teHeld n
  let part (c : Nat) : Nat := (s.cmd c).part.getD 0
  let q := (upto 16).foldl (fun a p => a + 2 ^ p * b2n ((held ++ s.teWaiting n).any (fun c => part c == p))) 0
  let serve := match held.head? with | some c => part c | none => 0
  q * 65536 + serve * 4096 + min 8 (s.tePasses n) * 256 + 2 * b2n (s.retired 2 n) + b2n (!held.isEmpty)

/-- TE_TAB_EPOCH of table `t`: 0 for a table that is not VERSIONED (Table 10.12); FLAGS lie at byte 31 of its record. -/
def State.epochShown (s : State) (t : Nat) : Nat :=
  match cfgTable s.folio.active t with
  | some r => if bit (r.f 31 1) 0 then (s.tab t).epoch else 0
  | none => 0

/-- TE, SES and XLAT. -/
def State.viewTe (s : State) (k : Nat) : Nat :=
  if k = 0x200054 then s.epochShown (s.field 0x200008 15 0)
  else if 0x200010 ≤ k && k < 0x200068 then s.reg (selKey k (s.field 0x200008 15 0))
  else if k = 0x300004 then 2 * b2n (bit (s.reg 0x300000) 0 && !s.units.sweeping.isEmpty) + b2n s.saffronOn
  else if k = 0x310010 then b2n s.xlat.flush.isSome
  else if 0x202040 ≤ k && k < 0x203000 && 0x40 ≤ k % 0x100 && k % 0x100 < 0x80 then
    let p := (k % 0x100 - 0x40) / 4
    ((s.hot ((k - 0x202000) / 0x100)).filter (fun h => h.part == p)).length
  else match at? k 0x201000 0x100 16, at? k 0x310408 0x40 2 with
    | some n, _ => s.teStatus n
    | none, some p => (s.xlat.prs.filter (fun q => q.port == p)).length
    | none, none => s.reg k

/-! ## HOST and FAB -/

/-- HOST: BIAS_STATUS shows a flip in progress. -/
def State.viewHost (s : State) (k : Nat) : Nat :=
  if k = 0x32204C then s.field k 1 1 * 2 + b2n s.host.flip.isSome else s.reg k

/-- The selected flow's status (Table 18.11). -/
def State.flowStatus (s : State) : Nat :=
  let x := s.flow s.flowSel
  x.err % 256 * 2 ^ 24 + 8 * b2n x.epoch + x.st % 8

/-- FAB: the selected flow and group. -/
def State.viewFab (s : State) (k : Nat) : Nat :=
  let f := s.flowSel
  let x := s.flow f
  let g := s.field 0x400300 9 0
  if k = 0x400108 then s.flowStatus
  else if 0x400110 ≤ k && k < 0x400190 then s.reg (selKey k f)
  else if k = 0x4001F0 then x.retx
  else if k = 0x4001F8 then x.cwnd % 2 ^ 32
  else if k = 0x4001FC then x.srtt % 2 ^ 32
  else if k = 0x400200 then x.viol % 2 ^ 32
  else if k = 0x400204 then x.held % 65536 * 65536 + x.granted % 65536
  else if k = 0x400308 || k = 0x400310 then s.reg (selKey k g)
  else if k = 0x400318 then s.reg (selKey k g) / 16 * 16 + b2n (s.grpBusy g)
  else s.reg k

/-! ## NIB and QDB -/

/-- The selected measurement as the registers show it (Table 19.13): index 10 as the SHA-384 of its raw value. -/
def State.measShown (s : State) : List Nat :=
  let i := s.field 0x800040 3 0
  if i = 10 then natBytes 48 (Config.sha384 s.measRaw) else s.meas i

/-- STATUS of queue `q` (Table 16.15). -/
def State.queueStatus (s : State) (q : Nat) : Nat :=
  let x := s.queue q
  min 7 (s.prefetched q) * 256 + 8 * b2n x.retrying + x.st % 8

/-- NIB and QDB. -/
def State.viewNib (s : State) (k : Nat) : Nat :=
  if k = 0x800018 then s.flash.bistSeq
  else if k = 0x80003C then s.reg k + s.flash.owners.length % 8
  else if 0x800048 ≤ k && k < 0x800078 then fieldOf s.measShown (k - 0x800048) 8
  else if 0x1000000 ≤ k then
    let q := (k - 0x1000000) / 0x1000
    let x := s.queue q
    match k % 0x1000 with
    | 0x10 => s.queueStatus q
    | 0x14 => x.k % x.size % 65536 * 65536 + x.j % x.size % 65536
    | _ => s.reg k
  else s.reg k

/-- What register `k` shows (R480, R481). -/
def State.view (s : State) (k : Nat) : Nat :=
  if k < 0x20000 then s.viewGlb k
  else if k < 0x80000 then s.viewPart k
  else if k < 0x100000 then s.viewTile k
  else if k < 0x200000 then s.viewMem k
  else if k < 0x320000 then s.viewTe k
  else if k < 0x400000 then s.viewHost k
  else if k < 0x800000 then s.viewFab k
  else s.viewNib k

end Sys2Proof.Machine
end

