-- ==== Sys2Proof/Machine/Tier.lean ====
section
/-!
DEFINITION. Memory tiers (12): regulator refill, late requests, far-memory windows, and the release of a window's layers.
-/
namespace Sys2Proof.Machine

/-! ## Regulators (R269) -/

/-- The buckets of partition `p`: one for each record, and the inbound one of each HOST record. -/
def State.bucketsOf (s : State) (p : Nat) : List Nat :=
  (upto 28).filter (fun slot => (cfgReg s.folio.active p (resourceSlot slot)).isSome)

/-- What a command has admitted beyond its budget of an interval counts in the next (R185, R271). -/
def State.carry (s : State) (p slot : Nat) (l : List (Nat × Nat)) : List (Nat × Nat) :=
  (l.map (fun x => (x.1, if s.budgetOf p x.1 slot = 0 then 0 else x.2 - s.budgetOf p x.1 slot))).filter (fun x => x.2 != 0)

/-- One bucket refilled, and the requests it then admits. -/
def State.refill (s : State) (p slot : Nat) : State :=
  match s.rateBurst p slot with
  | none => s
  | some (rate, burst) =>
    let s := s.updBucket p slot (fun b => { b with tokens := min (b.tokens + rate) burst, spent := s.carry p slot b.spent })
    s.letIn p slot

/-- REGULATOR_REFILL: a 1 µs boundary of TIME. What the refilled buckets let out goes on: packets too. -/
def execRegulatorRefill (s : State) : Host.Outcome State Fault Refusal :=
  run (Instr.wf .regulatorRefill) s (fun s =>
    (s.parts.foldl (fun s p => (s.bucketsOf p).foldl (fun s slot => s.refill p slot) s) s).flowsDue.fabGo)

/-! ## Late requests (R273) -/

/-- The oldest request of a channel has had no completion for 10 ms. -/
def State.chanTimeout (s : State) (t c : Nat) : State :=
  match (s.chan t c).reqs.head? with
  | none => s
  | some r =>
    if !(r.port.isSome || tierOf r.tgt == 3 || s.inHostBias r.tgt) then s
    else match r.st with
      | .sent => s.reqFailed t r 2
      | .go => { s with host := { s.host with goWait := s.host.goWait.filter (fun w => w.src != some (t, c)) } }.reqFailed t r 2
      | .bi => { s with host := { s.host with biWait := s.host.biWait.filter (fun w => w.src != some (t, c)) } }.reqFailed t r 2
      | .fill =>
        if r.tgt % 128 < 64 then s.fillArrives (clusterOfTile t) (r.tgt / 128) (.failed 2) .ok
        else s.fillArrives (clusterOfTile t) (r.tgt / 128) .ok (.failed 2)
      | _ => s

/-- CXL_REQUEST_TIMEOUT: a request to host memory, a host-bias page or T3 has had no completion for 10 ms and has failed: the oldest of a
channel, or a write that the host has not answered. The reads of shared units fail as their commands' operands say. -/
def execCxlRequestTimeout (req : CxlReq) (n : Nat) (s : State) : Host.Outcome State Fault Refusal :=
  run (Instr.wf (.cxlRequestTimeout req n)) s (fun s =>
    match req with
    | .chan t => s.chanTimeout t n
    | .line die port =>
      (match s.host.goWait.find? (fun w => w.die == die && w.port == port && w.addr == n && w.out.isNone) with
       | none => s
       | some w =>
         match w.src with
         | some (t, c) => if ((s.chan t c).reqs.head?).any (fun r => r.st == .go) then s.chanTimeout t c else s
         | none => { s with host := { s.host with goWait := s.host.goWait.erase w } }.hostWriteLost die port n w.cids 2)
    | .bias =>
      match s.host.biWait.find? (fun w => w.addr == n && w.go.isSome) with
      | none => s
      | some w =>
        match w.src with
        | some (t, c) => if ((s.chan t c).reqs.head?).any (fun r => r.st == .bi) then s.chanTimeout t c else s
        | none => { s with host := { s.host with biWait := s.host.biWait.erase w } }.biasLost w 2)

/-! ## Far-memory windows (R276) -/

/-- A write of MEM_T3_w_CTRL, or of MEM_T3_w_TARGET where `target` (R276). -/
def State.t3Write (s : State) (port window : Nat) (target : Bool) (value : Nat) : State :=
  let off := 0x106000 + 0x40 * window + (if target then 8 else 0)
  let size := bits value 13 2
  let reserved := !target && bit value 0 && (size == 0 || decide (2048 < size))
  let open' := s.pkgState == 0 || s.pkgState == 3 || decide ((cfgPackage s.folio.active).f 6 1 ≤ window)
  if reserved || !open' then s.barError port off (if target then 8 else 4) value
  else s.setReg off (value &&& (if target then ones 63 30 else ones 13 0))

/-- T3_WINDOW_WRITE: MEM_T3_w_CTRL, or one 64-bit write of MEM_T3_w_TARGET where `target` (R12, R276). -/
def execT3WindowWrite (port window : Nat) (target : Bool) (value : Nat) (s : State) : Host.Outcome State Fault Refusal :=
  run (Instr.wf (.t3WindowWrite port window target value)) s (fun s =>
    let s' := if target then s.whole64 port (0x106008 + 0x40 * window) else s
    if s.regsOpen then s'.t3Write port window target value else s)

/-! ## WINDOW models (R267) -/

/-- WINDOW_LAYER_RELEASE: the launch's next layer in order, filled in all its windows, has had its last fetch. Its lines are released, and
the next layer that fits is filled (R267 steps 2 and 3). -/
def execWindowLayerRelease (queue seq layer : Nat) (s : State) : Host.Outcome State Fault Refusal :=
  run (Instr.wf (.windowLayerRelease queue seq layer)) s (fun s =>
    let cid := cidOf queue seq
    let c := s.cmd cid
    let ws := s.sched.wins.filter (fun w => w.cid == cid)
    let l := nth c.lays layer (0, 0)
    let lines := s.linesOf (c.img.1 + l.1, l.2)
    let held (w : Win) : Bool := (s.cache w.cl).fills.any (fun f => f.pin == some cid && lines.contains f.line)
    if c.opcode != 1 || c.st != .running || ws.isEmpty || c.winDone != layer || !ws.all (fun w => decide (layer < w.layer)) || ws.any held then s
    else ws.foldl (fun s w => s.winPumps w.cl) ((s.updCmd cid (fun c => { c with winDone := layer + 1 })).pumpSt .window))

end Sys2Proof.Machine
end

