-- ==== Sys2Proof/Machine/RegBus.lean ====
section
/-!
DEFINITION. Host accesses to BAR0 (R9-R15, R440, R479-R483): what a register write does, reads with their side effects, and the two
halves of a 64-bit register.
-/
namespace Sys2Proof.Machine

/-- The state after a command of its own that a register write stands for. -/
def after (s : State) (o : Host.Outcome State Fault Refusal) : State := match o with | .next t => t | _ => s

/-- Whether a BAR0 offset answers while no boot firmware runs: GLB_ID and the NIB registers (R440). -/
def nibOffset (off : Nat) : Bool := off < 8 || (0x800000 ≤ off && off < 0x1000000)

/-- Key of the hold of the first half of an IPv6 address (R482). -/
def ip6Key (port k : Nat) : Nat := (2 + port) * 2 ^ 26 + k

/-! ## Writes -/

/-- The key under which a register's RW bits are stored: registers of a selected flow or group have one copy each (R481). -/
def State.storeKey (s : State) (k : Nat) : Nat :=
  if 0x400110 ≤ k && k < 0x400190 then selKey k s.flowSel
  else if k = 0x400308 || k = 0x400310 then selKey k (s.field 0x400300 9 0)
  else k

/-- Whether the value of a register carries a reserved encoding (R10, R329 and the field tables). -/
def reservedValue (k v : Nat) : Bool :=
  let hv (x : Nat) : Bool := !hvOk (x &&& ones 63 6)
  if k = 0x100 || k = 0x108 || k = 0x800020 || k = 0x800030 then hv v
  else if k = 0x30000 then !hvOk v || v % 0x40000 != 0
  else if (at? k 0x30100 0x20 16).isSome then !hvOk v || v % 0x10000 != 0
  else if k = 0x30400 then decide (16 < bits v 20 16)
  else if k = 0x30800 then decide (12 < bits v 7 4)
  else if k = 0x30C00 then decide (bits v 4 1 < 2)
  else if (at? k 0x108000 0x100 8).isSome then bits v 5 1 == 0 || decide (16 < bits v 5 1)
  else if (at? k 0x10A038 0x100 8).isSome then bits v 8 1 == 0 || decide (168 < bits v 8 1)
  else if k = 0x300008 then decide (v < 10) || decide (60000 < v)
  else if (at? k 0x300104 0x40 16).isSome then v == 0
  else if k = 0x400104 then bits v 2 0 == 0 || decide (5 < bits v 2 0)
  else false

/-- Whether a write is discarded with BAR_ACCESS_ERROR for the state the block is in: a ring base while its ring is enabled (R456), an
administration ring while queue 0 runs (R367), a descriptor of a flow that is not FREE (R405). -/
def State.writeBarred (s : State) (k : Nat) : Bool :=
  if k = 0x100 || k = 0x108 then bit (s.reg 0x110) 0
  else if k = 0x30000 then s.ringOn ringG
  else match at? k 0x30100 0x20 16 with
    | some p => s.ringOn p
    | none => 0x400110 ≤ k && k < 0x400190 && (s.flow s.flowSel).st != 0

/-- Word `i` of the selected flow's keys written. -/
def State.writeKey (s : State) (i v : Nat) : State :=
  s.updFlow s.flowSel (fun x => { x with keys := updAt x.keys i (fun _ => v), keySet := x.keySet ||| 2 ^ i })

/-- A write of FAB_Pn_CTRL: clearing EN takes the port's sub-ports down. -/
def State.writePortCtrl (s : State) (n v : Nat) : State :=
  let s := s.setReg (fabPort n) (v &&& 0xF9)
  if bit v 0 then s else (upto 8).foldl (fun s sub => after s (execFabricLinkDown n sub s)) s

/-- What a write of the whole of register `k`, with RW mask `mask`, does besides storing it; none: nothing of its own. -/
def State.writeSpecial (s : State) (port k v : Nat) : Option State :=
  let x (o : Host.Outcome State Fault Refusal) : Option State := some (after s o)
  let tile := (k - 0x80000) / 0x1000
  let win := (k - 0x106000) / 0x40
  if k = 0x110 then x (execAdmqCtrlWrite port v s)
  else if k = 0x10010 then
    some { s.setReg k (v &&& 0xF) with pace := if bit v 0 then s.pace else { s.pace with syncs := 0, holdover := false } }
  else if k = 0x10014 then x (execPaceTimeRateWrite port v s)
  else if k = 0x10018 then some (s.timeStepWrite v)
  else if k = 0x20030 then some (s.handleWrite port v)
  else if k = 0x30008 then some (if bit v 0 then s.enableRing ringG else s.disableRing ringG)
  else if k = 0x3000C then x (execFltHeadWrite port ringG v s)
  else if k = 0x30410 then x (execFltOvfClear port v s)
  else if k = 0x30804 then x (execFltProbeCmd port v s)
  else if k = 0x40000 then x (execAcctSelWrite port v s)
  else if k = 0x40028 then x (execAcctClear port v s)
  else if k = 0x40100 then some (s.modelSelect v)
  else if 0x80000 ≤ k && k < 0x100000 && (k % 0x1000 = 0x40 || k % 0x1000 = 0x140) then
    x (execChkTestWrite port tile (k % 0x1000 / 0x100) v s)
  else if 0x106000 ≤ k && k < 0x106200 && k % 0x40 = 0 then some (s.t3Write port win false v)
  else if 0x106000 ≤ k && k < 0x106200 && k % 0x40 = 8 then some (s.t3Write port win true v)
  else if k = 0x200004 then x (execTeMapInvalWrite port v s)
  else if k = 0x310008 then some (s.flushWrite port v)
  else if k = 0x322048 then x (execBiasFlip port v s)
  else if k = 0x400004 then
    some (if s.fab.flows.any (fun e => e.2.st != 0) then s
          else { s.setReg k (v &&& ones 14 0) with fab := { s.fab with devSet := true } })
  else if k = 0x400104 then
    (match bits v 2 0 with
     | 1 => x (execFlowOpen port s)
     | 2 => x (execFlowClose port s)
     | 3 => x (execFlowReset port s)
     | 4 => x (execRxNext port s)
     | 5 => x (execSwitchTx port s)
     | _ => none)
  else if 0x400190 ≤ k && k < 0x4001F0 then some (s.writeKey ((k - 0x400190) / 8) v)
  else if k = 0x400308 then x (execGroupDefine port v s)
  else if k = 0x800010 then some (s.shutdownWrite port v)
  else if k = 0x800028 then x (execNibBfwInstall port v [] s)
  else if k = 0x800038 then x (execNibOwnerSet port v [] s)
  else if 0x1000000 ≤ k && k % 0x1000 = 0 then x (execDoorbell port ((k - 0x1000000) / 0x1000) v s)
  else if 0x1000000 ≤ k && k % 0x1000 = 8 then x (execCqHeadWrite port ((k - 0x1000000) / 0x1000) v s)
  else if 0x330000 ≤ k && k < 0x340000 && k % 16 = 12 && !bit v 0 then
    x (execMsixUnmask ((k - 0x330000) / 0x8000) (k % 0x8000 / 16) s)
  else match at? k 0x30108 0x20 16, at? k 0x3010C 0x20 16, at? k 0x401000 0x200 8 with
    | some p, _, _ => some (if bit v 0 then s.enableRing p else s.disableRing p)
    | none, some p, _ => x (execFltHeadWrite port p v s)
    | none, none, some n => some (s.writePortCtrl n v)
    | none, none, none => none

/-- A write of the bits `mask` of register `k`, `v` being the whole value (R9, R10): RW fields take their bits, RW1C fields lose those
written as 1, and registers with an action of their own act. -/
def State.writeReg (s : State) (port k : Nat) (r : RegRow) (v mask size : Nat) : State :=
  let key := s.storeKey k
  let old := if 0x400190 ≤ k && k < 0x4001F0 then nth (s.flow s.flowSel).keys ((k - 0x400190) / 8) 0 else s.reg key
  let whole := if r.rw = 0 && !(0x400190 ≤ k && k < 0x4001F0) then v &&& mask else blend old v mask
  if s.writeBarred k || reservedValue k whole then s.barError port k size v
  else match s.writeSpecial port k whole with
    | some t => t
    | none => s.setReg key (blend old v (r.rw &&& mask) &&& ((2 ^ 64 - 1) ^^^ (v &&& mask &&& r.w1c)))

/-- The first 64-bit register of an IPv6 address, of sub-port registers (Table 18.10). -/
def ip6First (k : Nat) : Bool := 0x401000 ≤ k && k < 0x402000 && 0x40 ≤ k % 0x200 && k % 0x200 < 0x140 && k % 0x20 = 0

/-- Its second. -/
def ip6Second (k : Nat) : Bool := 8 ≤ k && k % 0x20 = 8 && ip6First (k - 8)

/-- A write of a whole register, as R482 joins the two registers of an IPv6 address. -/
def State.writeWhole (s : State) (port k : Nat) (r : RegRow) (v mask size : Nat) : State :=
  if ip6First k then s.setHeld (ip6Key port k) ((blend (s.reg k) v mask) + 1)
  else if ip6Second k then
    let s1 := s.setReg k (blend (s.reg k) v mask)
    (match Tbl.get 0 s.held (ip6Key port (k - 8)) with
     | 0 => s1
     | h + 1 => (s1.setReg (k - 8) h).setHeld (ip6Key port (k - 8)) 0)
  else s.writeReg port k r v mask size

/-- A host write to BAR0 of `size` bytes (R11, R12, R440, R479). Where a write of an upper half is discarded, the BAR_ACCESS_ERROR
names the register's own offset, with the upper half alone as a 4-byte access of the value in its place, or with the joined value as an
8-byte access when a lower half was held (log entry 190). -/
def State.busWrite (s : State) (port off size value : Nat) : State :=
  let v := value % 2 ^ (8 * size)
  let up := off - 4
  if s.stage = 15 && !nibOffset off then s
  else if (size != 4 && size != 8) || off % size != 0 then s.barError port off size v
  else match regRow? off with
    | some r =>
      if r.width = 64 then
        if size = 8 then (s.whole64 port off).writeWhole port off r v (2 ^ 64 - 1) 8
        else s.setHeld (halfKey port off) (v + 1)
      else if size = 4 then s.writeWhole port off r v (2 ^ 32 - 1) 4
      else s.barError port off size v
    | none =>
      (match (if off % 8 = 4 && size = 4 then regRow? up else none) with
       | some r =>
         if r.width = 64 then
           (match Tbl.get 0 s.held (halfKey port up) with
            | 0 => s.writeWhole port up r (v * 2 ^ 32) (ones 63 32) 4
            | h + 1 => (s.setHeld (halfKey port up) 0).writeWhole port up r (h + v * 2 ^ 32) (2 ^ 64 - 1) 8)
         else s.barError port off size v
       | none => s.barError port off size v)

/-! ## Reads -/

/-- One read of the whole of register `k`: its value, and its RC fields cleared (R9, R14). -/
def State.readReg (s : State) (k : Nat) (r : RegRow) : Nat × State :=
  if r.wo then (0, s) else (s.view k, if r.rc = 0 then s else s.setReg k 0)

/-- A host read of BAR0 of `size` bytes: the answer and what the read does (R11, R12, R440, R479). -/
def State.busRead (s : State) (port off size : Nat) : Nat × State :=
  let allOnes := 2 ^ (8 * size) - 1
  let up := off - 4
  if s.stage = 15 && !nibOffset off then (allOnes, s)
  else if (size != 4 && size != 8) || off % size != 0 then (allOnes, s)
  else match regRow? off with
    | some r =>
      if r.width = 64 then
        if size = 8 then (s.whole64 port off).readReg off r
        else
          let x := s.readReg off r
          (x.1 % 2 ^ 32, x.2.setLatch (halfKey port off) (x.1 / 2 ^ 32 + 1))
      else if size = 4 then s.readReg off r
      else (allOnes, s)
    | none =>
      if off % 8 = 4 && size = 4 then
        (match regRow? up with
         | some r =>
           if r.width = 64 then
             (match Tbl.get 0 s.latch (halfKey port up) with
              | 0 => let x := s.readReg up r; (x.1 / 2 ^ 32, x.2)
              | h + 1 => (h, s.setLatch (halfKey port up) 0))
           else (0, s)
         | none => (0, s))
      else if size = 8 && (regRow? (off + 4)).isSome then (allOnes, s)
      else (0, s)

/-- A read answered. -/
def State.answerRead (s : State) (port off size : Nat) : State :=
  let x := s.busRead port off size
  x.2.emit (.readData port off size x.1)

/-! ## The commands -/

/-- REGISTER_WRITE (R9-R11, R479). -/
def execRegisterWrite (port off size value : Nat) (s : State) : Host.Outcome State Fault Refusal :=
  runMem (Instr.wf (.registerWrite port off size value)) [] s (fun s => s.busWrite port off size value)

/-- RC_REGISTER_READ: a read, with the side effects of its fields (R9, R14). -/
def execRcRegisterRead (port off size : Nat) (s : State) : Host.Outcome State Fault Refusal :=
  run (Instr.wf (.rcRegisterRead port off size)) s (fun s => s.answerRead port off size)

/-- What SPLIT_REGISTER_ACCESS does once what it moves is admitted and the host has released what it writes. -/
def State.doSplitRegisterAccess (s : State) (port off : Nat) (write : Option Nat) : State :=
  match write with
  | some v => s.busWrite port off 4 v
  | none => s.answerRead port off 4

/-- SPLIT_REGISTER_ACCESS: a 32-bit access to half of a 64-bit register (R12, R482). -/
def execSplitRegisterAccess (port off : Nat) (write : Option Nat) (s : State) : Host.Outcome State Fault Refusal :=
  runMem (Instr.wf (.splitRegisterAccess port off write)) [] s (fun s => s.doSplitRegisterAccess port off write)

end Sys2Proof.Machine
end

