-- ==== Sys2Proof/Machine/Transcend.lean ====
section
/-!
DEFINITION. The six transcendental opcodes (R153). The exact value is approached to far beyond FP32 precision by integer
arithmetic; the result is any FP32 value within two units in the last place of it, chosen by Config.transUlp.
-/
namespace Sys2Proof.Machine

/-- Fraction bits of the fixed-point work. -/
def fxBits : Nat := 200

/-- ln 2 × 2^200. -/
def fxLn2 : Int := 1113844574712631719546256151097547306333272293549090750737802

/-- z / 2^200, floored. -/
def fxDown (z : Int) : Int := z / (2 ^ fxBits : Nat)

/-- Σ rⁿ/n! from term `n` on, `k` further terms. -/
def expTerms : Nat → Nat → Int → Int → Int
  | 0, _, _, _ => 0
  | k + 1, n, r, term =>
    let next := fxDown (term * r) / ((n : Int) + 1)
    term + expTerms k (n + 1) r next

/-- eˣ for a fixed-point x: mantissa and exponent. -/
def fxExp (x : Int) : Nat × Int :=
  let k := (x + fxLn2 / 2) / fxLn2
  let r := x - k * fxLn2
  ((expTerms 45 0 r (2 ^ fxBits : Nat)).toNat, k - fxBits)

/-- The fixed-point value of (-1)^s × m × 2^e. -/
def fxOf (s : Bool) (m : Nat) (e : Int) : Int :=
  let z : Int := if 0 ≤ e + fxBits then (m : Int) * (2 ^ (e + fxBits).toNat : Nat) else (m : Int) / (2 ^ (-(e + fxBits)).toNat : Nat)
  if s then -z else z

/-- Σ z^(2n+1)/(2n+1) from the power `p` = z^(2n+1) on, `k` terms. -/
def atanhTerms : Nat → Nat → Int → Int → Int
  | 0, _, _, _ => 0
  | k + 1, n, z2, p => p / (2 * (n : Int) + 1) + atanhTerms k (n + 1) z2 (fxDown (p * z2))

/-- ln(m × 2^e), fixed-point, m > 0. -/
def fxLog (m : Nat) (e : Int) : Int :=
  let l := bitLen m
  -- y = m / 2^l in [1/2, 1), doubled below 3/4
  let (num, den, x) : Nat × Nat × Int := if 4 * m < 3 * 2 ^ l then (2 * m, 2 ^ l, e + l - 1) else (m, 2 ^ l, e + l)
  let z : Int := ((num : Int) - den) * (2 ^ fxBits : Nat) / ((num : Int) + den)
  2 * atanhTerms 60 0 (fxDown (z * z)) z + x * fxLn2

/-- A fixed-point value as a dyadic. -/
def fxNum (z : Int) : Bool × Nat × Int := (decide (z < 0), z.natAbs, -(fxBits : Int))

/-- The exact value, closely approached, of opcode `op` (0 VEXP, 1 VLOG, 2 VRCP, 3 VRSQRT, 4 VTANH, 5 VSIG) at a finite input
for which Table 7.3 states no exact result: sign, mantissa, exponent. -/
def transValue (op : Nat) (s : Bool) (m : Nat) (e : Int) : Bool × Nat × Int :=
  let big := dyLt 128 0 m e
  match op with
  | 0 =>
    if big then (if s then (false, 1, -400) else (false, 1, 400))
    else let r := fxExp (fxOf s m e); (false, r.1, r.2)
  | 1 => fxNum (fxLog m e)
  | 2 => let r := finDiv 90 1 0 m e; (s, r.1, r.2)
  | 3 => match (NumVal.fin false m e).sqrt.1 with
    | .fin _ q x => let r := finDiv 90 1 0 q x; (false, r.1, r.2)
    | _ => (false, 0, 0)
  | 4 =>
    -- tanh: x − x³/3 + 2x⁵/15 for |x| < 2⁻¹², else (e^2x − 1)/(e^2x + 1)
    if dyLt m e 1 (-12) then
      let d := 15 * m * 2 ^ 120
      let x2 := m * m
      let sub := if 0 ≤ 120 + 2 * e then 5 * m * x2 * 2 ^ (120 + 2 * e).toNat else 5 * m * x2 / 2 ^ (-(120 + 2 * e)).toNat
      let add := if 0 ≤ 120 + 4 * e then 2 * m * x2 * x2 * 2 ^ (120 + 4 * e).toNat else 2 * m * x2 * x2 / 2 ^ (-(120 + 4 * e)).toNat
      let r := finDiv 90 (d + add - sub) (e - 120) 15 0
      (s, r.1, r.2)
    else if dyLt 60 0 m e then (s, 2 ^ 100 - 1, -100)
    else
      let r := fxExp (2 * fxOf false m e)
      let E : Nat := if 0 ≤ r.2 + fxBits then r.1 * 2 ^ (r.2 + fxBits).toNat else r.1 / 2 ^ (-(r.2 + fxBits)).toNat
      let q := finDiv 90 (E - 2 ^ fxBits) 0 (E + 2 ^ fxBits) 0
      (s, q.1, q.2)
  | _ =>
    -- 1/(1 + e⁻ˣ), or eˣ/(1 + eˣ) below zero
    if big then (if s then (false, 1, -400) else (false, 2 ^ 100 - 1, -100))
    else
      let r := fxExp (fxOf true m e)
      let E : Nat := if 0 ≤ r.2 + 400 then r.1 * 2 ^ (r.2 + 400).toNat else r.1 / 2 ^ (-(r.2 + 400)).toNat
      let q := if s then finDiv 90 E 0 (E + 2 ^ 400) 0 else finDiv 90 (2 ^ 400) 0 (E + 2 ^ 400) 0
      (false, q.1, q.2)

/-- FP32 encodings in numeric order, as integers. -/
def fp32Order (v : Nat) : Int := if bit v 31 then -((v % 2 ^ 31 : Nat) : Int) else (v % 2 ^ 31 : Nat)

/-- The encoding at an integer of that order. -/
def fp32At (z : Int) : Nat := if z < 0 then 2 ^ 31 + z.natAbs else z.natAbs

/-- Whether encoding `c` lies within two units in the last place of the value (R153). -/
def within2 (c : Nat) (s : Bool) (m : Nat) (e : Int) : Bool :=
  match decodeFloat 1 c with
  | .fin cs cm ce =>
    match finAdd cs cm ce (!s) m e with
    | .fin _ dm de =>
      let ulp : Int := max (e + bitLen m - 1 - 23) (-149)
      !dyLt 2 ulp dm de
    | _ => false
  | _ => false

/-- An FP32 result within two units in the last place of the value, by the choice `pick`; one that overflows when rounded to
nearest is infinite. -/
def within (pick : Nat) (s : Bool) (m : Nat) (e : Int) : Nat × Nat :=
  let c := cvtFloat 1 true .rne (.fin s m e)
  if c.ovf then (c.val, 1)
  else
    let k := fp32At (fp32Order c.val + ((pick % 9 : Nat) : Int) - 4)
    (if within2 k s m e then k else c.val, 0)

/-- A transcendental opcode on one FP32 element: the result and its flags (R153, Table 7.3). -/
def transcend (op x : Nat) : Nat × Nat :=
  let free := Config.transUlp op x
  match decodeFloat 1 x with
  | .nan s p => (packNan 1 s p, 8)
  | .inf s =>
    match op with
    | 0 => (if s then 0 else packInf 1 false, 0)
    | 1 => if s then (packNan 1 false 0, 8) else (packInf 1 false, 0)
    | 2 => (packFloat 1 s 0 0, 0)
    | 3 => if s then (packNan 1 false 0, 8) else (0, 0)
    | 4 => (if s then 0xBF800000 else 0x3F800000, 0)
    | _ => (if s then 0 else 0x3F800000, 0)
  | .fin s m e =>
    if m = 0 then
      match op with
      | 0 => (0x3F800000, 0)
      | 1 => (packInf 1 true, 0)
      | 2 => (packInf 1 s, 0)
      | 3 => (packInf 1 s, 0)
      | 4 => (packFloat 1 s 0 0, 0)
      | _ => (0x3F000000, 0)
    else if (op == 1 || op == 3) && s then (packNan 1 false 0, 8)
    else if op == 1 && x == 0x3F800000 then (0, 0)
    else
      let v := transValue op s m e
      -- the reciprocal of a power of two is exact where it is representable
      if op == 2 && m == 2 ^ (bitLen m - 1) then
        let c := cvtFloat 1 true .rne (.fin s 1 (-(e + bitLen m - 1)))
        (c.val, b2n c.ovf)
      else within free v.1 v.2.1 v.2.2

end Sys2Proof.Machine
end

