-- ==== Sys2Proof/Machine/Vector.lean ====
section
/-!
DEFINITION. The vector unit (07): every opcode of Table 7.2 but the selection class. A command of this file is the
instruction at the program's present place; the repeats of REP are commands too, in program order (log entry 26).
-/
namespace Sys2Proof.Machine

/-! ## The form of an instruction -/

/-- The fields of an instruction word (R150, Table 7.1). -/
def vinsOf (w : Nat) : VIns :=
  { vd := bits w 53 49, va := bits w 48 44, vb := bits w 43 39, vc := bits w 38 34, mask := bits w 33 31, mz := bit w 30,
    fmt := bits w 29 26, cvt := bits w 25 24, imm := bits w 23 0 }

/-- The word of an instruction: CLASS and OP as 128 × CLASS + OP, and the fields (Table 7.1). -/
def vword (code : Nat) (i : VIns) : Nat :=
  code * 2 ^ 54 + i.vd * 2 ^ 49 + i.va * 2 ^ 44 + i.vb * 2 ^ 39 + i.vc * 2 ^ 34 + i.mask * 2 ^ 31 + b2n i.mz * 2 ^ 30 + i.fmt * 2 ^ 26
    + i.cvt * 2 ^ 24 + i.imm

/-- The fields fit their places in Table 7.1. -/
def VIns.ok (i : VIns) : Bool :=
  decide (i.vd < 32) && decide (i.va < 32) && decide (i.vb < 32) && decide (i.vc < 32) && decide (i.mask < 8)
  && decide (i.fmt < 16) && decide (i.cvt < 4) && decide (i.imm < 2 ^ 24)

/-- What an instruction does to its tile: the vector unit, flags raised, saturations counted, lines handed to OUT. -/
structure VRes where
  vec : Vec
  flags : Nat := 0
  sats : Nat := 0
  outs : List OutItem := []

/-- The bytes of the next line of the IN queue, when it is complete. -/
def State.inLine (s : State) (t : Nat) : Option Nat :=
  match ((s.chan t 13).lines).head? with
  | some l => if l.complete then some (regOfBytes (l.bytes.take 256)) else none
  | none => none

/-- One instruction passed in the REPs in force: `n` places of the innermost body (R151). -/
def repAdvance : List RepSt → Nat → List RepSt
  | [], _ => []
  | r :: rest, n =>
    if r.pos + n < r.len then { r with pos := r.pos + n } :: rest
    else if 1 < r.left then { r with pos := 0, left := r.left - 1 } :: rest
    else repAdvance rest r.len

/-- The vector unit of tile `t` takes an instruction now: its task runs, and no ACLAIM or SMERGE of it is waiting. -/
def State.vecTakes (s : State) (t : Nat) : Bool :=
  s.tileRuns t && (s.tile t).vec.claimWait.isNone && !(s.tile t).sel.merging

/-- The instruction word `w` at the program's present place: a reserved CLASS or OP ends the launch (R151); otherwise `f` with
its fields. -/
def runVec (c : Instr) (t w : Nat) (s : State) (f : VIns → State → State) : Host.Outcome State Fault Refusal :=
  run (Instr.wf c) s (fun s =>
    if vecReserved w then (if s.vecTakes t then s.invalidAt t else s) else f (vinsOf w) s)

/-- An instruction has taken effect: counted, its waits charged, its place passed (R148, R187). -/
def State.vecDone (s : State) (t : Nat) : State :=
  let s := (s.bump (tileBase t + 0x208) 64 1).chargeStall t (s.tile t).vec.stall
  s.updTile t (fun x => { x with vec := { x.vec with stall := none, inEmpty := false, outFull := false, reps := repAdvance x.vec.reps 1 } })

/-- An instruction of tile `t` (R148, R151): `ok` says that it breaks no rule marked INVALID_CMD, `srcs` are the vector
registers it reads, `nout` the lines it hands to OUT, `f` its effect, which reads registers through its second argument. -/
def State.vec (s : State) (t : Nat) (i : VIns) (ok : Bool) (srcs : List Nat) (nout : Nat) (f : Vec → (Nat → Nat) → VRes) : State :=
  if !s.vecTakes t then s
  else if !ok || bit i.cvt 1 then s.invalidAt t
  else if srcs.contains 31 && (s.inLine t).isNone then
    s.updTile t (fun x => { x with vec := { x.vec with inEmpty := true, stall := noteStall s x.vec.stall (s.chanCause t 13 2) } })
  else if 33 < (s.chan t 14).items.length + nout then
    s.updTile t (fun x => { x with vec := { x.vec with outFull := true, stall := noteStall s x.vec.stall (s.chanCause t 14 3) } })
  else
    let v := (s.tile t).vec
    let line := (s.inLine t).getD 0
    let s := if srcs.contains 31 then s.popLine t 13 else s
    let r := f v (fun n => if n = 31 then line else v.reg n)
    let s := s.updTile t (fun x => { x with vec := r.vec })
    let s := s.updChan t 14 (fun ch => { ch with items := ch.items ++ r.outs })
    ((s.raiseVec t r.flags).saturate t r.sats).vecDone t

/-- Lines a destination hands to OUT. -/
def outLines (regs : List Nat) : Nat := (regs.filter (· == 31)).length

/-- A register value put in destination `d`: a register, or a line of OUT. -/
def VRes.write (r : VRes) (d val : Nat) : VRes :=
  if d = 31 then { r with outs := r.outs ++ [{ data := natBytes 256 val }] } else { r with vec := r.vec.setReg d val }

/-- Elements of `w` bits under the governing mask (Table 7.1): masked-off elements keep the destination's, or are zero. -/
def masked (v : Vec) (i : VIns) (d w : Nat) (xs : List Nat) : Nat :=
  let m := v.mask i.mask
  let old := if d = 31 then 0 else v.reg d
  packElems w ((xs.zipIdx).map (fun p => if bit m p.2 then p.1 else if i.mz then 0 else bits old (w * (p.2 + 1) - 1) (w * p.2)))

/-- OR of the flags of the elements that the mask lets through. -/
def maskedFlags (v : Vec) (i : VIns) (fl : List Nat) : Nat :=
  (fl.zipIdx).foldl (fun a p => if bit (v.mask i.mask) p.2 then a ||| p.1 else a) 0

/-- The formats of R149. -/
def regFmt (f : Nat) : Bool := [0, 1, 2, 3, 9, 13].contains f

/-- The IMM bits of a class ARITH opcode that takes VB: only those of the scalar broadcast (R150). -/
def arithImm (i : VIns) : Bool := i.imm &&& (2 ^ 24 - 1 - (2 ^ 23 + 15 * 2 ^ 16)) == 0

/-- The second source: VB, or the scalar in every lane (R150, log entry 27). -/
def second (i : VIns) (v : Vec) (rd : Nat → Nat) : Nat :=
  if bit i.imm 23 then packElems 32 (List.replicate 64 (v.scalar (bits i.imm 19 16))) else rd i.vb

/-- The sources of an opcode with two: VB is not read under a broadcast. -/
def twoSrcs (i : VIns) : List Nat := if bit i.imm 23 then [i.va] else [i.va, i.vb]

/-- An element-wise opcode: `g` gives an element's value and flags from the elements of the sources. -/
def State.vecElems (s : State) (t : Nat) (i : VIns) (ok : Bool) (srcs : List Nat) (g : Nat → Nat → Nat → Nat → Nat × Nat) : State :=
  s.vec t i (ok && arithImm i) srcs (outLines [i.vd]) (fun v rd =>
    let b := second i v rd
    let rs := (upto (elemCount i.fmt)).map (fun k =>
      if bit (v.mask i.mask) k then g k (elemOf i.fmt (rd i.va) k) (elemOf i.fmt b k) (elemOf i.fmt (rd i.vc) k) else (0, 0))
    ({ vec := v, flags := maskedFlags v i (rs.map (·.2)) } : VRes).write i.vd (masked v i i.vd (elemBits i.fmt) (rs.map (·.1))))

/-! ## Arithmetic (R152) -/

/-- A result rounded once in format `f`; UNDERFLOW for a subnormal or zero result of a nonzero exact value (Table 6.1). -/
def vecRound (f : Nat) (r : NumVal × Bool) : Nat × Nat :=
  let c := cvtFloat f true .rne r.1
  let (_, mb, _) := fmtParams f
  let tiny := match r.1 with
    | .fin _ m _ => m != 0 && !c.ovf && bits c.val (fmtBits f - 2) mb == 0
    | _ => false
  (c.val, b2n c.ovf + 2 * b2n tiny + 8 * b2n r.2)

/-- The first NaN of a list of operands (R78). -/
def firstNan (xs : List NumVal) : Option NumVal := xs.find? NumVal.isNan

/-- a × b + c fused, `neg` for a × b − c; NaN operands propagate first (R78, log entry 28). -/
def fused (a b c : NumVal) (neg : Bool) : NumVal × Bool :=
  match firstNan [a, b, c] with
  | some n => (n, false)
  | none =>
    let p := a.mul b
    if p.2 then p else p.1.add (c.flip neg)

/-- a ± b. -/
def sum2 (a b : NumVal) (neg : Bool) : NumVal × Bool :=
  match firstNan [a, b] with
  | some n => (n, false)
  | none => a.add (b.flip neg)

/-- An integer result modulo the element width. -/
def wrap (f : Nat) (z : Int) : Nat × Nat := (ofInt (elemBits f) z, 0)

/-- An integer element. -/
def intElem (f v : Nat) : Int := signed (elemBits f) v

/-- Whether the format is an integer one. -/
def intFmt (f : Nat) : Bool := f == 9 || f == 13

/-- VADD (Table 7.2). -/
def execVadd (t w : Nat) (s : State) : Host.Outcome State Fault Refusal :=
  runVec (.vadd t w) t w s (fun i s => s.vecElems t i (regFmt i.fmt) (twoSrcs i) (fun _ a b _ =>
    if intFmt i.fmt then wrap i.fmt (intElem i.fmt a + intElem i.fmt b)
    else vecRound i.fmt (sum2 (decodeNum i.fmt a) (decodeNum i.fmt b) false)))

/-- VSUB. -/
def execVsub (t w : Nat) (s : State) : Host.Outcome State Fault Refusal :=
  runVec (.vsub t w) t w s (fun i s => s.vecElems t i (regFmt i.fmt) (twoSrcs i) (fun _ a b _ =>
    if intFmt i.fmt then wrap i.fmt (intElem i.fmt a - intElem i.fmt b)
    else vecRound i.fmt (sum2 (decodeNum i.fmt a) (decodeNum i.fmt b) true)))

/-- VMUL. -/
def execVmul (t w : Nat) (s : State) : Host.Outcome State Fault Refusal :=
  runVec (.vmul t w) t w s (fun i s => s.vecElems t i (regFmt i.fmt) (twoSrcs i) (fun _ a b _ =>
    if intFmt i.fmt then wrap i.fmt (intElem i.fmt a * intElem i.fmt b)
    else vecRound i.fmt ((decodeNum i.fmt a).mul (decodeNum i.fmt b))))

/-- VFMA: a × b + c, rounded once. -/
def execVfma (t w : Nat) (s : State) : Host.Outcome State Fault Refusal :=
  runVec (.vfma t w) t w s (fun i s => s.vecElems t i (regFmt i.fmt) (twoSrcs i ++ [i.vc]) (fun _ a b c =>
    if intFmt i.fmt then wrap i.fmt (intElem i.fmt a * intElem i.fmt b + intElem i.fmt c)
    else vecRound i.fmt (fused (decodeNum i.fmt a) (decodeNum i.fmt b) (decodeNum i.fmt c) false)))

/-- VFMS: a × b − c, rounded once. -/
def execVfms (t w : Nat) (s : State) : Host.Outcome State Fault Refusal :=
  runVec (.vfms t w) t w s (fun i s => s.vecElems t i (regFmt i.fmt) (twoSrcs i ++ [i.vc]) (fun _ a b c =>
    if intFmt i.fmt then wrap i.fmt (intElem i.fmt a * intElem i.fmt b - intElem i.fmt c)
    else vecRound i.fmt (fused (decodeNum i.fmt a) (decodeNum i.fmt b) (decodeNum i.fmt c) true)))

/-- Encoding of a number that format `f` already holds. -/
def encodeExact (f : Nat) (x : NumVal) : Nat := (cvtFloat f true .rne x).val

/-- Minimum (`max` false) or maximum of IEEE 754-2019: NaN in gives NaN out, −0 < +0. -/
def minMax (f : Nat) (hi : Bool) (a b : Nat) : Nat :=
  if intFmt f then
    (if (if hi then decide (intElem f a < intElem f b) else decide (intElem f b < intElem f a)) then b else a)
  else
    let x := decodeNum f a
    let y := decodeNum f b
    match firstNan [x, y] with
    | some n => encodeExact f n
    | none =>
      let less := if x.eqv y then x.sgn && !y.sgn else x.lt y
      if hi then (if less then b else a) else (if less then a else b)

/-- VMIN. -/
def execVmin (t w : Nat) (s : State) : Host.Outcome State Fault Refusal :=
  runVec (.vmin t w) t w s (fun i s => s.vecElems t i (regFmt i.fmt) (twoSrcs i) (fun _ a b _ => (minMax i.fmt false a b, 0)))

/-- VMAX. -/
def execVmax (t w : Nat) (s : State) : Host.Outcome State Fault Refusal :=
  runVec (.vmax t w) t w s (fun i s => s.vecElems t i (regFmt i.fmt) (twoSrcs i) (fun _ a b _ => (minMax i.fmt true a b, 0)))

/-- Absolute value or negation of an element: a NaN keeps sign and payload (R78); of the most negative integer, whose result
the manual does not state, a free value (log entry 3). -/
def signOp (f : Nat) (abs : Bool) (free k a : Nat) : Nat :=
  let w := elemBits f
  if intFmt f then
    let z := intElem f a
    if z = -(2 ^ (w - 1) : Nat) then Config.freeValue (free + k) % 2 ^ w
    else ofInt w (if abs then z.natAbs else -z)
  else
    let x := decodeNum f a
    if x.isNan then encodeExact f x
    else if abs then a % 2 ^ (w - 1)
    else a ^^^ 2 ^ (w - 1)

/-- VABS. -/
def execVabs (t w : Nat) (s : State) : Host.Outcome State Fault Refusal :=
  runVec (.vabs t w) t w s (fun i s =>
    { s with free := s.free + 128 }.vecElems t i (regFmt i.fmt) [i.va] (fun k a _ _ => (signOp i.fmt true s.free k a, 0)))

/-- VNEG. -/
def execVneg (t w : Nat) (s : State) : Host.Outcome State Fault Refusal :=
  runVec (.vneg t w) t w s (fun i s =>
    { s with free := s.free + 128 }.vecElems t i (regFmt i.fmt) [i.va] (fun k a _ _ => (signOp i.fmt false s.free k a, 0)))

/-- VAND. -/
def execVand (t w : Nat) (s : State) : Host.Outcome State Fault Refusal :=
  runVec (.vand t w) t w s (fun i s => s.vecElems t i (regFmt i.fmt) (twoSrcs i) (fun _ a b _ => (a &&& b, 0)))

/-- VOR. -/
def execVor (t w : Nat) (s : State) : Host.Outcome State Fault Refusal :=
  runVec (.vor t w) t w s (fun i s => s.vecElems t i (regFmt i.fmt) (twoSrcs i) (fun _ a b _ => (a ||| b, 0)))

/-- VXOR. -/
def execVxor (t w : Nat) (s : State) : Host.Outcome State Fault Refusal :=
  runVec (.vxor t w) t w s (fun i s => s.vecElems t i (regFmt i.fmt) (twoSrcs i) (fun _ a b _ => (a ^^^ b, 0)))

/-- VSHL: by b mod the width. -/
def execVshl (t w : Nat) (s : State) : Host.Outcome State Fault Refusal :=
  runVec (.vshl t w) t w s (fun i s => s.vecElems t i (intFmt i.fmt) (twoSrcs i) (fun _ a b _ =>
    (trunc (elemBits i.fmt) (a <<< (b % elemBits i.fmt)), 0)))

/-- VSHR: arithmetic, by b mod the width. -/
def execVshr (t w : Nat) (s : State) : Host.Outcome State Fault Refusal :=
  runVec (.vshr t w) t w s (fun i s => s.vecElems t i (intFmt i.fmt) (twoSrcs i) (fun _ a b _ =>
    wrap i.fmt (intElem i.fmt a / (2 ^ (b % elemBits i.fmt) : Nat))))

/-- VEXP (R153). -/
def execVexp (t w : Nat) (s : State) : Host.Outcome State Fault Refusal :=
  runVec (.vexp t w) t w s (fun i s => s.vecElems t i (i.fmt == 1) [i.va] (fun _ a _ _ => transcend 0 a))

/-- VLOG. -/
def execVlog (t w : Nat) (s : State) : Host.Outcome State Fault Refusal :=
  runVec (.vlog t w) t w s (fun i s => s.vecElems t i (i.fmt == 1) [i.va] (fun _ a _ _ => transcend 1 a))

/-- VRCP. -/
def execVrcp (t w : Nat) (s : State) : Host.Outcome State Fault Refusal :=
  runVec (.vrcp t w) t w s (fun i s => s.vecElems t i (i.fmt == 1) [i.va] (fun _ a _ _ => transcend 2 a))

/-- VRSQRT. -/
def execVrsqrt (t w : Nat) (s : State) : Host.Outcome State Fault Refusal :=
  runVec (.vrsqrt t w) t w s (fun i s => s.vecElems t i (i.fmt == 1) [i.va] (fun _ a _ _ => transcend 3 a))

/-- VTANH. -/
def execVtanh (t w : Nat) (s : State) : Host.Outcome State Fault Refusal :=
  runVec (.vtanh t w) t w s (fun i s => s.vecElems t i (i.fmt == 1) [i.va] (fun _ a _ _ => transcend 4 a))

/-- VSIG. -/
def execVsig (t w : Nat) (s : State) : Host.Outcome State Fault Refusal :=
  runVec (.vsig t w) t w s (fun i s => s.vecElems t i (i.fmt == 1) [i.va] (fun _ a _ _ => transcend 5 a))

/-- VMOV: d = a. -/
def execVmov (t w : Nat) (s : State) : Host.Outcome State Fault Refusal :=
  runVec (.vmov t w) t w s (fun i s => s.vecElems t i (regFmt i.fmt) [i.va] (fun _ a _ _ => (a, 0)))

/-- VLANE: element index as INT32. -/
def execVlane (t w : Nat) (s : State) : Host.Outcome State Fault Refusal :=
  runVec (.vlane t w) t w s (fun i s => s.vecElems t i (i.fmt == 13) [] (fun k _ _ _ => (k, 0)))

/-- SSET: a scalar set to IMM sign-extended. -/
def execSset (t w : Nat) (s : State) : Host.Outcome State Fault Refusal :=
  runVec (.sset t w) t w s (fun i s => s.vec t i true [] 0 (fun v _ => { vec := v.setScalar (i.vd % 16) (ofInt 32 (signed 24 i.imm)) }))

/-- REP: a body and its repeats, to depth 2; a third level is INVALID_CMD. -/
def execRep (t w : Nat) (s : State) : Host.Outcome State Fault Refusal :=
  runVec (.rep t w) t w s (fun i s =>
    if !s.vecTakes t then s
    else if bit i.cvt 1 || 2 ≤ (s.tile t).vec.reps.length then s.invalidAt t
    else
      let s := s.vecDone t
      s.updTile t (fun x => { x with vec := { x.vec with reps := ⟨bits i.imm 7 0 + 1, 0, bits i.imm 23 8 + 1⟩ :: x.vec.reps } }))

/-- Vector NOP. -/
def execVectorNop (t w : Nat) (s : State) : Host.Outcome State Fault Refusal :=
  runVec (.vectorNop t w) t w s (fun i s => s.vec t i (i.imm == 0) [] 0 (fun v _ => { vec := v }))

/-! ## Conversions (R155) -/

/-- The targets of stochastic rounding (R90). -/
def stochFmt (f : Nat) : Bool := [2, 3, 4, 5].contains f

/-- The source numbers of a VCVT, in the order of its destination elements (Table 7.2, log entry 29). -/
def cvtSources (src dst half val : Nat) : List NumVal :=
  let n := min (elemCount src) (if fmtBits dst = 8 then 64 else elemCount dst)
  let from' := if elemBits src < elemBits dst && fmtBits dst != 8 then half * (elemCount src / 2) else 0
  let n := if elemBits dst < elemBits src || fmtBits dst = 8 then min n 64 else n
  (upto n).map (fun k => decodeNum src (elemOf src val (from' + k)))

/-- The seed of a stochastic store: S12 low, S13 high (R155). -/
def Vec.seed (v : Vec) : Nat := v.scalar 12 + 2 ^ 32 * v.scalar 13

/-- VCVT: one conversion per element; a stochastic one is made where its OUT line is placed (R91, R155). -/
def execVcvt (t w : Nat) (s : State) : Host.Outcome State Fault Refusal :=
  runVec (.vcvt t w) t w s (fun i s =>
    let src := bits i.imm 3 0
    let rnd := bit i.cvt 1
    let w := if fmtBits i.fmt = 8 then 8 else elemBits i.fmt
    let ok := regFmt src && (regFmt i.fmt || i.fmt == 4 || i.fmt == 5) && decide (i.imm < 32) && (!rnd || (stochFmt i.fmt && i.vd == 31))
    s.vec t { i with cvt := i.cvt % 2 } ok [i.va] (outLines [i.vd]) (fun v rd =>
      let xs := cvtSources src i.fmt (bits i.imm 4 4) (rd i.va)
      if rnd then
        let ys := (xs.zipIdx).map (fun p => if bit (v.mask i.mask) p.2 then p.1 else NumVal.zero)
        { vec := v, outs := [{ data := List.replicate (256 - ys.length * fmtBytes i.fmt) 0, fmt := i.fmt, vals := ys, ovf := bit i.cvt 0, seed := v.seed }] }
      else
        let cs := xs.map (cvtNum i.fmt (bit i.cvt 0) .rne)
        let on := (cs.zipIdx).filter (fun p => bit (v.mask i.mask) p.2)
        ({ vec := v, flags := maskedFlags v i (cs.map Cvt.flags), sats := (on.filter (·.1.sat)).length } : VRes).write i.vd
          (masked v i i.vd w (cs.map (·.val)))))

/-- VPACK: FP32 elements packed narrow from byte 0. -/
def execVpack (t w : Nat) (s : State) : Host.Outcome State Fault Refusal :=
  runVec (.vpack t w) t w s (fun i s =>
    let ok := [4, 5, 6, 7, 8, 10, 12].contains i.fmt && i.imm == 0
    s.vec t i ok [i.va] (outLines [i.vd]) (fun v rd =>
      let cs := (upto 64).map (fun k => cvtNum i.fmt (bit i.cvt 0) .rne (decodeNum 1 (elemOf 1 (rd i.va) k)))
      let on := (cs.zipIdx).filter (fun p => bit (v.mask i.mask) p.2)
      let w := if fmtBits i.fmt = 4 then 4 else 8
      ({ vec := v, flags := maskedFlags v i (cs.map Cvt.flags), sats := (on.filter (·.1.sat)).length } : VRes).write i.vd
        (masked v i i.vd w (cs.map (·.val)))))

/-- VUNPK: 64 narrow elements widened exactly to FP32. -/
def execVunpk (t w : Nat) (s : State) : Host.Outcome State Fault Refusal :=
  runVec (.vunpk t w) t w s (fun i s =>
    let src := bits i.imm 3 0
    let four := fmtBits src == 4
    let ok := [4, 5, 6, 7, 8, 10, 11, 12].contains src && i.fmt == 1 && decide (i.imm < (if four then 32 else 64))
    s.vec t i ok [i.va] (outLines [i.vd]) (fun v rd =>
      let w := if four then 4 else 8
      let base := if four then 256 * bits i.imm 4 4 else 512 * bits i.imm 5 4
      let xs := (upto 64).map (fun k => (cvtFloat 1 true .rne (decodeNum src (trunc (fmtBits src) (bits (rd i.va) (base + w * k + w - 1) (base + w * k))))).val)
      ({ vec := v } : VRes).write i.vd (masked v i i.vd 32 xs)))

/-! ## Compares and masks -/

/-- A compare: bit k of the mask is the comparison of element k; no flag is set. -/
def State.vecCmp (s : State) (t : Nat) (i : VIns) (g : NumVal → NumVal → Bool) : State :=
  s.vec t i (regFmt i.fmt && i.imm == 0) [i.va, i.vb] 0 (fun v rd =>
    let m := (upto (elemCount i.fmt)).foldl (fun m k =>
      if g (decodeNum i.fmt (elemOf i.fmt (rd i.va) k)) (decodeNum i.fmt (elemOf i.fmt (rd i.vb) k)) then m + 2 ^ k else m) 0
    { vec := v.setMask (i.vd % 8) m })

/-- VCMPEQ. -/
def execVcmpeq (t w : Nat) (s : State) : Host.Outcome State Fault Refusal :=
  runVec (.vcmpeq t w) t w s (fun i s => s.vecCmp t i NumVal.eqv)

/-- VCMPLT. -/
def execVcmplt (t w : Nat) (s : State) : Host.Outcome State Fault Refusal :=
  runVec (.vcmplt t w) t w s (fun i s => s.vecCmp t i NumVal.lt)

/-- VCMPLE. -/
def execVcmple (t w : Nat) (s : State) : Host.Outcome State Fault Refusal :=
  runVec (.vcmple t w) t w s (fun i s => s.vecCmp t i (fun a b => a.lt b || a.eqv b))

/-- VCMPUN. -/
def execVcmpun (t w : Nat) (s : State) : Host.Outcome State Fault Refusal :=
  runVec (.vcmpun t w) t w s (fun i s => s.vecCmp t i (fun a b => a.isNan || b.isNan))

/-- A mask operation. -/
def State.maskOp (s : State) (t : Nat) (i : VIns) (g : Nat → Nat → Nat) : State :=
  s.vec t i (i.imm == 0) [] 0 (fun v _ => { vec := v.setMask (i.vd % 8) (g (v.mask (i.va % 8)) (v.mask (i.vb % 8))) })

/-- MAND. -/
def execMand (t w : Nat) (s : State) : Host.Outcome State Fault Refusal :=
  runVec (.mand t w) t w s (fun i s => s.maskOp t i (· &&& ·))

/-- MOR. -/
def execMor (t w : Nat) (s : State) : Host.Outcome State Fault Refusal :=
  runVec (.mor t w) t w s (fun i s => s.maskOp t i (· ||| ·))

/-- MXOR. -/
def execMxor (t w : Nat) (s : State) : Host.Outcome State Fault Refusal :=
  runVec (.mxor t w) t w s (fun i s => s.maskOp t i (· ^^^ ·))

/-- MNOT. -/
def execMnot (t w : Nat) (s : State) : Host.Outcome State Fault Refusal :=
  runVec (.mnot t w) t w s (fun i s => s.maskOp t i (fun a _ => a ^^^ (2 ^ 128 - 1)))

/-- MCNT: population count of a mask. -/
def execMcnt (t w : Nat) (s : State) : Host.Outcome State Fault Refusal :=
  runVec (.mcnt t w) t w s (fun i s => s.vec t i (i.imm == 0) [] 0 (fun v _ =>
    { vec := v.setScalar (i.vd % 16) (popCount 128 (v.mask (i.va % 8))) }))

/-- VSEL: element by element, a where the mask is 1 and b where it is 0. -/
def execVsel (t w : Nat) (s : State) : Host.Outcome State Fault Refusal :=
  runVec (.vsel t w) t w s (fun i s => s.vec t i (regFmt i.fmt && i.imm == 0) [i.va, i.vb] (outLines [i.vd]) (fun v rd =>
    ({ vec := v } : VRes).write i.vd (packElems (elemBits i.fmt) ((upto (elemCount i.fmt)).map (fun k =>
      elemOf i.fmt (if bit (v.mask i.mask) k then rd i.va else rd i.vb) k)))))

/-! ## Compress and expand (R156) -/

/-- COMPRESS. -/
def execCompress (t w : Nat) (s : State) : Host.Outcome State Fault Refusal :=
  runVec (.compress t w) t w s (fun i s => s.vec t i (regFmt i.fmt && decide (i.imm < 256)) [i.va] (outLines [i.vd, i.vc]) (fun v rd =>
    let base := v.scalar (bits i.imm 7 4)
    let idx := (upto (min 64 (elemCount i.fmt))).filter (fun k => bit (v.mask i.mask) k)
    let vals := idx.map (elemOf i.fmt (rd i.va))
    let ids := idx.map (fun k => trunc 32 (k + base)) ++ List.replicate (64 - idx.length) 0xFFFFFFFF
    let r := (({ vec := v } : VRes).write i.vd (packElems (elemBits i.fmt) vals)).write i.vc (packElems 32 ids)
    { r with vec := r.vec.setScalar (bits i.imm 3 0) idx.length }))

/-- EXPAND: VC[i] − base modulo 2^32, as COMPRESS forms its indices, so that it undoes them with any base. -/
def execExpand (t w : Nat) (s : State) : Host.Outcome State Fault Refusal :=
  runVec (.expand t w) t w s (fun i s => s.vec t i (regFmt i.fmt && decide (i.imm < 256)) [i.va, i.vc] (outLines [i.vd]) (fun v rd =>
    let base := v.scalar (bits i.imm 7 4)
    let n := min (v.scalar (bits i.imm 3 0)) (min 64 (elemCount i.fmt))
    let old := elemsOf i.fmt (if i.vd = 31 then 0 else v.reg i.vd)
    let xs := (upto n).foldl (fun xs k =>
      updAt xs ((elemOf 13 (rd i.vc) k + 2 ^ 32 - base) % 2 ^ 32) (fun _ => elemOf i.fmt (rd i.va) k)) old
    ({ vec := v } : VRes).write i.vd (masked v i i.vd (elemBits i.fmt) xs)))

/-- PUSHN: the first elements to OUT as a packed append. -/
def execPushn (t w : Nat) (s : State) : Host.Outcome State Fault Refusal :=
  runVec (.pushn t w) t w s (fun i s =>
    let n := (s.tile t).vec.scalar (bits i.imm 3 0)
    s.vec t i (regFmt i.fmt && decide (i.imm < 16) && decide (n ≤ elemCount i.fmt)) [i.va] 1 (fun v rd =>
      { vec := v, outs := [{ data := (natBytes 256 (rd i.va)).take (n * elemBits i.fmt / 8) }] }))

/-- GATHER: d[i] = a[b[i] mod n]. -/
def execGather (t w : Nat) (s : State) : Host.Outcome State Fault Refusal :=
  runVec (.gather t w) t w s (fun i s =>
    s.vec t i (regFmt i.fmt && i.fmt != 0 && i.imm == 0) [i.va, i.vb] (outLines [i.vd]) (fun v rd =>
      let n := elemCount i.fmt
      ({ vec := v } : VRes).write i.vd (masked v i i.vd (elemBits i.fmt) ((upto n).map (fun k => elemOf i.fmt (rd i.va) (elemOf i.fmt (rd i.vb) k % n))))))

/-! ## Accumulator access (R157) -/

/-- The bank an ACC opcode names: 2e + b. -/
def accBank (i : VIns) : Nat := bits i.imm 1 0

/-- Whether tile `t` has claimed the bank. -/
def State.claimed (s : State) (t k : Nat) : Bool := bit (s.tile t).vec.claims k

/-- Bank k = 2e + b of tile `t`. -/
def State.bankOf (s : State) (t k : Nat) : Bank := nth ((s.tile t).engine (k / 2)).banks (k % 2) Bank.clear

/-- The flags a read of a bank sets in the vector unit. -/
def Bank.readFlags (b : Bank) : Nat := 4 * b2n b.inexact + 16 * b2n b.reanchor

/-- ACLAIM: the claim waits for BANK_CLAIM_GRANT. -/
def execAclaim (t w : Nat) (s : State) : Host.Outcome State Fault Refusal :=
  runVec (.aclaim t w) t w s (fun i s => s.vec t i (decide (i.imm < 4)) [] 0 (fun v _ => { vec := { v with claimWait := some (accBank i) } }))

/-- BANK_CLAIM_GRANT: the vector unit owns the bank it waits for (R114). -/
def execBankClaimGrant (t : Nat) (s : State) : Host.Outcome State Fault Refusal :=
  run (Instr.wf (.bankClaimGrant t)) s (fun s =>
    match (s.tile t).vec.claimWait with
    | none => s
    | some k =>
      if !s.tileRuns t then s
      else
        let s := s.updEng t (k / 2) (fun e => { e with owners := updAt e.owners (k % 2) (fun _ => 3) })
        s.updTile t (fun x => { x with vec := { x.vec with claimWait := none, claims := x.vec.claims ||| 2 ^ k } }))

/-- ARELEASE. -/
def execArelease (t w : Nat) (s : State) : Host.Outcome State Fault Refusal :=
  runVec (.arelease t w) t w s (fun i s =>
    let k := accBank i
    if !s.vecTakes t then s
    else if bit i.cvt 1 || 4 ≤ i.imm || !s.claimed t k then s.invalidAt t
    else
      let s := s.updEng t (k / 2) (fun e => { e with owners := updAt e.owners (k % 2) (fun _ => 0) })
      (s.updTile t (fun x => { x with vec := { x.vec with claims := setBit x.vec.claims k false } })).vecDone t)

/-- A read of a claimed bank with a parity error (R119), or `f`. -/
def State.accRead (s : State) (t : Nat) (i : VIns) (ok : Bool) (parity : Option Nat) (f : State → State) : State :=
  match parity with
  | some p => if s.vecTakes t && ok && !bit i.cvt 1 then s.parityFail t (accBank i / 2) (accBank i % 2) p else f s
  | none => f s

/-- ARDF: four rows of the claimed bank converted to FP32. -/
def execArdf (t w : Nat) (parity : Option Nat) (s : State) : Host.Outcome State Fault Refusal :=
  runVec (.ardf t w parity) t w s (fun i s =>
    let k := accBank i
    let g := bits i.imm 3 2
    let ok := decide (i.imm < 16) && s.claimed t k
    s.accRead t i ok parity (fun s =>
      let b := s.bankOf t k
      s.vec t i ok [] (outLines [i.vd]) (fun v _ =>
        let cs := (upto 64).map (fun x => cvtNum 1 (bit i.cvt 0) .rne ((b.get (64 * g + x)).toNum b.anchor))
        let on := (cs.zipIdx).filter (fun p => bit (v.mask i.mask) p.2)
        ({ vec := v, flags := maskedFlags v i (cs.map Cvt.flags) ||| b.readFlags, sats := (on.filter (·.1.sat)).length } : VRes).write i.vd
          (masked v i i.vd 32 (cs.map (·.val))))))

/-- ARDR: one row raw, with its class bits, sticky bits and anchor in two scalars. -/
def execArdr (t w : Nat) (parity : Option Nat) (s : State) : Host.Outcome State Fault Refusal :=
  runVec (.ardr t w parity) t w s (fun i s =>
    let k := accBank i
    let r := bits i.imm 5 2
    let ok := decide (i.imm < 65536) && bits i.imm 7 6 == 0 && s.claimed t k
    s.accRead t i ok parity (fun s =>
      let b := s.bankOf t k
      s.vec t i ok [] (outLines [i.vd]) (fun v _ =>
        let row := (upto 16).map (fun j => b.get (16 * r + j))
        let cls := (row.zipIdx).foldl (fun n p => n + p.1.cls.code * 4 ^ p.2) 0
        let st := (row.zipIdx).foldl (fun n p => n + b2n p.1.sticky * 2 ^ p.2) 0
        let info := st + b.anchor.getD 0 % 256 * 2 ^ 16 + b2n b.anchor.isSome * 2 ^ 24 + b2n b.inexact * 2 ^ 25 + b2n b.reanchor * 2 ^ 26
        let w := (({ vec := v, flags := b.readFlags } : VRes).write i.vd (packElems 128 (row.map LAcc.valueBits)))
        { w with vec := (w.vec.setScalar (bits i.imm 11 8) cls).setScalar (bits i.imm 15 12) info })))

/-- ASAVE: the bank image to OUT, sixteen lines of 256 bytes and one of 128. -/
def execAsave (t w : Nat) (parity : Option Nat) (s : State) : Host.Outcome State Fault Refusal :=
  runVec (.asave t w parity) t w s (fun i s =>
    let k := accBank i
    let ok := decide (i.imm < 4) && s.claimed t k
    s.accRead t i ok parity (fun s =>
      let b := s.bankOf t k
      let img := b.image.map (·.toNat)
      s.vec t i ok [] 17 (fun v _ =>
        { vec := v, flags := b.readFlags, outs := (upto 17).map (fun n => { data := (img.drop (256 * n)).take 256 }) })))

/-- ALOAD: the lines of an image taken from IN as they come; with the last, the image is checked and becomes the bank
(R101, R133). -/
def execAload (t w : Nat) (s : State) : Host.Outcome State Fault Refusal :=
  runVec (.aload t w) t w s (fun i s =>
    let k := accBank i
    if !s.vecTakes t then s
    else if bit i.cvt 1 || 4 ≤ i.imm || !s.claimed t k then s.invalidAt t
    else
      let ls := (((s.chan t 13).lines).takeWhile PLine.complete).take ((4224 - (s.tile t).vec.aload.length + 255) / 256)
      let s := s.updChan t 13 (fun ch => { ch with lines := ch.lines.drop ls.length })
      let bytes := (s.tile t).vec.aload ++ (ls.map (fun l => l.bytes.take 256)).flatten
      if bytes.length < 4224 then
        s.updTile t (fun x => { x with vec := { x.vec with aload := bytes, inEmpty := true, stall := noteStall s x.vec.stall (s.chanCause t 13 2) } })
      else
        let img := (bytes.take 4224).map (BitVec.ofNat 8)
        let s := s.updTile t (fun x => { x with vec := { x.vec with aload := [] } })
        if imageOk img then
          (s.updEng t (k / 2) (fun e => { e with banks := updAt e.banks (k % 2) (fun _ => bankOfImage img) })).vecDone t
        else match s.tileCmd t with
          | some cid => s.endCmd cid 8 7 [t] false
          | none => s)

end Sys2Proof.Machine
end

