-- ==== Sys2Proof/Machine/Select.lean ====
section
/-!
DEFINITION. The selection unit of a tile and the merge stage of a die (R158-R162).
-/
namespace Sys2Proof.Machine

/-! ## Ranking (R158) -/

/-- The FP32 score of a pair. -/
def score (p : Nat × Nat) : NumVal := decodeNum 1 p.1

/-- Whether `a` ranks before `b`: by score in the order `ord` (false: larger first), then by smaller id. -/
def ranksBefore (ord : Bool) (a b : Nat × Nat) : Bool :=
  if (score a).eqv (score b) then decide (signed 32 a.2 < signed 32 b.2)
  else if ord then (score a).lt (score b) else (score b).lt (score a)

/-- A pair put in its place in a list in rank order. -/
def rankInsert (ord : Bool) (p : Nat × Nat) : List (Nat × Nat) → List (Nat × Nat)
  | [] => [p]
  | x :: xs => if ranksBefore ord p x then p :: x :: xs else x :: rankInsert ord p xs

/-- The best `k` of a list in rank order and one more pair; a NaN score is never kept. -/
def Sel.add (l : Sel) (p : Nat × Nat) : Sel :=
  if (score p).isNan then l else { l with list := (rankInsert l.ord p l.list).take l.k }

/-- The selection unit of tile `t` changed. -/
def State.updSel (s : State) (t : Nat) (f : Sel → Sel) : State := s.updTile t (fun x => { x with sel := f x.sel })

/-- SINIT (R158, R159). -/
def execSinit (t w : Nat) (s : State) : Host.Outcome State Fault Refusal :=
  runVec (.sinit t w) t w s (fun i s =>
    let k := bits i.imm 10 0
    if !s.vecTakes t then s
    else if i.imm &&& (2 ^ 24 - 2 ^ 12) != 0 || k = 0 || 1024 < k || bit i.cvt 1 then s.invalidAt t
    else
      let s := s.updSel t (fun _ => { init := true, k := k, ord := bit i.imm 11, list := [], merging := false })
      (s.setReg (tileBase t + 0x218) 0).vecDone t)

/-- SINS: the candidates that the mask lets through (R158, R159). -/
def execSins (t w : Nat) (s : State) : Host.Outcome State Fault Refusal :=
  runVec (.sins t w) t w s (fun i s =>
    let m := (s.tile t).vec.mask i.mask
    let idx := (upto 64).filter (fun k => bit m k)
    let ok := i.imm == 0 && (s.tile t).sel.init && decide (s.reg (tileBase t + 0x218) + idx.length ≤ 65536)
    let pairs (rd : Nat → Nat) := idx.map (fun k => (elemOf 1 (rd i.va) k, elemOf 13 (rd i.vb) k))
    let line := (s.inLine t).getD 0
    let srcs := [i.va, i.vb]
    let rd (n : Nat) := if n = 31 then line else (s.tile t).vec.reg n
    let ps := pairs rd
    let nans := (ps.filter (fun p => (score p).isNan)).length
    if ok && s.vecTakes t && !bit i.cvt 1 && !(srcs.contains 31 && (s.inLine t).isNone) then
      let s := s.vec t i true srcs 0 (fun v _ => { vec := v })
      let s := s.updSel t (fun l => ps.foldl Sel.add l)
      (s.bump (tileBase t + 0x214) 32 nans).setReg (tileBase t + 0x218) (s.reg (tileBase t + 0x218) + idx.length)
    else s.vec t i ok srcs 0 (fun v _ => { vec := v }))

/-- SOUT: entries 64n to 64n + 63 in rank order; past the count, the canonical NaN with id −1. -/
def execSout (t w : Nat) (s : State) : Host.Outcome State Fault Refusal :=
  runVec (.sout t w) t w s (fun i s =>
    let l := (s.tile t).sel
    let n := bits i.imm 3 0
    let ok := decide (i.imm < 256) && l.init && decide (n < (l.k + 63) / 64)
    s.vec t i ok [] (outLines [i.vd, i.vc]) (fun v _ =>
      let es := (upto 64).map (fun k => nth l.list (64 * n + k) (0x7FC00000, 0xFFFFFFFF))
      let r := (({ vec := v } : VRes).write i.vd (packElems 32 (es.map (·.1)))).write i.vc (packElems 32 (es.map (·.2)))
      { r with vec := r.vec.setScalar (bits i.imm 7 4) l.list.length }))

/-! ## The merge stage of a die (R161, R162) -/

/-- The tiles of the launch that lie on die `d`, or of its shadow (R161, R467). -/
def Cmd.mergeTiles (c : Cmd) (shadow : Bool) (d : Nat) : List Nat :=
  (if shadow then c.shadow else c.tiles).filter (fun u => dieOfTile u == d)

/-- SMERGE: the tile joins its launch's merge on its die that still lacks lists, or begins one. LISTS is the number of the launch's
tiles there, and the last to join must not leave the merge without a collector (R161, log entry 209). -/
def execSmerge (t w : Nat) (s : State) : Host.Outcome State Fault Refusal :=
  runVec (.smerge t w) t w s (fun i s =>
    let lists := bits i.imm 4 0
    let coll := bit i.imm 5
    let d := dieOfTile t
    let l := (s.tile t).sel
    match s.tileCmd t with
    | none => s
    | some cid =>
      let sh := s.tileShadow t
      let mine (m : Merge) : Bool := m.die == d && m.cid == cid && m.shadow == sh && m.full.isNone
      if !s.vecTakes t then s
      else if 64 ≤ i.imm || lists = 0 || 16 < lists || bit i.cvt 1 || ((s.cmd cid).mergeTiles sh d).length != lists then s.invalidAt t
      else
        let join (m : Merge) : Merge :=
          { m with members := m.members ++ [t], collector := if coll then some t else m.collector,
                   full := if m.lists ≤ m.members.length + 1 then some s.time else none }
        match s.merges.find? mine with
        | none =>
          if lists = 1 && !coll then s.invalidAt t
          else
            let s := { s with merges := s.merges ++ [join { die := d, cid := cid, shadow := sh, lists := lists, members := [], collector := none }] }
            (s.updSel t (fun l => { l with merging := true })).vecDone t
        | some m =>
          let same := m.members.all (fun u => (s.tile u).sel.k == l.k && (s.tile u).sel.ord == l.ord)
          let last := decide (m.lists ≤ m.members.length + 1)
          if m.lists != lists || !same || (coll && m.collector.isSome) || (last && !coll && m.collector.isNone) then s.invalidAt t
          else
            let s := { s with merges := s.merges.map (fun m => if mine m then join m else m) }
            (s.updSel t (fun l => { l with merging := true })).vecDone t)

/-- The merge of a command on a die that satisfies `p`. -/
def State.findMerge (s : State) (die cid : Nat) (p : Merge → Bool) : Option Merge :=
  s.merges.find? (fun m => m.die == die && m.cid == cid && p m)

/-- The tile of its die that asks for a merge unit: the one that issued the last SMERGE (R161). -/
def Merge.asks (m : Merge) : Nat := m.members.getLastD 0 % 16

/-- The request that the priority token `tok` of an arbiter of `n` requesters grants among those that wait (R47). -/
def nextGrant (tok n : Nat) (waiting : List Nat) : Option Nat := ((upto n).map (fun i => (tok + i) % n)).find? waiting.contains

/-- The tile whose merge the merge stage of die `d` takes next (R47, R161). -/
def State.mergeTurn (s : State) (d : Nat) : Option Nat :=
  nextGrant (Tbl.get 0 s.sched.turns d) 16 ((s.merges.filter (fun m => m.die == d && m.full.isSome && !m.unit)).map Merge.asks)

/-- MERGE_UNIT_TAKEN: one of the die's four merge units takes a merge all of whose lists are there, if the token grants it; the token
passes to the next tile, every list is read, and the other tiles' SMERGEs complete (R47, R161). -/
def execMergeUnitTaken (die queue seq : Nat) (s : State) : Host.Outcome State Fault Refusal :=
  run (Instr.wf (.mergeUnitTaken die queue seq)) s (fun s =>
    match s.findMerge die (cidOf queue seq) (fun m => m.full.isSome && !m.unit && s.mergeTurn die == some m.asks) with
    | none => s
    | some m =>
      if 4 ≤ (s.merges.filter (fun x => x.die == die && x.unit)).length then s
      else
        let s := s.maxReg (0x1008 + 0x40 * die) 32 (s.time - m.full.getD s.time)
        let s := { s with sched := { s.sched with turns := Tbl.set 0 s.sched.turns die ((m.asks + 1) % 16) } }
        let s := { s with merges := s.merges.map (fun x => if x = m then { x with unit := true, read := (m.members.map (fun t => (s.tile t).sel.list)).flatten } else x) }
        (m.members.filter (fun t => m.collector != some t)).foldl (fun s t => s.updSel t (fun l => { l with merging := false })) s)

/-- MERGE_COMPLETE: the best K of the union is in the collector's selection unit and the merge unit is free. The lists are
those the tiles held when the unit took the merge. The tiles may yield again: one that waits at a SEM_ACQ is at a yield point (R162). -/
def execMergeComplete (die queue seq : Nat) (s : State) : Host.Outcome State Fault Refusal :=
  run (Instr.wf (.mergeComplete die queue seq)) s (fun s =>
    match s.findMerge die (cidOf queue seq) (fun m => m.unit) with
    | none => s
    | some m =>
      let s := { s with merges := s.merges.filter (· != m) }
      let s := s.bump (0x1000 + 0x40 * die) 64 1
      let s := match m.collector with
        | none => s
        | some c => s.updSel c (fun l => { (m.read.foldl Sel.add { l with list := [] }) with merging := false })
      s.restYield m.cid)

end Sys2Proof.Machine
end

