-- ==== Sys2Proof/Machine/Dispatch.lean ====
section
/-!
DEFINITION. The dispatch of a command to its meaning.
-/
namespace Sys2Proof.Machine

/-- The effect of a command on everything but the queue. -/
def exec (i : Instr) (s : State) : Host.Outcome State Fault Refusal :=
  match i with
  | .registerWrite port off size value => Sys2Proof.Machine.execRegisterWrite port off size value s
  | .rcRegisterRead port off size => Sys2Proof.Machine.execRcRegisterRead port off size s
  | .splitRegisterAccess port off write => Sys2Proof.Machine.execSplitRegisterAccess port off write s
  | .paceWindowEnd meas => Sys2Proof.Machine.execPaceWindowEnd meas s
  | .vcoreAdjust die mv => Sys2Proof.Machine.execVcoreAdjust die mv s
  | .paceTimeStepWrite port value => Sys2Proof.Machine.execPaceTimeStepWrite port value s
  | .paceTimeRateWrite port value => Sys2Proof.Machine.execPaceTimeRateWrite port value s
  | .ptpMessageReceive eport sub kind offset stepNs ratePpb => Sys2Proof.Machine.execPtpMessageReceive eport sub kind offset stepNs ratePpb s
  | .folioFetchDone data => Sys2Proof.Machine.execFolioFetchDone data s
  | .folioApplyFail rollbackFails => Sys2Proof.Machine.execFolioApplyFail rollbackFails s
  | .reconfApplyFail restoreFails => Sys2Proof.Machine.execReconfApplyFail restoreFails s
  | .unitRetire unit num => Sys2Proof.Machine.execUnitRetire unit num s
  | .folioCommitWritten readBack => Sys2Proof.Machine.execFolioCommitWritten readBack s
  | .zeroingComplete base => Sys2Proof.Machine.execZeroingComplete base s
  | .engineStep t e bank clr image wrong => Sys2Proof.Machine.execEngineStep t e bank clr image wrong s
  | .bankDrain t e bank parity => Sys2Proof.Machine.execBankDrain t e bank parity s
  | .chkTestWrite port t e value => Sys2Proof.Machine.execChkTestWrite port t e value s
  | .layer t ctl => Sys2Proof.Machine.execLayer t ctl s
  | .yield t live => Sys2Proof.Machine.execYield t live s
  | .semAcq t sem holdNs live => Sys2Proof.Machine.execSemAcq t sem holdNs live s
  | .semRel t sem => Sys2Proof.Machine.execSemRel t sem s
  | .vadd t w => Sys2Proof.Machine.execVadd t w s
  | .vsub t w => Sys2Proof.Machine.execVsub t w s
  | .vmul t w => Sys2Proof.Machine.execVmul t w s
  | .vfma t w => Sys2Proof.Machine.execVfma t w s
  | .vfms t w => Sys2Proof.Machine.execVfms t w s
  | .vmin t w => Sys2Proof.Machine.execVmin t w s
  | .vmax t w => Sys2Proof.Machine.execVmax t w s
  | .vabs t w => Sys2Proof.Machine.execVabs t w s
  | .vneg t w => Sys2Proof.Machine.execVneg t w s
  | .vand t w => Sys2Proof.Machine.execVand t w s
  | .vor t w => Sys2Proof.Machine.execVor t w s
  | .vxor t w => Sys2Proof.Machine.execVxor t w s
  | .vshl t w => Sys2Proof.Machine.execVshl t w s
  | .vshr t w => Sys2Proof.Machine.execVshr t w s
  | .vexp t w => Sys2Proof.Machine.execVexp t w s
  | .vlog t w => Sys2Proof.Machine.execVlog t w s
  | .vrcp t w => Sys2Proof.Machine.execVrcp t w s
  | .vrsqrt t w => Sys2Proof.Machine.execVrsqrt t w s
  | .vtanh t w => Sys2Proof.Machine.execVtanh t w s
  | .vsig t w => Sys2Proof.Machine.execVsig t w s
  | .vmov t w => Sys2Proof.Machine.execVmov t w s
  | .vlane t w => Sys2Proof.Machine.execVlane t w s
  | .sset t w => Sys2Proof.Machine.execSset t w s
  | .rep t w => Sys2Proof.Machine.execRep t w s
  | .vectorNop t w => Sys2Proof.Machine.execVectorNop t w s
  | .vcvt t w => Sys2Proof.Machine.execVcvt t w s
  | .vpack t w => Sys2Proof.Machine.execVpack t w s
  | .vunpk t w => Sys2Proof.Machine.execVunpk t w s
  | .vcmpeq t w => Sys2Proof.Machine.execVcmpeq t w s
  | .vcmplt t w => Sys2Proof.Machine.execVcmplt t w s
  | .vcmple t w => Sys2Proof.Machine.execVcmple t w s
  | .vcmpun t w => Sys2Proof.Machine.execVcmpun t w s
  | .mand t w => Sys2Proof.Machine.execMand t w s
  | .mor t w => Sys2Proof.Machine.execMor t w s
  | .mxor t w => Sys2Proof.Machine.execMxor t w s
  | .mnot t w => Sys2Proof.Machine.execMnot t w s
  | .mcnt t w => Sys2Proof.Machine.execMcnt t w s
  | .vsel t w => Sys2Proof.Machine.execVsel t w s
  | .compress t w => Sys2Proof.Machine.execCompress t w s
  | .expand t w => Sys2Proof.Machine.execExpand t w s
  | .pushn t w => Sys2Proof.Machine.execPushn t w s
  | .gather t w => Sys2Proof.Machine.execGather t w s
  | .aclaim t w => Sys2Proof.Machine.execAclaim t w s
  | .bankClaimGrant t => Sys2Proof.Machine.execBankClaimGrant t s
  | .arelease t w => Sys2Proof.Machine.execArelease t w s
  | .ardf t w parity => Sys2Proof.Machine.execArdf t w parity s
  | .ardr t w parity => Sys2Proof.Machine.execArdr t w parity s
  | .asave t w parity => Sys2Proof.Machine.execAsave t w parity s
  | .aload t w => Sys2Proof.Machine.execAload t w s
  | .sinit t w => Sys2Proof.Machine.execSinit t w s
  | .sins t w => Sys2Proof.Machine.execSins t w s
  | .sout t w => Sys2Proof.Machine.execSout t w s
  | .smerge t w => Sys2Proof.Machine.execSmerge t w s
  | .mergeUnitTaken die queue seq => Sys2Proof.Machine.execMergeUnitTaken die queue seq s
  | .mergeComplete die queue seq => Sys2Proof.Machine.execMergeComplete die queue seq s
  | .seta t c => Sys2Proof.Machine.execSeta t c s
  | .adda t c => Sys2Proof.Machine.execAdda t c s
  | .loop t c => Sys2Proof.Machine.execLoop t c s
  | .move t c => Sys2Proof.Machine.execMove t c s
  | .moveRequestComplete t c res hostData => Sys2Proof.Machine.execMoveRequestComplete t c res hostData s
  | .emit t at' => Sys2Proof.Machine.execEmit t at' s
  | .take t c => Sys2Proof.Machine.execTake t c s
  | .waitt t c => Sys2Proof.Machine.execWaitt t c s
  | .tokenWaitSatisfied t c => Sys2Proof.Machine.execTokenWaitSatisfied t c s
  | .sigt t c => Sys2Proof.Machine.execSigt t c s
  | .sigtTakeEffect t c => Sys2Proof.Machine.execSigtTakeEffect t c s
  | .flip t c => Sys2Proof.Machine.execFlip t c s
  | .endStroke t c => Sys2Proof.Machine.execEndStroke t c s
  | .clusterCacheFill cluster line res res2 => Sys2Proof.Machine.execClusterCacheFill cluster line res res2 s
  | .lookup queue going host => Sys2Proof.Machine.execLookup queue going host s
  | .rowFetchComplete queue seq pass row ecc => Sys2Proof.Machine.execRowFetchComplete queue seq pass row ecc s
  | .passComplete queue seq pass host => Sys2Proof.Machine.execPassComplete queue seq pass host s
  | .teMapInvalWrite port value => Sys2Proof.Machine.execTeMapInvalWrite port value s
  | .agingSweep die table => Sys2Proof.Machine.execAgingSweep die table s
  | .update queue going host => Sys2Proof.Machine.execUpdate queue going host s
  | .sgd queue seq pass row ecc => Sys2Proof.Machine.execSgd queue seq pass row ecc s
  | .rwAdagrad queue seq pass row ecc => Sys2Proof.Machine.execRwAdagrad queue seq pass row ecc s
  | .adam queue seq pass row ecc => Sys2Proof.Machine.execAdam queue seq pass row ecc s
  | .stepAdvance queue seq => Sys2Proof.Machine.execStepAdvance queue seq s
  | .epochFlip queue seq pass => Sys2Proof.Machine.execEpochFlip queue seq pass s
  | .epochCatchupStart table => Sys2Proof.Machine.execEpochCatchupStart table s
  | .migrationTake die table row slot => Sys2Proof.Machine.execMigrationTake die table row slot s
  | .migrationFlip die table row => Sys2Proof.Machine.execMigrationFlip die table row s
  | .migrationAbandon die table row => Sys2Proof.Machine.execMigrationAbandon die table row s
  | .migrationComplete die table row => Sys2Proof.Machine.execMigrationComplete die table row s
  | .reduce queue host => Sys2Proof.Machine.execReduce queue host s
  | .redAdd queue seq entry elem host ecc => Sys2Proof.Machine.execRedAdd queue seq entry elem host ecc s
  | .redMin queue seq entry elem host ecc => Sys2Proof.Machine.execRedMin queue seq entry elem host ecc s
  | .redMax queue seq entry elem host ecc => Sys2Proof.Machine.execRedMax queue seq entry elem host ecc s
  | .redCas queue seq entry elem host ecc => Sys2Proof.Machine.execRedCas queue seq entry elem host ecc s
  | .epochClose queue seq => Sys2Proof.Machine.execEpochClose queue seq s
  | .session queue host => Sys2Proof.Machine.execSession queue host s
  | .sesFind queue seq entry host ecc => Sys2Proof.Machine.execSesFind queue seq entry host ecc s
  | .sesInsert queue seq entry host ecc => Sys2Proof.Machine.execSesInsert queue seq entry host ecc s
  | .sesDelete queue seq entry host ecc => Sys2Proof.Machine.execSesDelete queue seq entry host ecc s
  | .sesTouch queue seq entry host ecc => Sys2Proof.Machine.execSesTouch queue seq entry host ecc s
  | .sesAppend queue seq entry host ecc => Sys2Proof.Machine.execSesAppend queue seq entry host ecc s
  | .sesWrite queue seq entry host ecc => Sys2Proof.Machine.execSesWrite queue seq entry host ecc s
  | .sesRead queue seq entry host ecc => Sys2Proof.Machine.execSesRead queue seq entry host ecc s
  | .sessionResolve queue seq ecc => Sys2Proof.Machine.execSessionResolve queue seq ecc s
  | .sessionSweep die slot => Sys2Proof.Machine.execSessionSweep die slot s
  | .cxlRequestTimeout req n => Sys2Proof.Machine.execCxlRequestTimeout req n s
  | .t3WindowWrite port window target value => Sys2Proof.Machine.execT3WindowWrite port window target value s
  | .windowLayerRelease queue seq layer => Sys2Proof.Machine.execWindowLayerRelease queue seq layer s
  | .replicaReadComplete addr ok stallNs => Sys2Proof.Machine.execReplicaReadComplete addr ok stallNs s
  | .scrubPatrol die addr res => Sys2Proof.Machine.execScrubPatrol die addr res s
  | .rowSpareRemap die ddr dbank row sectors repair => Sys2Proof.Machine.execRowSpareRemap die ddr dbank row sectors repair s
  | .stackTempSample die tstack => Sys2Proof.Machine.execStackTempSample die tstack s
  | .hostLinkUp port mode speed width => Sys2Proof.Machine.execHostLinkUp port mode speed width s
  | .hostLinkDown port => Sys2Proof.Machine.execHostLinkDown port s
  | .hostPortSwitch die port => Sys2Proof.Machine.execHostPortSwitch die port s
  | .hdmDecoderCommit port dec base ways => Sys2Proof.Machine.execHdmDecoderCommit port dec base ways s
  | .hostMemRead port addr res => Sys2Proof.Machine.execHostMemRead port addr res s
  | .hostMemWrite port addr data => Sys2Proof.Machine.execHostMemWrite port addr data s
  | .bar4Read port off len ecc => Sys2Proof.Machine.execBar4Read port off len ecc s
  | .bar4Write port off data => Sys2Proof.Machine.execBar4Write port off data s
  | .birspReceive port addr => Sys2Proof.Machine.execBirspReceive port addr s
  | .hostSnoop port addr kind => Sys2Proof.Machine.execHostSnoop port addr kind s
  | .hostWriteGo die port addr => Sys2Proof.Machine.execHostWriteGo die port addr s
  | .biasFlip port pages => Sys2Proof.Machine.execBiasFlip port pages s
  | .fenceComplete queue seq => Sys2Proof.Machine.execFenceComplete queue seq s
  | .completionRecordWrite queue seq written => Sys2Proof.Machine.execCompletionRecordWrite queue seq written s
  | .msixSend port vector => Sys2Proof.Machine.execMsixSend port vector s
  | .msixUnmask port vector => Sys2Proof.Machine.execMsixUnmask port vector s
  | .atsTranslationCompletion die page pasid ans => Sys2Proof.Machine.execAtsTranslationCompletion die page pasid ans s
  | .atsInvalidationRequest port tag pasid page size => Sys2Proof.Machine.execAtsInvalidationRequest port tag pasid page size s
  | .invalidationCompletionSend port => Sys2Proof.Machine.execInvalidationCompletionSend port s
  | .xlatFlush port value => Sys2Proof.Machine.execXlatFlush port value s
  | .prgResponse port page pasid code => Sys2Proof.Machine.execPrgResponse port page pasid code s
  | .prgTimeout port page pasid => Sys2Proof.Machine.execPrgTimeout port page pasid s
  | .doorbell port queue value => Sys2Proof.Machine.execDoorbell port queue value s
  | .deviceDoorbell queue tail t => Sys2Proof.Machine.execDeviceDoorbell queue tail t s
  | .cqHeadWrite port queue value => Sys2Proof.Machine.execCqHeadWrite port queue value s
  | .entryFetch queue data => Sys2Proof.Machine.execEntryFetch queue data s
  | .staleReread queue data => Sys2Proof.Machine.execStaleReread queue data s
  | .launch queue marksOk budgets posts lookup => Sys2Proof.Machine.execLaunch queue marksOk budgets posts lookup s
  | .nop queue => Sys2Proof.Machine.execNop queue s
  | .queueCreate ctx => Sys2Proof.Machine.execQueueCreate ctx s
  | .queueDrainComplete queue => Sys2Proof.Machine.execQueueDrainComplete queue s
  | .handleCommit port value => Sys2Proof.Machine.execHandleCommit port value s
  | .admqCtrlWrite port value => Sys2Proof.Machine.execAdmqCtrlWrite port value s
  | .taskStart t img => Sys2Proof.Machine.execTaskStart t img s
  | .modelLoadComplete part model cluster layer whole => Sys2Proof.Machine.execModelLoadComplete part model cluster layer whole s
  | .timesliceExpiry queue seq => Sys2Proof.Machine.execTimesliceExpiry queue seq s
  | .saveComplete queue seq => Sys2Proof.Machine.execSaveComplete queue seq s
  | .restoreComplete queue seq => Sys2Proof.Machine.execRestoreComplete queue seq s
  | .yieldLate queue seq lateNs => Sys2Proof.Machine.execYieldLate queue seq lateNs s
  | .wcetWatchdogExpiry queue seq clock => Sys2Proof.Machine.execWcetWatchdogExpiry queue seq clock s
  | .semHoldOverrun part sem => Sys2Proof.Machine.execSemHoldOverrun part sem s
  | .acctSelWrite port value => Sys2Proof.Machine.execAcctSelWrite port value s
  | .acctMdlSelWrite port value => Sys2Proof.Machine.execAcctMdlSelWrite port value s
  | .acctClear port value => Sys2Proof.Machine.execAcctClear port value s
  | .fabricLinkUp eport sub mode => Sys2Proof.Machine.execFabricLinkUp eport sub mode s
  | .fabricLinkDown eport sub => Sys2Proof.Machine.execFabricLinkDown eport sub s
  | .frameReceive eport sub kind fields => Sys2Proof.Machine.execFrameReceive eport sub kind fields s
  | .quillPut eport p => Sys2Proof.Machine.execQuillPut eport p s
  | .getReq eport p => Sys2Proof.Machine.execGetReq eport p s
  | .getResp eport p host => Sys2Proof.Machine.execGetResp eport p host s
  | .atomicRx eport p => Sys2Proof.Machine.execAtomicRx eport p s
  | .coll eport p host => Sys2Proof.Machine.execColl eport p host s
  | .ack eport p => Sys2Proof.Machine.execAck eport p s
  | .nak eport p => Sys2Proof.Machine.execNak eport p s
  | .abortRx eport p => Sys2Proof.Machine.execAbortRx eport p s
  | .ackDelayTimer flow => Sys2Proof.Machine.execAckDelayTimer flow s
  | .retransmitTimeout flow psn => Sys2Proof.Machine.execRetransmitTimeout flow psn s
  | .flowProgressTimeout flow => Sys2Proof.Machine.execFlowProgressTimeout flow s
  | .nakRetryTimer flow psn => Sys2Proof.Machine.execNakRetryTimer flow psn s
  | .keyRetireTimer flow => Sys2Proof.Machine.execKeyRetireTimer flow s
  | .flowOpen port => Sys2Proof.Machine.execFlowOpen port s
  | .flowClose port => Sys2Proof.Machine.execFlowClose port s
  | .flowReset port => Sys2Proof.Machine.execFlowReset port s
  | .rxNext port => Sys2Proof.Machine.execRxNext port s
  | .switchTx port => Sys2Proof.Machine.execSwitchTx port s
  | .groupDefine port value => Sys2Proof.Machine.execGroupDefine port value s
  | .postWordWrite queue seq task tail => Sys2Proof.Machine.execPostWordWrite queue seq task tail s
  | .put queue seq task host => Sys2Proof.Machine.execPut queue seq task host s
  | .get queue seq task host => Sys2Proof.Machine.execGet queue seq task host s
  | .atomicAdd queue seq task host => Sys2Proof.Machine.execAtomicAdd queue seq task host s
  | .allReduce queue seq task host => Sys2Proof.Machine.execAllReduce queue seq task host s
  | .allToAll queue seq task host => Sys2Proof.Machine.execAllToAll queue seq task host s
  | .allGather queue seq task host => Sys2Proof.Machine.execAllGather queue seq task host s
  | .mcastPut queue seq task host => Sys2Proof.Machine.execMcastPut queue seq task host s
  | .quillOperationComplete op => Sys2Proof.Machine.execQuillOperationComplete op s
  | .trainingComplete mods => Sys2Proof.Machine.execTrainingComplete mods s
  | .startTestComplete fails => Sys2Proof.Machine.execStartTestComplete fails s
  | .nibOwnerSet port value data => Sys2Proof.Machine.execNibOwnerSet port value data s
  | .nibBfwInstall port value data => Sys2Proof.Machine.execNibBfwInstall port value data s
  | .getVersion port => Sys2Proof.Machine.execGetVersion port s
  | .getCapabilities port => Sys2Proof.Machine.execGetCapabilities port s
  | .negotiateAlgorithms port => Sys2Proof.Machine.execNegotiateAlgorithms port s
  | .getDigests port => Sys2Proof.Machine.execGetDigests port s
  | .getCertificate port off len => Sys2Proof.Machine.execGetCertificate port off len s
  | .challenge port nonce summary => Sys2Proof.Machine.execChallenge port nonce summary s
  | .getMeasurements port index signed nonce => Sys2Proof.Machine.execGetMeasurements port index signed nonce s
  | .spdmUnsupportedRequest port code => Sys2Proof.Machine.execSpdmUnsupportedRequest port code s
  | .shutdownOff port value => Sys2Proof.Machine.execShutdownOff port value s
  | .shutdownTest port value => Sys2Proof.Machine.execShutdownTest port value s
  | .bistPauseLimit die fails vmin tjMax => Sys2Proof.Machine.execBistPauseLimit die fails vmin tjMax s
  | .bistComplete fails vmin tjMax => Sys2Proof.Machine.execBistComplete fails vmin tjMax s
  | .blotRingEnable port ring => Sys2Proof.Machine.execBlotRingEnable port ring s
  | .fltHeadWrite port ring value => Sys2Proof.Machine.execFltHeadWrite port ring value s
  | .fltOvfClear port value => Sys2Proof.Machine.execFltOvfClear port value s
  | .probeSampleDue t => Sys2Proof.Machine.execProbeSampleDue t s
  | .probeIdleTimer t => Sys2Proof.Machine.execProbeIdleTimer t s
  | .idleUnitProbe die => Sys2Proof.Machine.execIdleUnitProbe die s
  | .fltProbeCmd port value => Sys2Proof.Machine.execFltProbeCmd port value s
  | .probeComplete kind num failed => Sys2Proof.Machine.execProbeComplete kind num failed s
  | .suspectStageComplete die failed => Sys2Proof.Machine.execSuspectStageComplete die failed s
  | .perstAssert port => Sys2Proof.Machine.execPerstAssert port s
  | .perstRelease port => Sys2Proof.Machine.execPerstRelease port s
  | .thermtrip die => Sys2Proof.Machine.execThermtrip die s
  | .epochCatchupComplete table => Sys2Proof.Machine.execEpochCatchupComplete table s
  | .bfwInstallComplete ok => Sys2Proof.Machine.execBfwInstallComplete ok s
  | .atsPriEnable port ats pasid pri => Sys2Proof.Machine.execAtsPriEnable port ats pasid pri s
  | .timeSlewComplete => Sys2Proof.Machine.execTimeSlewComplete s
  | .ptpHoldoverTimeout => Sys2Proof.Machine.execPtpHoldoverTimeout s
  | .refclkLost => Sys2Proof.Machine.execRefclkLost s
  | .refclkResume => Sys2Proof.Machine.execRefclkResume s
  | .folioLoad => Sys2Proof.Machine.execFolioLoad s
  | .folioQuiesceDone => Sys2Proof.Machine.execFolioQuiesceDone s
  | .folioProgramDone => Sys2Proof.Machine.execFolioProgramDone s
  | .partReconf => Sys2Proof.Machine.execPartReconf s
  | .drainLimitExpiry => Sys2Proof.Machine.execDrainLimitExpiry s
  | .partitionQuiesced => Sys2Proof.Machine.execPartitionQuiesced s
  | .reconfApplyDone => Sys2Proof.Machine.execReconfApplyDone s
  | .folioRepair => Sys2Proof.Machine.execFolioRepair s
  | .folioCommit => Sys2Proof.Machine.execFolioCommit s
  | .regulatorRefill => Sys2Proof.Machine.execRegulatorRefill s
  | .biasFlipComplete => Sys2Proof.Machine.execBiasFlipComplete s
  | .hostBiasFlush => Sys2Proof.Machine.execHostBiasFlush s
  | .xlatFlushComplete => Sys2Proof.Machine.execXlatFlushComplete s
  | .queueDestroy => Sys2Proof.Machine.execQueueDestroy s
  | .htabBind => Sys2Proof.Machine.execHtabBind s
  | .htabUnbind => Sys2Proof.Machine.execHtabUnbind s
  | .powerOnStart => Sys2Proof.Machine.execPowerOnStart s
  | .bootFirmwareStart => Sys2Proof.Machine.execBootFirmwareStart s
  | .bootLeadTimeout => Sys2Proof.Machine.execBootLeadTimeout s
  | .startDone => Sys2Proof.Machine.execStartDone s
  | .t2ZeroingComplete => Sys2Proof.Machine.execT2ZeroingComplete s
  | .shutdownQuiesced => Sys2Proof.Machine.execShutdownQuiesced s
  | .shutdownFlushed => Sys2Proof.Machine.execShutdownFlushed s
  | .readyForOff => Sys2Proof.Machine.execReadyForOff s
  | .heartbeatWrite => Sys2Proof.Machine.execHeartbeatWrite s
  | .heartbeatTimeout => Sys2Proof.Machine.execHeartbeatTimeout s
  | .resetAssert => Sys2Proof.Machine.execResetAssert s
  | .ownerSetComplete => Sys2Proof.Machine.execOwnerSetComplete s

end Sys2Proof.Machine
end

