-- ==== Sys2Proof/Safety.lean ====
section
/-!
DEFINITION. What a safe step of the block is: it stops with no fault and keeps the canonical form of device memory.
-/
namespace Sys2Proof.Machine

/-- The step answers a next state. -/
def Completes (o : Host.Outcome State Fault Refusal) : Prop := ∃ s', o = .next s'

/-- Nothing of a command is left over between commands: nothing is due at a bucket, nothing asked of the host, no outcome of a sector kept. -/
def Settled (s : State) : Prop := s.memc.due = [] ∧ s.host.needs = [] ∧ s.memc.med = []

/-- Effect `f` of a command takes place from `s` in state `a`: what it moves has been admitted and the host has released what it writes; where
there is nothing of either, in `s` itself (R269-R272, R304, log entry 196). `ecc` says how the sectors turn out. -/
def Ready (s : State) (ecc : Sectors) (f : State → State) (a : State) : Prop :=
  let t := f (s.setMed ecc)
  if t.memc.due = [] ∧ t.host.needs = [] then a = s.setMed ecc
  else a = ((s.setMed ecc).ask t.memc.due).claim t.host.needs ∧ a.granted t.memc.due = true ∧ a.hostClaimed t.host.needs = true

/-- What effect `f`, carried out in `a`, leaves of a command that began in `s`: the amounts are taken from what was admitted, and the GOs used. -/
def doneAs (s a : State) (f : State → State) : State :=
  { (((f a).spend (f a).memc.due).settled.useTokens).setMed [] with pending := s.pending }

/-- The sector at physical address `x` can be read at once, and reads clean (R65, R273, R285, R290, R304, R305). -/
def ReadsClean (s : State) (x : Nat) : Prop :=
  s.unzeroed x 64 = false ∧ s.biHeld x = false ∧ s.inHostBias x = false ∧ s.pageRetired x = false ∧ (s.sector x).poison = false ∧
  s.outcome x = .ok

/-- The data of the state that has a canonical form is in it: device memory lists addresses rising and no byte that an
unlisted address reads as. -/
def State.Inv (s : State) : Prop := Memory.wf s.mem = true

end Sys2Proof.Machine
end

