-- ==== Sys2Proof/Certificates/Slice0/Obligations.lean ====
section
/-!
DEFINITION. The statements for the provers. Most say where a command completes and what it leaves: for every state and operands
that meet hypotheses on the two alone, `exec` answers a next state, and what holds of it. The operands and units a command
names are those of its row; `s.alive` says that the block is neither held in reset nor tripped.
-/
namespace Sys2Proof.Machine

/-- A command that is still to be carried out: not removed, not fencing. -/
def Live (s : State) (cid : Nat) : Prop := (s.cmd cid).st ∉ [CmdSt.none, .fencing, .fenced]

/-- The outcome of a command that reaches memory with effect `f` (log entry 196). -/
def paidNext (s : State) (f : State → State) : Host.Outcome State Fault Refusal :=
  .next { ((s.setMed []).paid f).setMed [] with pending := s.pending }

end Sys2Proof.Machine
namespace Sys2Proof.Machine

/-! ## The vector unit (07) -/

/-- Vector instruction `i` issues on tile `t`: its task runs, nothing of it is waiting, RND is 0, IN has a line if a source is V31, and
OUT has room for the lines it hands over (R148, R151). -/
def VecReady (s : State) (t : Nat) (i : VIns) (srcs : List Nat) (lines : Nat) : Prop :=
  s.alive = true ∧ t < 128 ∧ VIns.ok i = true ∧ s.vecTakes t = true ∧ bit i.cvt 1 = false ∧
  (srcs.contains 31 = true → (s.inLine t).isSome = true) ∧ (s.chan t 14).items.length + lines ≤ 33

/-- What source `n` reads: a register, or the line at the head of IN (R148). -/
def vecSrc (s : State) (t n : Nat) : Nat := if n = 31 then (s.inLine t).getD 0 else (s.tile t).vec.reg n

/-- Element `k` of source `n` in format `f`. -/
def srcElem (s : State) (t f n k : Nat) : Nat := elemOf f (vecSrc s t n) k

/-- Element `k` of the second source: of VB, or of the scalar that IMM[23] broadcasts to every lane (R150). -/
def secondElem (s : State) (t : Nat) (i : VIns) (k : Nat) : Nat :=
  if bit i.imm 23 then elemOf i.fmt (packElems 32 (List.replicate 64 ((s.tile t).vec.scalar (bits i.imm 19 16)))) k
  else srcElem s t i.fmt i.vb k

/-- Destination `d` of tile `t` has taken `v`: a register holds it, or OUT ends with its 256 bytes (R148). -/
def VecPut (s u : State) (t d v : Nat) : Prop :=
  if d = 31 then (u.chan t 14).items = (s.chan t 14).items ++ [{ data := natBytes 256 v }] else (u.tile t).vec.reg d = v

/-- The destination holds `f k` in element `k` of `w` bits where the governing mask is 1; where it is 0 its old value, or zero under
MZ or in a line for OUT (R148, Table 7.1). -/
def VecLanes (s u : State) (t : Nat) (i : VIns) (w n : Nat) (f : Nat → Nat) : Prop :=
  ∃ v, VecPut s u t i.vd v ∧ ∀ k < n, bits v (w * (k + 1) - 1) (w * k) =
    if bit ((s.tile t).vec.mask i.mask) k then f k % 2 ^ w
    else if i.mz || i.vd = 31 then 0 else bits ((s.tile t).vec.reg i.vd) (w * (k + 1) - 1) (w * k)

/-- The command of row `c` whose word has CLASS and OP `code` and the fields of an instruction (R150). -/
def vrow (c : Nat → Nat → Instr) (code : Nat) (t : Nat) (i : VIns) : Instr := c t (vword code i)

/-- Instruction `c`, of the formats `fmts`, reads the sources `srcs` and leaves `f` of the state, tile, fields and element in every
element of its destination. -/
def ElementsOf (c : Nat → VIns → Instr) (fmts : List Nat) (srcs : VIns → List Nat) (f : State → Nat → VIns → Nat → Nat) : Prop :=
  ∀ s t i, VecReady s t i (srcs i) (outLines [i.vd]) → i.fmt ∈ fmts → arithImm i = true →
    ∃ u, exec (c t i) s = .next u ∧ VecLanes s u t i (elemBits i.fmt) (elemCount i.fmt) (f s t i)

/-- The flags of the elements that the mask lets through are raised in TILE_t_VEC_FLAGS. -/
def FlagsOf (c : Nat → VIns → Instr) (fmts : List Nat) (srcs : VIns → List Nat) (f : State → Nat → VIns → Nat → Nat) : Prop :=
  ∀ s t i, VecReady s t i (srcs i) (outLines [i.vd]) → i.fmt ∈ fmts → arithImm i = true →
    ∃ u, exec (c t i) s = .next u ∧ ∀ n < 5, bit (u.reg (tileBase t + 0x204)) n =
      (bit (s.reg (tileBase t + 0x204)) n ||
       (List.range (elemCount i.fmt)).any (fun k => bit ((s.tile t).vec.mask i.mask) k && bit (f s t i k) n))

/-- Sources A, B and C of element `k` as numbers of the instruction's format. -/
def numA (s : State) (t : Nat) (i : VIns) (k : Nat) : NumVal := decodeNum i.fmt (srcElem s t i.fmt i.va k)
def numB (s : State) (t : Nat) (i : VIns) (k : Nat) : NumVal := decodeNum i.fmt (secondElem s t i k)
def numC (s : State) (t : Nat) (i : VIns) (k : Nat) : NumVal := decodeNum i.fmt (srcElem s t i.fmt i.vc k)

end Sys2Proof.Machine

open Sys2Proof Sys2Proof.Machine

/-- Integer VADD to VNEG wrap modulo the element width (Table 7.2); the absolute value and the negation of the most negative integer
are free values (log entry 3). -/
def Obligations.VectorIntegerArithmetic : Prop :=
  let a (s : State) (t : Nat) (i : VIns) (k : Nat) := srcElem s t i.fmt i.va k
  let b (s : State) (t : Nat) (i : VIns) (k : Nat) := secondElem s t i k
  let c (s : State) (t : Nat) (i : VIns) (k : Nat) := srcElem s t i.fmt i.vc k
  let w (i : VIns) := elemBits i.fmt
  ElementsOf (vrow .vadd 0) [9, 13] twoSrcs (fun s t i k => a s t i k + b s t i k) ∧
  ElementsOf (vrow .vsub 1) [9, 13] twoSrcs (fun s t i k => a s t i k + (2 ^ w i - b s t i k)) ∧
  ElementsOf (vrow .vmul 2) [9, 13] twoSrcs (fun s t i k => a s t i k * b s t i k) ∧
  ElementsOf (vrow .vfma 3) [9, 13] (fun i => twoSrcs i ++ [i.vc]) (fun s t i k => a s t i k * b s t i k + c s t i k) ∧
  ElementsOf (vrow .vfms 4) [9, 13] (fun i => twoSrcs i ++ [i.vc]) (fun s t i k => a s t i k * b s t i k + (2 ^ w i - c s t i k)) ∧
  ElementsOf (vrow .vmin 5) [9, 13] twoSrcs (fun s t i k => if signed (w i) (a s t i k) ≤ signed (w i) (b s t i k) then a s t i k else b s t i k) ∧
  ElementsOf (vrow .vmax 6) [9, 13] twoSrcs (fun s t i k => if signed (w i) (a s t i k) ≤ signed (w i) (b s t i k) then b s t i k else a s t i k) ∧
  ElementsOf (vrow .vabs 7) [9, 13] (fun i => [i.va]) (fun s t i k => if a s t i k = 2 ^ (w i - 1) then Config.freeValue (s.free + k)
    else if a s t i k < 2 ^ (w i - 1) then a s t i k else 2 ^ w i - a s t i k) ∧
  ElementsOf (vrow .vneg 8) [9, 13] (fun i => [i.va]) (fun s t i k => if a s t i k = 2 ^ (w i - 1) then Config.freeValue (s.free + k)
    else 2 ^ w i - a s t i k)

/-- The bitwise opcodes take any format and work on the bits; the shifts take INT32 and INT16 and shift by b mod the width, VSHR
arithmetically; VMOV copies and VLANE gives the element index (Table 7.2). -/
def Obligations.VectorBitwiseAndMoves : Prop :=
  let a (s : State) (t : Nat) (i : VIns) (k : Nat) := BitVec.ofNat (elemBits i.fmt) (srcElem s t i.fmt i.va k)
  let b (s : State) (t : Nat) (i : VIns) (k : Nat) := BitVec.ofNat (elemBits i.fmt) (secondElem s t i k)
  let any : List Nat := [0, 1, 2, 3, 9, 13]
  ElementsOf (vrow .vand 9) any twoSrcs (fun s t i k => (a s t i k &&& b s t i k).toNat) ∧
  ElementsOf (vrow .vor 10) any twoSrcs (fun s t i k => (a s t i k ||| b s t i k).toNat) ∧
  ElementsOf (vrow .vxor 11) any twoSrcs (fun s t i k => (a s t i k ^^^ b s t i k).toNat) ∧
  ElementsOf (vrow .vshl 12) [9, 13] twoSrcs (fun s t i k => (a s t i k <<< ((b s t i k).toNat % elemBits i.fmt)).toNat) ∧
  ElementsOf (vrow .vshr 13) [9, 13] twoSrcs (fun s t i k => ((a s t i k).sshiftRight ((b s t i k).toNat % elemBits i.fmt)).toNat) ∧
  ElementsOf (vrow .vmov 24) any (fun i => [i.va]) (fun s t i k => (a s t i k).toNat) ∧
  ElementsOf (vrow .vlane 26) [13] (fun _ => []) (fun _ _ _ k => k)

/-- Floating-point VADD to VNEG form the exact result and round it once to nearest, ties to even, in FMT, and raise the flags of
Table 6.1; a NaN operand is propagated; VABS and VNEG change the sign of a number alone, and of a NaN nothing (R78, R152). -/
def Obligations.VectorFloatArithmetic : Prop :=
  let fs : List Nat := [0, 1, 2, 3]
  let three (i : VIns) : List Nat := twoSrcs i ++ [i.vc]
  let add (s : State) (t : Nat) (i : VIns) (k : Nat) := vecRound i.fmt (sum2 (numA s t i k) (numB s t i k) false)
  let sub (s : State) (t : Nat) (i : VIns) (k : Nat) := vecRound i.fmt (sum2 (numA s t i k) (numB s t i k) true)
  let mul (s : State) (t : Nat) (i : VIns) (k : Nat) := vecRound i.fmt ((numA s t i k).mul (numB s t i k))
  let fma (s : State) (t : Nat) (i : VIns) (k : Nat) := vecRound i.fmt (fused (numA s t i k) (numB s t i k) (numC s t i k) false)
  let fms (s : State) (t : Nat) (i : VIns) (k : Nat) := vecRound i.fmt (fused (numA s t i k) (numB s t i k) (numC s t i k) true)
  let nan (s : State) (t : Nat) (i : VIns) (k : Nat) := (numA s t i k).isNan
  let a (s : State) (t : Nat) (i : VIns) (k : Nat) := srcElem s t i.fmt i.va k
  let b (s : State) (t : Nat) (i : VIns) (k : Nat) := secondElem s t i k
  let less (s : State) (t : Nat) (i : VIns) (k : Nat) : Bool := (numA s t i k).lt (numB s t i k) ||
    ((numA s t i k).eqv (numB s t i k) && (numA s t i k).sgn && !(numB s t i k).sgn)
  let either (s : State) (t : Nat) (i : VIns) (k : Nat) := firstNan [numA s t i k, numB s t i k]
  ElementsOf (vrow .vadd 0) fs twoSrcs (fun s t i k => (add s t i k).1) ∧ FlagsOf (vrow .vadd 0) fs twoSrcs (fun s t i k => (add s t i k).2) ∧
  ElementsOf (vrow .vsub 1) fs twoSrcs (fun s t i k => (sub s t i k).1) ∧ FlagsOf (vrow .vsub 1) fs twoSrcs (fun s t i k => (sub s t i k).2) ∧
  ElementsOf (vrow .vmul 2) fs twoSrcs (fun s t i k => (mul s t i k).1) ∧ FlagsOf (vrow .vmul 2) fs twoSrcs (fun s t i k => (mul s t i k).2) ∧
  ElementsOf (vrow .vfma 3) fs three (fun s t i k => (fma s t i k).1) ∧ FlagsOf (vrow .vfma 3) fs three (fun s t i k => (fma s t i k).2) ∧
  ElementsOf (vrow .vfms 4) fs three (fun s t i k => (fms s t i k).1) ∧ FlagsOf (vrow .vfms 4) fs three (fun s t i k => (fms s t i k).2) ∧
  ElementsOf (vrow .vmin 5) fs twoSrcs (fun s t i k => match either s t i k with
    | some n => encodeExact i.fmt n | none => if less s t i k then a s t i k else b s t i k) ∧
  ElementsOf (vrow .vmax 6) fs twoSrcs (fun s t i k => match either s t i k with
    | some n => encodeExact i.fmt n | none => if less s t i k then b s t i k else a s t i k) ∧
  ElementsOf (vrow .vabs 7) fs (fun i => [i.va]) (fun s t i k => if nan s t i k then encodeExact i.fmt (numA s t i k)
    else a s t i k % 2 ^ (elemBits i.fmt - 1)) ∧
  ElementsOf (vrow .vneg 8) fs (fun i => [i.va]) (fun s t i k => if nan s t i k then encodeExact i.fmt (numA s t i k)
    else (a s t i k + 2 ^ (elemBits i.fmt - 1)) % 2 ^ elemBits i.fmt)

/-- The transcendental opcodes give the exact results of Table 7.3, raise INVALID and OVERFLOW alone, no UNDERFLOW and no INEXACT, and
give the canonical NaN with INVALID for the inputs of its last column. Their other results are free within R153 (log entry 25). -/
def Obligations.TranscendentalsComplete : Prop :=
  let x (s : State) (t : Nat) (i : VIns) (k : Nat) := srcElem s t 1 i.va k
  let of (op : Nat) (s : State) (t : Nat) (i : VIns) (k : Nat) := transcend op (x s t i k)
  let one (i : VIns) : List Nat := [i.va]
  ElementsOf (vrow .vexp 16) [1] one (fun s t i k => (of 0 s t i k).1) ∧ ElementsOf (vrow .vlog 17) [1] one (fun s t i k => (of 1 s t i k).1) ∧
  ElementsOf (vrow .vrcp 18) [1] one (fun s t i k => (of 2 s t i k).1) ∧ ElementsOf (vrow .vrsqrt 19) [1] one (fun s t i k => (of 3 s t i k).1) ∧
  ElementsOf (vrow .vtanh 20) [1] one (fun s t i k => (of 4 s t i k).1) ∧ ElementsOf (vrow .vsig 21) [1] one (fun s t i k => (of 5 s t i k).1) ∧
  FlagsOf (vrow .vexp 16) [1] one (fun s t i k => (of 0 s t i k).2) ∧ FlagsOf (vrow .vlog 17) [1] one (fun s t i k => (of 1 s t i k).2) ∧
  FlagsOf (vrow .vrcp 18) [1] one (fun s t i k => (of 2 s t i k).2) ∧ FlagsOf (vrow .vrsqrt 19) [1] one (fun s t i k => (of 3 s t i k).2) ∧
  FlagsOf (vrow .vtanh 20) [1] one (fun s t i k => (of 4 s t i k).2) ∧ FlagsOf (vrow .vsig 21) [1] one (fun s t i k => (of 5 s t i k).2) ∧
  -- e^0, e^-inf, e^+inf; ln 1, ln ±0, ln +inf
  transcend 0 0 = (0x3F800000, 0) ∧ transcend 0 0x80000000 = (0x3F800000, 0) ∧ transcend 0 0xFF800000 = (0, 0) ∧
  transcend 0 0x7F800000 = (0x7F800000, 0) ∧ transcend 1 0x3F800000 = (0, 0) ∧ transcend 1 0 = (0xFF800000, 0) ∧
  transcend 1 0x80000000 = (0xFF800000, 0) ∧ transcend 1 0x7F800000 = (0x7F800000, 0) ∧ transcend 1 0xFF800000 = (0x7FC00000, 8) ∧
  -- 1/±0, 1/±inf, 1/2; 1/√±0, 1/√+inf, 1/√-inf
  transcend 2 0 = (0x7F800000, 0) ∧ transcend 2 0x80000000 = (0xFF800000, 0) ∧ transcend 2 0x7F800000 = (0, 0) ∧
  transcend 2 0xFF800000 = (0x80000000, 0) ∧ transcend 2 0x40000000 = (0x3F000000, 0) ∧ transcend 3 0 = (0x7F800000, 0) ∧
  transcend 3 0x80000000 = (0xFF800000, 0) ∧ transcend 3 0x7F800000 = (0, 0) ∧ transcend 3 0xFF800000 = (0x7FC00000, 8) ∧
  -- tanh ±0, tanh ±inf; sig -inf, sig +inf, sig 0
  transcend 4 0 = (0, 0) ∧ transcend 4 0x80000000 = (0x80000000, 0) ∧ transcend 4 0x7F800000 = (0x3F800000, 0) ∧
  transcend 4 0xFF800000 = (0xBF800000, 0) ∧ transcend 5 0xFF800000 = (0, 0) ∧ transcend 5 0x7F800000 = (0x3F800000, 0) ∧
  transcend 5 0 = (0x3F000000, 0) ∧
  -- flags: INVALID or OVERFLOW alone
  ∀ op < 6, ∀ a, (transcend op a).2 ∈ [0, 1, 8]

namespace Sys2Proof.Machine

/-- Values `v` and `w` have gone to destinations `d` and `e`, in that order, and one 256-byte line to OUT for each that is V31. -/
def VecPuts (s u : State) (t d e v w : Nat) : Prop :=
  (d ≠ 31 → d ≠ e → (u.tile t).vec.reg d = v) ∧ (e ≠ 31 → (u.tile t).vec.reg e = w) ∧
  (u.chan t 14).items = (s.chan t 14).items ++ (if d = 31 then [{ data := natBytes 256 v }] else [])
    ++ (if e = 31 then [{ data := natBytes 256 w }] else [])

/-- Mask `n` of tile `t` as the program reads it: M0 is all ones (R148). -/
def maskOf (s : State) (t n : Nat) : Nat := (s.tile t).vec.mask n

/-- Mask VD[2:0] now has `f k` in bit `k < n` and zero in every bit from `n` on; a write of M0 changes nothing (R148). -/
def MaskWrites (s u : State) (t : Nat) (i : VIns) (n : Nat) (f : Nat → Bool) : Prop :=
  (i.vd % 8 = 0 → (u.tile t).vec.m = (s.tile t).vec.m) ∧
  (i.vd % 8 ≠ 0 → ∃ x, (u.tile t).vec.m = (s.tile t).vec.m.set (i.vd % 8) x ∧ ∀ k, bit x k = (decide (k < n) && f k))

/-- A compare of elements A and B. -/
def Compares (c : Nat → VIns → Instr) (g : NumVal → NumVal → Bool) : Prop :=
  ∀ s t i, VecReady s t i [i.va, i.vb] 0 → i.fmt ∈ [0, 1, 2, 3, 9, 13] → i.imm = 0 →
    ∃ u, exec (c t i) s = .next u ∧
      MaskWrites s u t i (elemCount i.fmt) (fun k => g (decodeNum i.fmt (srcElem s t i.fmt i.va k)) (decodeNum i.fmt (srcElem s t i.fmt i.vb k))) ∧
      u.reg (tileBase t + 0x204) = s.reg (tileBase t + 0x204)

/-- A mask operation on M[VA[2:0]] and M[VB[2:0]]. -/
def MaskOperates (c : Nat → VIns → Instr) (g : Bool → Bool → Bool) : Prop :=
  ∀ s t i, VecReady s t i [] 0 → i.imm = 0 →
    ∃ u, exec (c t i) s = .next u ∧
      MaskWrites s u t i 128 (fun k => g (bit (maskOf s t (i.va % 8)) k) (bit (maskOf s t (i.vb % 8)) k))

end Sys2Proof.Machine

open Sys2Proof Sys2Proof.Machine

/-- The compares write one mask bit per element and set no flag, EQ, LT and LE false with a NaN and UN true exactly then; the mask
operations work on all 128 bits; MCNT counts the bits of a mask into a scalar (Table 7.2). -/
def Obligations.VectorComparesAndMasks : Prop :=
  Compares (vrow .vcmpeq 256) (fun a b => !a.isNan && !b.isNan && a.eqv b) ∧ Compares (vrow .vcmplt 257) (fun a b => !a.isNan && !b.isNan && a.lt b) ∧
  Compares (vrow .vcmple 258) (fun a b => !a.isNan && !b.isNan && (a.lt b || a.eqv b)) ∧ Compares (vrow .vcmpun 259) (fun a b => a.isNan || b.isNan) ∧
  MaskOperates (vrow .mand 264) (· && ·) ∧ MaskOperates (vrow .mor 265) (· || ·) ∧ MaskOperates (vrow .mxor 266) (· != ·) ∧ MaskOperates (vrow .mnot 267) (fun a _ => !a) ∧
  (∀ s t i, VecReady s t i [] 0 → i.imm = 0 →
    ∃ u, exec (.mcnt t (vword 268 i)) s = .next u ∧ (u.tile t).vec.s = (s.tile t).vec.s.set (i.vd % 16)
      ((List.range 128).filter (bit (maskOf s t (i.va % 8)))).length)

/-- Selection, packing and lane moves, and the conversions of the vector unit (R149-R156): each writes its destination as its row says, raises the
flags its rule names and no other. -/
def Obligations.VectorSelectPackConvert : Prop :=
  (
  (∀ s t i, VecReady s t i [i.va, i.vb] (outLines [i.vd]) → i.fmt ∈ [0, 1, 2, 3, 9, 13] → i.imm = 0 →
    ∃ u v, exec (.vsel t (vword 269 i)) s = .next u ∧ VecPut s u t i.vd v ∧ ∀ k < elemCount i.fmt, elemOf i.fmt v k =
      srcElem s t i.fmt (if bit (maskOf s t i.mask) k then i.va else i.vb) k) ∧
  (∀ s t i, VecReady s t i [i.va, i.vb] (outLines [i.vd]) → i.fmt ∈ [1, 2, 3, 9, 13] → i.imm = 0 →
    ∃ u, exec (.gather t (vword 387 i)) s = .next u ∧ VecLanes s u t i (elemBits i.fmt) (elemCount i.fmt)
      (fun k => srcElem s t i.fmt i.va (srcElem s t i.fmt i.vb k % elemCount i.fmt))) ∧
  (∀ s t i, VecReady s t i [i.va] (outLines [i.vd, i.vc]) → i.fmt ∈ [0, 1, 2, 3, 9, 13] → i.imm < 256 →
    let chosen := (List.range (min 64 (elemCount i.fmt))).filter (bit (maskOf s t i.mask))
    let base := (s.tile t).vec.scalar (bits i.imm 7 4)
    ∃ u v w, exec (.compress t (vword 384 i)) s = .next u ∧ (u.tile t).vec.s = (s.tile t).vec.s.set (bits i.imm 3 0) chosen.length ∧
      VecPuts s u t i.vd i.vc v w ∧
      (∀ j < elemCount i.fmt, elemOf i.fmt v j = if j < chosen.length then srcElem s t i.fmt i.va (nth chosen j 0) else 0) ∧
      (∀ j < 64, elemOf 13 w j = if j < chosen.length then (nth chosen j 0 + base) % 2 ^ 32 else 2 ^ 32 - 1)) ∧
  (∀ s t i, VecReady s t i [i.va, i.vc] (outLines [i.vd]) → i.fmt ∈ [0, 1, 2, 3, 9, 13] → i.imm < 256 →
    let n := min ((s.tile t).vec.scalar (bits i.imm 3 0)) (min 64 (elemCount i.fmt))
    let goes (k : Nat) : Nat := (srcElem s t 13 i.vc k + 2 ^ 32 - (s.tile t).vec.scalar (bits i.imm 7 4)) % 2 ^ 32
    ∃ u, exec (.expand t (vword 385 i)) s = .next u ∧ VecLanes s u t i (elemBits i.fmt) (elemCount i.fmt) (fun j =>
      match (List.range n).reverse.find? (fun k => goes k == j) with
      | some k => srcElem s t i.fmt i.va k
      | none => if i.vd = 31 then 0 else elemOf i.fmt ((s.tile t).vec.reg i.vd) j)) ∧
  (∀ s t i, VecReady s t i [i.va] 1 → i.fmt ∈ [0, 1, 2, 3, 9, 13] → i.imm < 16 →
    (s.tile t).vec.scalar (bits i.imm 3 0) ≤ elemCount i.fmt →
    ∃ u, exec (.pushn t (vword 386 i)) s = .next u ∧ (u.chan t 14).items = (s.chan t 14).items ++
      [{ data := (natBytes 256 (vecSrc s t i.va)).take ((s.tile t).vec.scalar (bits i.imm 3 0) * elemBits i.fmt / 8) }])) ∧
  (
  let xs (s : State) (t : Nat) (i : VIns) := cvtSources (bits i.imm 3 0) i.fmt (bits i.imm 4 4) (vecSrc s t i.va)
  let wide (i : VIns) : Nat := if fmtBits i.fmt = 8 then 8 else elemBits i.fmt
  (∀ s t i, VecReady s t i [i.va] (outLines [i.vd]) → bits i.imm 3 0 ∈ [0, 1, 2, 3, 9, 13] → i.fmt ∈ [0, 1, 2, 3, 4, 5, 9, 13] → i.imm < 32 →
    ∃ u, exec (.vcvt t (vword 128 i)) s = .next u ∧ VecLanes s u t i (wide i) (xs s t i).length
      (fun k => (cvtNum i.fmt (bit i.cvt 0) .rne (nth (xs s t i) k NumVal.zero)).val)) ∧
  (∀ s t i, VecReady s t { i with cvt := i.cvt % 2 } [i.va] 1 → i.cvt < 4 → bit i.cvt 1 = true → i.vd = 31 → bits i.imm 3 0 ∈ [0, 1, 2, 3, 9, 13] →
    i.fmt ∈ [2, 3, 4, 5] → i.imm < 32 →
    ∃ u x, exec (.vcvt t (vword 128 i)) s = .next u ∧ (u.chan t 14).items = (s.chan t 14).items ++ [x] ∧ x.fmt = i.fmt ∧ x.ovf = bit i.cvt 0 ∧
      x.seed = (s.tile t).vec.scalar 12 + 2 ^ 32 * (s.tile t).vec.scalar 13 ∧
      ∀ k, nth x.vals k NumVal.zero = if bit (maskOf s t i.mask) k then nth (xs s t i) k NumVal.zero else NumVal.zero) ∧
  (∀ s t i, VecReady s t i [i.va] (outLines [i.vd]) → i.fmt ∈ [4, 5, 6, 7, 8, 10, 12] → i.imm = 0 →
    ∃ u, exec (.vpack t (vword 129 i)) s = .next u ∧ VecLanes s u t i (if fmtBits i.fmt = 4 then 4 else 8) 64
      (fun k => (cvtNum i.fmt (bit i.cvt 0) .rne (decodeNum 1 (srcElem s t 1 i.va k))).val)) ∧
  (∀ s t i, VecReady s t i [i.va] (outLines [i.vd]) → i.fmt = 1 → bits i.imm 3 0 ∈ [4, 5, 6, 7, 8, 10, 11, 12] →
    i.imm < (if fmtBits (bits i.imm 3 0) = 4 then 32 else 64) →
    let src := bits i.imm 3 0
    let narrow (k : Nat) : Nat := if fmtBits src = 4 then bits (vecSrc s t i.va) (256 * bits i.imm 4 4 + 4 * k + 3) (256 * bits i.imm 4 4 + 4 * k)
      else bits (vecSrc s t i.va) (512 * bits i.imm 5 4 + 8 * k + 7) (512 * bits i.imm 5 4 + 8 * k)
    ∃ u, exec (.vunpk t (vword 130 i)) s = .next u ∧ VecLanes s u t i 32 64
      (fun k => (cvtFloat 1 true .rne (decodeNum src (narrow k % 2 ^ fmtBits src))).val)))

/-- SSET sets a scalar to IMM sign-extended; REP opens a body of IMM[7:0]+1 instructions to run IMM[23:8]+1 times, to depth 2; NOP changes
no register of the program. Each is counted in TILE_t_VEC_STEPS (Table 7.2, Table 7.8). -/
def Obligations.VectorScalarRepeatNop : Prop :=
  let counted (s u : State) (t : Nat) : Prop := (u.tile t).vec.stall = none ∧
    ((s.tile t).vec.stall = none → u.reg (tileBase t + 0x208) = min (s.reg (tileBase t + 0x208) + 1) (2 ^ 64 - 1))
  (∀ s t i, VecReady s t i [] 0 → ∃ u, exec (.sset t (vword 32 i)) s = .next u ∧ counted s u t ∧
    (u.tile t).vec.s = (s.tile t).vec.s.set (i.vd % 16) (if i.imm < 2 ^ 23 then i.imm else i.imm + 2 ^ 32 - 2 ^ 24)) ∧
  (∀ s t i, VecReady s t i [] 0 → (s.tile t).vec.reps.length < 2 → ∃ u, exec (.rep t (vword 48 i)) s = .next u ∧ counted s u t ∧
    (u.tile t).vec.reps = ⟨i.imm % 256 + 1, 0, i.imm / 256 % 65536 + 1⟩ :: repAdvance (s.tile t).vec.reps 1) ∧
  (∀ s t i, VecReady s t i [] 0 → i.imm = 0 → ∃ u, exec (.vectorNop t (vword 49 i)) s = .next u ∧ counted s u t ∧
    (u.tile t).vec.v = (s.tile t).vec.v ∧ (u.tile t).vec.m = (s.tile t).vec.m ∧ (u.tile t).vec.s = (s.tile t).vec.s ∧
    (u.tile t).vec.claims = (s.tile t).vec.claims)

namespace Sys2Proof.Machine

/-- The engines of tile `t` with bank k = 2e + b owned by `o` (Table 5.5: 0 idle, 1 steps, 2 a drain, 3 the vector unit). -/
def ownedBy (s : State) (t k o : Nat) : List Eng :=
  (s.tile t).eng.modify (k / 2) (fun e => { e with owners := e.owners.modify (k % 2) (fun _ => o) })

end Sys2Proof.Machine

open Sys2Proof Sys2Proof.Machine

/-- The accumulator opcodes (R157): a claim waits until it is granted and then owns its bank, a release returns the bank, reads convert
four rows, show one row raw or write the whole image to OUT and change no bank, and ALOAD takes an image that R101 accepts from IN. -/
def Obligations.AccumulatorAccess : Prop :=
  (∀ s t i, VecReady s t i [] 0 → i.imm < 4 → ∃ u, exec (.aclaim t (vword 512 i)) s = .next u ∧ (u.tile t).vec.claimWait = some i.imm ∧
    (u.tile t).eng = (s.tile t).eng) ∧
  (∀ s t k, s.alive = true → t < 128 → s.tileRuns t = true → (s.tile t).vec.claimWait = some k →
    ∃ u, exec (.bankClaimGrant t) s = .next u ∧ (u.tile t).eng = ownedBy s t k 3 ∧ (u.tile t).vec.claimWait = none ∧
      ∀ n, bit (u.tile t).vec.claims n = (bit (s.tile t).vec.claims n || n == k)) ∧
  (∀ s t i, VecReady s t i [] 0 → i.imm < 4 → bit (s.tile t).vec.claims i.imm = true →
    ∃ u, exec (.arelease t (vword 513 i)) s = .next u ∧ (u.tile t).eng = ownedBy s t i.imm 0 ∧
      ∀ n, bit (u.tile t).vec.claims n = (bit (s.tile t).vec.claims n && n != i.imm)) ∧
  (∀ s t i, VecReady s t i [] (outLines [i.vd]) → i.imm < 16 → bit (s.tile t).vec.claims (i.imm % 4) = true →
    let b := s.bankOf t (i.imm % 4)
    ∃ u, exec (.ardf t (vword 514 i) none) s = .next u ∧ (u.tile t).eng = (s.tile t).eng ∧ VecLanes s u t i 32 64
      (fun x => (cvtNum 1 (bit i.cvt 0) .rne ((b.get (64 * (i.imm / 4) + x)).toNum b.anchor)).val)) ∧
  (∀ s t i, VecReady s t i [] (outLines [i.vd]) → i.imm < 65536 → bits i.imm 7 6 = 0 → bit (s.tile t).vec.claims (i.imm % 4) = true →
    let b := s.bankOf t (i.imm % 4)
    let acc (j : Nat) := b.get (16 * bits i.imm 5 2 + j)
    ∃ u v cls info, exec (.ardr t (vword 515 i) none) s = .next u ∧ (u.tile t).eng = (s.tile t).eng ∧ VecPut s u t i.vd v ∧
      (u.tile t).vec.s = ((s.tile t).vec.s.set (bits i.imm 11 8) cls).set (bits i.imm 15 12) info ∧
      (∀ j < 16, bits v (128 * j + 127) (128 * j) = (acc j).valueBits % 2 ^ 128 ∧ bits cls (2 * j + 1) (2 * j) = (acc j).cls.code ∧
        bit info j = (acc j).sticky) ∧
      bits info 23 16 = b.anchor.getD 0 % 256 ∧ bit info 24 = b.anchor.isSome ∧ bit info 25 = b.inexact ∧ bit info 26 = b.reanchor) ∧
  (∀ s t i, VecReady s t i [] 17 → i.imm < 4 → bit (s.tile t).vec.claims i.imm = true →
    ∃ u ls, exec (.asave t (vword 516 i) none) s = .next u ∧ (u.tile t).eng = (s.tile t).eng ∧
      (u.chan t 14).items = (s.chan t 14).items ++ ls.map (fun x => { data := x }) ∧ ls.length = 17 ∧ (∀ n < 16, (nth ls n []).length = 256) ∧
      ls.flatten = (s.bankOf t i.imm).image.map (·.toNat)) ∧
  (∀ s t i, VecReady s t i [] 0 → i.imm < 4 → bit (s.tile t).vec.claims i.imm = true →
    let ls := (((s.chan t 13).lines).takeWhile PLine.complete).take ((4224 - (s.tile t).vec.aload.length + 255) / 256)
    let bytes := (s.tile t).vec.aload ++ (ls.map (fun l => l.bytes.take 256)).flatten
    4224 ≤ bytes.length → imageOk ((bytes.take 4224).map (BitVec.ofNat 8)) = true →
    ∃ u, exec (.aload t (vword 517 i)) s = .next u ∧ (u.chan t 13).lines = (s.chan t 13).lines.drop ls.length ∧ (u.tile t).vec.aload = [] ∧
      (u.tile t).eng = (s.tile t).eng.modify (i.imm / 2) (fun e =>
        { e with banks := e.banks.modify (i.imm % 2) (fun _ => bankOfImage ((bytes.take 4224).map (BitVec.ofNat 8))) }))

/-- An image of a bank read back is the bank, with KGROUP 0 (R100, R101, R133). The premise says what every bank of an engine is: the
accumulators are numbered below 256, hold what their class allows and are zero where the bank has no anchor. And the checksum slice: in the
4-bit, 8-bit and 16-bit classes, where every s[k] of the group is exact, a column that is not skipped is found wrong exactly when the
array's errors in it do not add up to zero (R121, R122, R125). -/
def Obligations.BankImageRoundTrip : Prop :=
  (∀ b : Bank, Tbl.wf LAcc.clear b.acc = true → (∀ e ∈ b.acc, e.1 < 256) → (∀ a, b.anchor = some a → a < 256) →
    (∀ i < 256, match (b.get i).cls with
      | .finite => (b.get i).pay = 0 ∧ (b.get i).sign = false ∧ -(2 ^ 127 : Int) ≤ (b.get i).val ∧ (b.get i).val < 2 ^ 127 ∧
          (b.anchor = none → (b.get i).val = 0)
      | .nan => (b.get i).val = 0 ∧ (b.get i).pay < 2 ^ 32
      | _ => (b.get i).val = 0 ∧ (b.get i).pay = 0 ∧ (b.get i).sign = false) →
    imageOk b.image = true ∧ bankOfImage b.image = { b with kgroup := 0 }) ∧
  (∀ (fa cls : Nat) (comp : Bool) (a b : List (List NumVal)) (err : List (Nat × Int × Int)) (j : Nat) (low : Int),
    cls = widthClass fa → cls < 3 → j < 16 → a.length = 16 → b.length = 16 → (∀ r ∈ a ++ b, r.length = kappa cls) →
    groupApprox a (kappa cls) = false → bit (skippedCols (groupContribs fa comp a b)) j = false →
    (∀ x ∈ err, x.1 < 256 ∧ low ≤ x.2.2) →
    chkMismatch cls comp a b (withErrors err (groupContribs fa comp a b)) j =
      decide (((err.filter (fun x => x.1 % 16 == j)).map (fun x => x.2.1 * 2 ^ (x.2.2 - low).toNat)).sum ≠ 0))

/-- The selection opcodes and the die merge (R158, R159, R161): SINIT clears, SINS inserts the scores that the mask lets through and are not
NaN, SOUT gives 64 entries in rank order, SMERGE joins the merge of its launch on the die, a unit takes the merge that the token grants
among those whose lists are all there (R47), and its end leaves the best of the union in the collector. The tile that asks for a unit is
the one that issued the last SMERGE, by the model's choice (log entry 208); that a last SMERGE without a collector is INVALID_CMD, by log
entry 209. -/
def Obligations.SelectionAndMerge : Prop :=
  (∀ s t i, VecReady s t i [] 0 → i.imm < 4096 → 1 ≤ i.imm % 2048 → i.imm % 2048 ≤ 1024 →
    ∃ u, exec (.sinit t (vword 640 i)) s = .next u ∧ u.reg (tileBase t + 0x218) = 0 ∧
      (u.tile t).sel = { init := true, k := i.imm % 2048, ord := bit i.imm 11, list := [], merging := false }) ∧
  (∀ s t i, VecReady s t i [i.va, i.vb] 0 → i.imm = 0 → (s.tile t).sel.init = true →
    let idx := (List.range 64).filter (bit (maskOf s t i.mask))
    let ps := idx.map (fun k => (srcElem s t 1 i.va k, srcElem s t 13 i.vb k))
    s.reg (tileBase t + 0x218) + idx.length ≤ 65536 →
    ∃ u, exec (.sins t (vword 641 i)) s = .next u ∧ (u.tile t).sel = ps.foldl Sel.add (s.tile t).sel ∧
      u.reg (tileBase t + 0x218) = s.reg (tileBase t + 0x218) + idx.length ∧
      u.reg (tileBase t + 0x214) = min (s.reg (tileBase t + 0x214) + (ps.filter (fun p => (score p).isNan)).length) (2 ^ 32 - 1)) ∧
  (∀ s t i, VecReady s t i [] (outLines [i.vd, i.vc]) → i.imm < 256 → (s.tile t).sel.init = true → i.imm % 16 < ((s.tile t).sel.k + 63) / 64 →
    let entry (j : Nat) : Nat × Nat := nth (s.tile t).sel.list (64 * (i.imm % 16) + j) (0x7FC00000, 2 ^ 32 - 1)
    ∃ u v w, exec (.sout t (vword 642 i)) s = .next u ∧ VecPuts s u t i.vd i.vc v w ∧
      (u.tile t).vec.s = (s.tile t).vec.s.set (i.imm / 16) ((s.tile t).sel.list.length % 2 ^ 32) ∧
      (∀ j < 64, elemOf 1 v j = (entry j).1 % 2 ^ 32 ∧ elemOf 13 w j = (entry j).2 % 2 ^ 32)) ∧
  (∀ s t i cid, VecReady s t i [] 0 → s.tileCmd t = some cid → i.imm < 64 → 1 ≤ i.imm % 32 → i.imm % 32 ≤ 16 →
    ((s.cmd cid).mergeTiles (s.tileShadow t) (t / 16)).length = i.imm % 32 →
    let mine (m : Merge) : Bool := m.die == t / 16 && m.cid == cid && m.shadow == s.tileShadow t && m.full.isNone
    let join (m : Merge) : Merge := { m with members := m.members ++ [t], collector := if bit i.imm 5 then some t else m.collector,
                                             full := if m.lists ≤ m.members.length + 1 then some s.time else none }
    (s.merges.find? mine = none → (i.imm % 32 = 1 → bit i.imm 5 = true) →
      ∃ u, exec (.smerge t (vword 643 i)) s = .next u ∧ (u.tile t).sel = { (s.tile t).sel with merging := true } ∧
        u.merges = s.merges ++ [join ⟨t / 16, cid, s.tileShadow t, i.imm % 32, [], none, none, false, []⟩]) ∧
    (∀ m, s.merges.find? mine = some m → m.lists = i.imm % 32 → (bit i.imm 5 = true → m.collector = none) →
      (m.lists ≤ m.members.length + 1 → bit i.imm 5 = false → m.collector ≠ none) →
      (∀ v ∈ m.members, (s.tile v).sel.k = (s.tile t).sel.k ∧ (s.tile v).sel.ord = (s.tile t).sel.ord) →
      ∃ u, exec (.smerge t (vword 643 i)) s = .next u ∧ (u.tile t).sel = { (s.tile t).sel with merging := true } ∧
        u.merges = s.merges.map (fun m => if mine m then join m else m))) ∧
  (∀ s die q seq m, s.alive = true → Instr.wf (.mergeUnitTaken die q seq) = true →
    s.findMerge die (cidOf q seq) (fun m => m.full.isSome && !m.unit && s.mergeTurn die == some m.asks) = some m → (s.merges.filter (fun x => x.die == die && x.unit)).length < 4 →
    ∃ u, exec (.mergeUnitTaken die q seq) s = .next u ∧ Tbl.get 0 u.sched.turns die = (m.asks + 1) % 16 ∧
      (∃ x ∈ u.merges, x = { m with unit := true, read := (m.members.map (fun t => (s.tile t).sel.list)).flatten }) ∧
      (∀ t ∈ m.members, m.collector ≠ some t → (u.tile t).sel = { (s.tile t).sel with merging := false })) ∧
  (∀ s die q seq m c, s.alive = true → Instr.wf (.mergeComplete die q seq) = true →
    s.findMerge die (cidOf q seq) (fun m => m.unit) = some m → m.collector = some c →
    (∀ v ∈ s.tilesOf m.cid, s.tileRuns v = true) →
    ∃ u, exec (.mergeComplete die q seq) s = .next u ∧ m ∉ u.merges ∧
      u.reg (0x1000 + 0x40 * die) = min (s.reg (0x1000 + 0x40 * die) + 1) (2 ^ 64 - 1) ∧
      (u.tile c).sel = { m.read.foldl Sel.add { (s.tile c).sel with list := [] } with merging := false })

/-- The kept set and its order depend only on the multiset of pairs inserted (R158): two sequences that are permutations of each other
leave the same scores, as numbers, and ids. -/
def Obligations.SelectionIgnoresInsertionOrder : Prop :=
  ∀ (l : Sel) (ps qs : List (Nat × Nat)), l.list = [] → ps.Perm qs → (∀ p ∈ ps, p.1 < 2 ^ 32 ∧ p.2 < 2 ^ 32) →
    ((ps.foldl Sel.add l).list.map (fun p => (if p.1 = 2 ^ 31 then 0 else p.1, p.2)))
      = ((qs.foldl Sel.add l).list.map (fun p => (if p.1 = 2 ^ 31 then 0 else p.1, p.2)))

namespace Sys2Proof.Machine

/-- What a vector instruction of tile `t` with destinations `ds` leaves alone: everything but tiles, registers, the saturation counts of
commands and free values; every other tile; of its own tile the engines, the selection, tokens, scratch and task, every channel
but IN and OUT, and every vector register but its destinations; every register of BAR0 but VEC_FLAGS, VEC_STEPS, the tile's
saturation counters and the counters of the stall that ends. -/
def VecFrame (s u : State) (t : Nat) (ds : List Nat) : Prop :=
  u = { s with tiles := u.tiles, regs := u.regs, sched := u.sched, free := u.free } ∧
  (∀ v, v ≠ t → u.tile v = s.tile v) ∧
  u.tile t = { s.tile t with vec := (u.tile t).vec, chans := (u.tile t).chans } ∧
  (∀ c, c ≠ 13 → c ≠ 14 → u.chan t c = s.chan t c) ∧
  (∀ d, d ∉ ds → (u.tile t).vec.reg d = (s.tile t).vec.reg d) ∧
  (∀ k, k ∉ [tileBase t + 0x204, tileBase t + 0x208, tileBase t + 0x300, tileBase t + 0x308] →
    (∀ x, (s.tile t).vec.stall = some x → k ≠ tileBase t + 0x800 + 8 * x.2 ∧ k ≠ tileBase t + 0xA00 + 4 * x.2) → u.reg k = s.reg k) ∧
  (∀ cid, u.cmd cid = { s.cmd cid with sats := (u.cmd cid).sats }) ∧ (∀ q, u.queue q = s.queue q)

end Sys2Proof.Machine

open Sys2Proof Sys2Proof.Machine

/-- The frame of the element-wise opcodes, the compares and the mask operations when they issue: nothing changes but the destination, the
heads of IN and OUT, the flags and counters of the tile's vector unit, and saturations counted for its launch; the
element-wise opcodes leave masks and scalars alone, the compares and mask operations every vector register and scalar. -/
def Obligations.VectorFrame : Prop :=
  let any : List Nat := [0, 1, 2, 3, 9, 13]
  (∀ p ∈ ([(vrow .vadd 0, any, twoSrcs), (vrow .vsub 1, any, twoSrcs), (vrow .vmul 2, any, twoSrcs), (vrow .vfma 3, any, fun i => twoSrcs i ++ [i.vc]),
      (vrow .vfms 4, any, fun i => twoSrcs i ++ [i.vc]), (vrow .vmin 5, any, twoSrcs), (vrow .vmax 6, any, twoSrcs), (vrow .vabs 7, any, fun i => [i.va]),
      (vrow .vneg 8, any, fun i => [i.va]), (vrow .vand 9, any, twoSrcs), (vrow .vor 10, any, twoSrcs), (vrow .vxor 11, any, twoSrcs), (vrow .vshl 12, [9, 13], twoSrcs),
      (vrow .vshr 13, [9, 13], twoSrcs), (vrow .vmov 24, any, fun i => [i.va]), (vrow .vlane 26, [13], fun _ => []), (vrow .vexp 16, [1], fun i => [i.va]),
      (vrow .vlog 17, [1], fun i => [i.va]), (vrow .vrcp 18, [1], fun i => [i.va]), (vrow .vrsqrt 19, [1], fun i => [i.va]), (vrow .vtanh 20, [1], fun i => [i.va]),
      (vrow .vsig 21, [1], fun i => [i.va])] : List ((Nat → VIns → Instr) × List Nat × (VIns → List Nat))),
    ∀ s t i u, VecReady s t i (p.2.2 i) (outLines [i.vd]) → i.fmt ∈ p.2.1 → arithImm i = true → exec (p.1 t i) s = .next u →
      VecFrame s u t [i.vd] ∧ (u.tile t).vec.m = (s.tile t).vec.m ∧ (u.tile t).vec.s = (s.tile t).vec.s) ∧
  (∀ p ∈ ([(vrow .vcmpeq 256, any), (vrow .vcmplt 257, any), (vrow .vcmple 258, any), (vrow .vcmpun 259, any), (vrow .mand 264, List.range 16), (vrow .mor 265, List.range 16), (vrow .mxor 266, List.range 16),
      (vrow .mnot 267, List.range 16)] : List ((Nat → VIns → Instr) × List Nat)),
    ∀ s t i u, VecReady s t i [i.va, i.vb] 0 → i.fmt ∈ p.2 → i.imm = 0 → exec (p.1 t i) s = .next u →
      VecFrame s u t [] ∧ (u.tile t).vec.s = (s.tile t).vec.s)

/-- A vector instruction with RND = 1 outside VCVT, with a format that its opcode does not accept, or with a reserved CLASS or OP has no
effect on its tile, and its launch ends with INVALID_CMD unless an earlier cause stands (R151, R364). The fields of a word are those that
Table 7.1 places in it, and every word of 64 bits is one of a CLASS, an OP and fields (R150). -/
def Obligations.InvalidVectorInstruction : Prop :=
  let ends (s u : State) (t cid : Nat) : Prop := u.tile t = s.tile t ∧
    (Live s cid → (u.cmd cid).cause = (s.cmd cid).cause.or (some (8, 7)))
  (∀ c ∈ ([vrow .vadd 0, vrow .vsub 1, vrow .vmul 2, vrow .vfma 3, vrow .vfms 4, vrow .vmin 5, vrow .vmax 6, vrow .vabs 7,
      vrow .vneg 8, vrow .vand 9, vrow .vor 10, vrow .vxor 11, vrow .vshl 12, vrow .vshr 13, vrow .vexp 16, vrow .vlog 17,
      vrow .vrcp 18, vrow .vrsqrt 19, vrow .vtanh 20, vrow .vsig 21, vrow .vmov 24, vrow .vlane 26, vrow .sset 32, vrow .rep 48,
      vrow .vectorNop 49, vrow .vpack 129, vrow .vunpk 130, vrow .vcmpeq 256, vrow .vcmplt 257, vrow .vcmple 258, vrow .vcmpun 259, vrow .mand 264,
      vrow .mor 265, vrow .mxor 266, vrow .mnot 267, vrow .mcnt 268, vrow .vsel 269, vrow .compress 384, vrow .expand 385, vrow .pushn 386,
      vrow .gather 387, vrow .aclaim 512, vrow .arelease 513, vrow .aload 517, vrow .sinit 640, vrow .sins 641, vrow .sout 642, vrow .smerge 643,
      vrow (fun t w => .ardf t w none) 514, vrow (fun t w => .ardr t w none) 515, vrow (fun t w => .asave t w none) 516] :
      List (Nat → VIns → Instr)),
    ∀ s t i cid, s.alive = true → t < 128 → VIns.ok i = true → s.vecTakes t = true → s.tileCmd t = some cid → bit i.cvt 1 = true →
      ∃ u, exec (c t i) s = .next u ∧ ends s u t cid) ∧
  (∀ p ∈ ([(vrow .vadd 0, [0, 1, 2, 3, 9, 13]), (vrow .vsub 1, [0, 1, 2, 3, 9, 13]), (vrow .vmul 2, [0, 1, 2, 3, 9, 13]), (vrow .vfma 3, [0, 1, 2, 3, 9, 13]),
      (vrow .vfms 4, [0, 1, 2, 3, 9, 13]), (vrow .vshl 12, [9, 13]), (vrow .vshr 13, [9, 13]), (vrow .vexp 16, [1]), (vrow .vlog 17, [1]), (vrow .vrcp 18, [1]), (vrow .vrsqrt 19, [1]),
      (vrow .vtanh 20, [1]), (vrow .vsig 21, [1]), (vrow .vlane 26, [13])] : List ((Nat → VIns → Instr) × List Nat)),
    ∀ s t i cid, s.alive = true → t < 128 → VIns.ok i = true → s.vecTakes t = true → s.tileCmd t = some cid → i.fmt ∉ p.2 →
      ∃ u, exec (p.1 t i) s = .next u ∧ ends s u t cid) ∧
  (∀ c ∈ ([.vadd, .vcvt, .vcmpeq, .compress, .aclaim, .sinit] : List (Nat → Nat → Instr)), ∀ s t w cid, s.alive = true → t < 128 → w < 2 ^ 64 →
    vecReserved w = true → s.vecTakes t = true → s.tileCmd t = some cid → ∃ u, exec (c t w) s = .next u ∧ ends s u t cid) ∧
  (∀ code i, code < 1024 → VIns.ok i = true → vword code i < 2 ^ 64 ∧ vecCode (vword code i) = code ∧ vinsOf (vword code i) = i) ∧
  (∀ w, w < 2 ^ 64 → VIns.ok (vinsOf w) = true ∧ vword (vecCode w) (vinsOf w) = w)

open Sys2Proof Sys2Proof.Machine

/-- ENGINE_STEP takes one complete line from each feeder, counts the steps of its class, and puts the product group into the bank, which
starts cleared or from an image when the step says so (R110, R117, R95); a column that the group does not skip and whose |X_j − Y_j| exceeds
τ_j, or that an injection is armed for, ends the launch with DATA_ERROR before anything enters the bank, and bars the tile (R121, R124, R129);
an error that the slice does not find enters the bank (R125). `err` lists accumulators and by how much the array forms their contributions
wrong. -/
def Obligations.EngineStep : Prop :=
  ∀ s t e bank clr image err la lb cid, s.alive = true → t < 128 → e < 2 → bank < 2 → (∀ x ∈ err, x.1 < 256) → s.tileRuns t = true → s.tileCmd t = some cid →
    ((s.tile t).engine e).busy = true → s.feeders t e = some (la, lb) → nth ((s.tile t).engine e).owners bank 0 < 2 →
    (∀ a, image = some a → a + 4224 ≤ scratchSize ∧ imageOk (s.imageAt t e a) = true) →
    let w := s.reg (engBase t e)
    let cls := widthClass (bits w 3 0)
    let x := operand cls (bits w 3 0) (bits w 15 8) (padLine s (lineBytes cls) la.bytes) la.lane
    let y := operand cls (bits w 7 4) (bits w 23 16) (padLine s (lineBytes cls) lb.bytes) lb.lane
    let good := groupContribs (bits w 3 0) (bit w 30) x y
    let cs := withErrors err good
    let start := match image with
      | some a => bankOfImage (s.imageAt t e a)
      | none => if clr then Bank.clear else nth ((s.tile t).engine e).banks bank Bank.clear
    let injected (j : Nat) : Bool := match ((s.tile t).engine e).inject with | some p => p.2 == j | none => false
    let wrong (j : Nat) : Prop := (chkMismatch cls (bit w 30) x y cs j || injected j) = true ∧ bit (skippedCols good) j = false
    ((∀ j < 16, ¬ wrong j) → (∀ p, ((s.tile t).engine e).inject = some p → p.2 < 16) →
      ∃ u, exec (.engineStep t e bank clr image err) s = .next u ∧
        (u.tile t).engine e = { (s.tile t).engine e with
          banks := ((s.tile t).engine e).banks.modify bank (fun _ => (start.addGroup (stepsPerGroup cls) cs).bank),
          owners := ((s.tile t).engine e).owners.modify bank (fun _ => 1),
          group := ((s.tile t).engine e).group + 1, stall := none, inject := none } ∧
        (u.chan t (6 * e + 1)).lines = (s.chan t (6 * e + 1)).lines.drop 1 ∧ (u.chan t (6 * e + 3)).lines = (s.chan t (6 * e + 3)).lines.drop 1 ∧
        u.reg (engBase t e + 0x10) = min (s.reg (engBase t e + 0x10) + stepsPerGroup cls) (2 ^ 64 - 1) ∧ u.mem = s.mem) ∧
    (∀ j < 16, wrong j → ∃ u, exec (.engineStep t e bank clr image err) s = .next u ∧ (u.tile t).reprobe = true ∧
        (Live s cid → (u.cmd cid).cause = (s.cmd cid).cause.or (some (3, 1))))

/-- A drain puts its items on its channel and leaves the bank idle; a parity error ends the launch; the checksum test injects on an idle tile (R118,
R121, R124, R282). A drain in a format rounds each accumulator once to nearest under R99 and packs sixteen rows of sixteen; a raw drain is the
image of the bank in lines of 128 bytes (R118). -/
def Obligations.BankDrain : Prop :=
  (
  (∀ s t e bank parity cid, s.alive = true → t < 128 → e < 2 → bank < 2 → s.tileRuns t = true → s.tileCmd t = some cid →
    ((s.tile t).engine e).busy = true → nth ((s.tile t).engine e).owners bank 0 < 2 →
    let b := nth ((s.tile t).engine e).banks bank Bank.clear
    (s.chan t (6 * e + 4)).items.length + (drainItems b (s.reg (engBase t e))).length ≤ 33 →
    (parity = none → ∃ u, exec (.bankDrain t e bank parity) s = .next u ∧
      (u.chan t (6 * e + 4)).items = (s.chan t (6 * e + 4)).items ++ drainItems b (s.reg (engBase t e)) ∧
      ((u.tile t).engine e).banks = ((s.tile t).engine e).banks ∧
      ((u.tile t).engine e).owners = ((s.tile t).engine e).owners.modify bank (fun _ => 0) ∧
      ∀ n < 5, bit (u.reg (engBase t e + 0xC)) n = (bit (s.reg (engBase t e + 0xC)) n || bit (drainNotes b (s.reg (engBase t e))).1 n)) ∧
    (∀ i, parity = some i → ∃ u, exec (.bankDrain t e bank parity) s = .next u ∧ (u.tile t).reprobe = true ∧
      (Live s cid → (u.cmd cid).cause = (s.cmd cid).cause.or (some (3, 3))))) ∧
  (∀ s port t e value, s.alive = true → Instr.wf (.chkTestWrite port t e value) = true → s.regsOpen = true → (s.tile t).task = none →
    ∃ u, exec (.chkTestWrite port t e value) s = .next u ∧ (u.tile t).eng = (s.tile t).eng.modify e (fun x =>
      { x with inject := if bit value 8 then some (bits value 7 4, bits value 3 0) else none }))) ∧
  (
  (∀ (b : Bank) (w : Nat), bit w 31 = true → ((drainItems b w).map (·.data)).flatten = b.image.map (·.toNat) ∧ (drainItems b w).length = 33) ∧
  (∀ (b : Bank) (w r j : Nat), bit w 31 = false → r < 16 → j < 16 → fmtBits (bits w 27 24) ≠ 4 →
    fieldOf (nth (drainItems b w) r ⟨[], 0, [], false, 0⟩).data (j * fmtBytes (bits w 27 24)) (fmtBytes (bits w 27 24)) =
      (cvtNum (bits w 27 24) (bit w 28) .rne ((b.get (16 * r + j)).toNum b.anchor)).val % 2 ^ (8 * fmtBytes (bits w 27 24))) ∧
  (∀ (b : Bank) (w r j : Nat), bit w 31 = false → r < 16 → j < 16 → fmtBits (bits w 27 24) = 4 →
    bits (nth (nth (drainItems b w) r ⟨[], 0, [], false, 0⟩).data (j / 2) 0) (4 * (j % 2) + 3) (4 * (j % 2)) =
      (cvtNum (bits w 27 24) (bit w 28) .rne ((b.get (16 * r + j)).toNum b.anchor)).val % 16))

namespace Sys2Proof.Machine

/-- Channel `c` of tile `t` stands at instruction `x` and can run it: its task runs, its stroke is active, no WAITT is waiting, and the
requests of every earlier MOVE are under way (R171). -/
def StrokeAt (s : State) (t c : Nat) (x : SIns) : Prop :=
  s.alive = true ∧ t < 128 ∧ c < 16 ∧ s.atPc t c = some x

/-- All but channel `c` of tile `t` is as before. -/
def OnlyChan (s u : State) (t c : Nat) : Prop :=
  u = { s with tiles := u.tiles } ∧ (∀ v, v ≠ t → u.tile v = s.tile v) ∧
  u.tile t = { s.tile t with chans := (u.tile t).chans } ∧ (∀ b, b ≠ c → u.chan t b = s.chan t b)

/-- A Z-bit integer added to an address, modulo 2^64. -/
def addAddr (a : Nat) (z : Int) : Nat := (((a : Int) + z) % 2 ^ 64).toNat

end Sys2Proof.Machine

open Sys2Proof Sys2Proof.Machine

/-- A LOOP runs its body COUNT times (R171): after count × length instructions of a body without inner loops the channel stands behind the
body, where the loops around it take their turn, and not before. -/
def Obligations.LoopRunsBodyCountTimes : Prop :=
  ∀ (ch : Chan) (n len count : Nat), 1 ≤ len → 1 ≤ count →
    let go (k : Nat) : Chan := Nat.repeat Chan.next k (ch.doLoop n len count)
    (∀ k < count * len, (go k).pc = ch.pc + 1 + k % len ∧ (go k).loops = ⟨n, ch.pc + 1, ch.pc + 1 + len, count - k / len⟩ :: ch.loops) ∧
    (go (count * len)).pc = (loopBack (ch.pc + 1 + len) ch.loops).1 ∧ (go (count * len)).loops = (loopBack (ch.pc + 1 + len) ch.loops).2

/-- SETA, ADDA, LOOP and FLIP change what they name and move on (R170, R171); WAITT takes tokens or waits; SIGT adds them behind the channel's
earlier requests and lines, and a token above 255 ends the launch (R178). -/
def Obligations.StrokeControlAndTokens : Prop :=
  (
  (∀ s t c a b pp imm, StrokeAt s t c (.seta a b pp imm) → ∃ u, exec (.seta t c) s = .next u ∧ OnlyChan s u t c ∧
    (let v := addAddr (nth (s.chan t c).base (if pp && (s.chan t c).phase then 1 - b else b) 0) imm
     u.chan t c = Chan.next { s.chan t c with a := (s.chan t c).a.set a v })) ∧
  (∀ s t c a imm, StrokeAt s t c (.adda a imm) → ∃ u, exec (.adda t c) s = .next u ∧ OnlyChan s u t c ∧
    u.chan t c = Chan.next { s.chan t c with a := (s.chan t c).a.set a (addAddr (nth (s.chan t c).a a 0) imm) }) ∧
  (∀ s t c n len count, StrokeAt s t c (.loop n len count) → ∃ u, exec (.loop t c) s = .next u ∧ OnlyChan s u t c ∧
    (let l : LoopSt := ⟨n, (s.chan t c).pc + 1, (s.chan t c).pc + 1 + len, count⟩
     u.chan t c = { s.chan t c with pc := (s.chan t c).pc + 1, loops := l :: (s.chan t c).loops })) ∧
  (∀ s t c, StrokeAt s t c .flip → ∃ u, exec (.flip t c) s = .next u ∧ OnlyChan s u t c ∧
    u.chan t c = Chan.next { s.chan t c with phase := !(s.chan t c).phase }) ∧
  (∀ s t c k n, StrokeAt s t c (.sigt k n) → ∃ u, exec (.sigt t c) s = .next u ∧ OnlyChan s u t c ∧
    u.chan t c = Chan.next { s.chan t c with sigs := (s.chan t c).sigs ++ [⟨k, n, (s.chan t c).issued, (s.chan t c).emits⟩] })) ∧
  (
  (∀ s t c k n, StrokeAt s t c (.waitt k n) → n ≤ nth (s.tile t).tokens k 0 → ∃ u, exec (.waitt t c) s = .next u ∧
    (u.tile t).tokens = (s.tile t).tokens.set k (nth (s.tile t).tokens k 0 - n) ∧ u.chan t c = (s.chan t c).next) ∧
  (∀ s t c k n, StrokeAt s t c (.waitt k n) → nth (s.tile t).tokens k 0 < n → ∃ u, exec (.waitt t c) s = .next u ∧
    (u.tile t).tokens = (s.tile t).tokens ∧ u.chan t c = { s.chan t c with wait := .token k n }) ∧
  (∀ s t c k n, s.alive = true → t < 128 → c < 16 → s.tileRuns t = true → (s.chan t c).active = true → (s.chan t c).wait = .token k n →
    n ≤ nth (s.tile t).tokens k 0 → ∃ u, exec (.tokenWaitSatisfied t c) s = .next u ∧
    (u.tile t).tokens = (s.tile t).tokens.set k (nth (s.tile t).tokens k 0 - n) ∧ u.chan t c = (s.chan t c).next) ∧
  (∀ s t c g rest cid, s.alive = true → t < 128 → c < 16 → s.tileRuns t = true → s.tileCmd t = some cid → (s.chan t c).sigs = g :: rest →
    g.reqs ≤ (s.chan t c).done → g.lines ≤ (s.chan t c).linesRead →
    ∃ u, exec (.sigtTakeEffect t c) s = .next u ∧ u.chan t c = { s.chan t c with sigs := rest } ∧
      (nth (s.tile t).tokens g.token 0 + g.count ≤ 255 →
        (u.tile t).tokens = (s.tile t).tokens.set g.token (nth (s.tile t).tokens g.token 0 + g.count)) ∧
      (255 < nth (s.tile t).tokens g.token 0 + g.count → (u.tile t).tokens = (s.tile t).tokens ∧
        (Live s cid → (u.cmd cid).cause = (s.cmd cid).cause.or (some (8, 7))))))

/-- MOVE issues the requests of its block, behind those the channel still has (R174, R323): each of at most 64 bytes and within one line of
memory, and together every byte of every piece with its place in scratch. -/
def Obligations.MoveIssuesItsBlock : Prop :=
  ∀ s t c sr d tr sk f6 rows pieces plog pitch, StrokeAt s t c (.move sr d tr sk f6 rows pieces plog pitch) → plog ≤ 6 →
    let ch := s.chan t c
    let write := chanRole c == 3
    let memA := nth ch.a (if write then d else sr) 0
    let scrA := nth ch.a (if write then sr else d) 0
    let sz := 2 ^ plog
    let place (r p : Nat) : Nat := (scrA + (if tr then sz * (p * rows + r) else sz * (r * pieces + p)) + (if sk then r / 4 * ch.lineBytes else 0)) % 2 ^ 64
    (∀ r < rows, ∀ p < pieces, place r p + sz ≤ scratchSize ∧ aligned (place r p) sz = true) →
    ∃ (rs : List Req) (u : State), exec (.move t c) s = .next u ∧
      (let v := s.updChan t c (fun ch => Chan.next { ch with reqs := ch.reqs ++ rs, issued := ch.issued + rs.length })
       u = { (v.pump t c).prefetch t c write with pending := s.pending }) ∧
      (∀ r ∈ rs, r.st = .new ∧ r.write = write ∧ 1 ≤ r.len ∧ r.addr % 64 + r.len ≤ 64) ∧
      (rs.map (·.len)).sum = rows * pieces * (if f6 then sz * 3 / 4 else sz) ∧
      (f6 = false → ∀ i < rows, ∀ p < pieces, ∀ x < sz, ∃ r ∈ rs, ∃ j < r.len,
        r.addr + j = (memA + i * pitch + p * sz + x) % 2 ^ 64 ∧ r.scr + j = place i p + x)

/-- The oldest request of a channel completes (R171): a fetch from device memory puts its bytes into scratch; a write to device memory that
must not wait for the host, to a page that is not retired and a sector that is not poisoned, changes exactly its bytes. -/
def Obligations.MoveRequestCompletes : Prop :=
  (∀ s t c r rest cid res data, s.alive = true → t < 128 → c < 16 → res ∈ [MemRes.ok, .corrected] → (s.chan t c).reqs = r :: rest →
    s.tileCmd t = some cid → r.st = .sent → r.write = false → r.port = none → r.piece = 0 → s.host.hostBias.contains (r.tgt / 4096) = false →
    ∃ v : State, exec (.moveRequestComplete t c res data) s = .next { v.pump t c with pending := s.pending } ∧
      v.tile t = ((s.tile t).scrWrite (s.chan t c).swz r.scr (s.readThrough (s.cmd cid).part r.tgt r.len)).setChan c
        { s.chan t c with reqs := rest, done := (s.chan t c).done + 1 } ∧
      v.mem = s.mem ∧ v.reg (strBase t c + 0x28) = min (s.reg (strBase t c + 0x28) + r.len) (2 ^ 64 - 1)) ∧
  (∀ s t c r rest cid res data, s.alive = true → t < 128 → c < 16 → res ∈ [MemRes.ok, .corrected] → (s.chan t c).reqs = r :: rest →
    s.tileCmd t = some cid → s.tileShadow t = false → r.st = .sent → r.write = true → r.port = none → r.piece = 0 →
    s.hostFirst r.tgt = false → s.biHeld r.tgt = false → (tierOf r.tgt = 3 → s.t3LinkOk (windowOf r.tgt) = true) → s.pageRetired r.tgt = false →
    (s.sector r.tgt).poison = false →
    ∃ v : State, exec (.moveRequestComplete t c res data) s = .next { (v.pump t c).setMed [] with pending := s.pending } ∧
      v.tile t = (s.tile t).setChan c { s.chan t c with reqs := rest, done := (s.chan t c).done + 1 } ∧
      ∀ x, memByte v.mem x = if s.cellOf r.tgt ≤ x ∧ x < s.cellOf r.tgt + r.len
        then BitVec.ofNat 8 ((s.tile t).scr (s.chan t c).swz (r.scr + (x - s.cellOf r.tgt))) else memByte s.mem x) ∧
  -- a fetch from host memory through the host-line cache, and a write to it that waits for its GO
  (∀ s t c r rest cid p res data, s.alive = true → t < 128 → c < 16 → res ∈ [MemRes.ok, .corrected] → (s.chan t c).reqs = r :: rest →
    s.tileCmd t = some cid → r.st = .sent → r.write = false → r.port = some p → r.piece = 0 → data.length = r.len →
    let o := (s.setMed [(hlcKey r.tgt, res)]).hostRead (t / 16) p (some (s.tileCtx t).pasid) (bit (s.chan t c).flags 2) r.untrans r.tgt data
    ∃ v : State, exec (.moveRequestComplete t c res data) s = .next { (v.pump t c).setMed [] with pending := s.pending } ∧
      (v.tile t).scratch = ((s.tile t).scrWrite (s.chan t c).swz r.scr o.2).scratch ∧
      (v.chan t c).reqs.map (·.tok) = rest.map (·.tok) ∧ (v.chan t c).done = (s.chan t c).done + 1) ∧
  (∀ s t c r rest cid p res data, s.alive = true → t < 128 → c < 16 → res ∈ [MemRes.ok, .corrected] → (s.chan t c).reqs = r :: rest →
    s.tileCmd t = some cid → s.tileShadow t = false → r.st = .sent → r.write = true → r.port = some p → r.piece = 0 → s.portMode p < 2 →
    let bytes := (s.tile t).scrRead (s.chan t c).swz r.scr r.len
    ∃ u, exec (.moveRequestComplete t c res data) s = .next u ∧
      u.out = s.out ++ [.hostWrite (t / 16) r.tgt (some (s.tileCtx t).pasid) bytes] ∧
      u.host.goWait = s.host.goWait ++ [{ die := t / 16, port := p, addr := r.tgt / 64 * 64, cids := [cid], src := some (t, c) }] ∧ u.mem = s.mem)

/-- Scratch reads what was last written to it under any of the three swizzles, and a write under one changes no other byte of the same
view: the swizzle permutes the locations (R166). -/
def Obligations.ScratchReadAfterWrite : Prop :=
  ∀ (x : Tile) (swz a y : Nat) (data : List Nat), swz < 3 → a + data.length ≤ scratchSize → y < scratchSize →
    (x.scrWrite swz a data).scr swz y = if a ≤ y ∧ y < a + data.length then nth data (y - a) 0 % 256 else x.scr swz y

/-- EMIT presents a line when fewer than four are waiting; TAKE puts the next item into scratch and waits while there is none; END ends a
stroke that has no base table, re-arms one from its next entry, and the last stroke to end ends the task (R175, R177, R179, R180). -/
def Obligations.EmitTakeEnd : Prop :=
  (∀ s t c a sk inc, StrokeAt s t c (.emit a sk inc) → (s.chan t c).areg a % 64 = 0 → lineInScratch (s.chan t c) ((s.chan t c).areg a) sk = true →
    lanesInScratch (s.chan t c) = true → (s.chan t c).lines.length < 4 →
    ∃ u, exec (.emit t (c, .ok)) s = .next u ∧ (u.chan t c).lines.length = (s.chan t c).lines.length + 1 ∧
      (∃ l, (u.chan t c).lines.getLast? = some l ∧ l.addr = (s.chan t c).areg a ∧ l.skew = sk ∧
        (sk = false → l.bytes = (s.tile t).scrRead (s.chan t c).swz ((s.chan t c).areg a) (4 * ((s.chan t c).lineBytes / 4)))) ∧
      (u.chan t c).a = (s.chan t c).a.set a (addAddr ((s.chan t c).areg a) inc) ∧ (u.chan t c).pc = (s.chan t c).next.pc ∧
      (u.chan t c).emits = (s.chan t c).emits + 1) ∧
  (∀ s t c a packed inc, StrokeAt s t c (.take a packed inc) → (s.chan t c).items = [] →
    ∃ u, exec (.take t c) s = .next u ∧ OnlyChan s u t c ∧ u.chan t c = { s.chan t c with wait := .data }) ∧
  (∀ s t c a packed inc it rest, StrokeAt s t c (.take a packed inc) → (s.chan t c).items = it :: rest →
    let addr := (s.chan t c).areg a
    let b := it.bytes addr
    addr + b.1.length ≤ scratchSize →
    ∃ u, exec (.take t c) s = .next u ∧ u.tile t = ((s.tile t).scrWrite (s.chan t c).swz addr b.1).setChan c
      (Chan.next { s.chan t c with items := rest, a := (s.chan t c).a.set a (addAddr addr (if packed then (b.1.length : Int) else inc)) })) ∧
  (∀ s t c, StrokeAt s t c .fin → chanRole c ≠ 1 → (s.chan t c).reqs = [] → bit (s.chan t c).flags 0 = false →
    (∃ e ∈ (s.tile t).chans, e.1 ≠ c ∧ e.2.active = true) →
    ∃ u, exec (.endStroke t c) s = .next u ∧ OnlyChan s u t c ∧ u.chan t c = { s.chan t c with active := false, wait := .no }) ∧
  (∀ s t c, StrokeAt s t c .fin → chanRole c ≠ 1 → (s.chan t c).reqs = [] → bit (s.chan t c).flags 0 = true → (s.chan t c).rearms < 255 →
    let a := (s.chan t c).btab + 32 * (s.chan t c).rearms
    let e := (s.tile t).scrRead (s.chan t c).swz a 32
    a + 32 ≤ scratchSize → fieldOf e 0 8 ≠ 2 ^ 64 - 1 →
    ∃ u, exec (.endStroke t c) s = .next u ∧ OnlyChan s u t c ∧ u.chan t c = { s.chan t c with
      base := [fieldOf e 0 8, fieldOf e 8 8, fieldOf e 16 8, fieldOf e 24 8]
      rearms := (s.chan t c).rearms + 1
      pc := 0
      a := [0, 0, 0, 0]
      loops := []
      wait := .no }) ∧
  (∀ s t c cid, StrokeAt s t c .fin → s.tileCmd t = some cid → chanRole c ≠ 1 → (s.chan t c).reqs = [] → bit (s.chan t c).flags 0 = false →
    (∀ e ∈ ((s.updChan t c (fun x => { x with active := false, wait := .no })).tile t).chans, e.2.active = false) →
    ∃ u, exec (.endStroke t c) s = .next u ∧ u.mem = s.mem ∧
      (Live s cid → s.tilesOf cid = [t] → (u.cmd cid).st = .fencing ∧ (u.cmd cid).cause = (s.cmd cid).cause))

/-- A cluster cache fill that reads clean is over: its line is held when it was to be and its set has a way that is not pinned, its waiting
requests go on, what waits for a place is issued again, and the windows of the cluster are filled on (R181, R182, R267). -/
def Obligations.ClusterCacheFill : Prop :=
  ∀ s cl line f, s.alive = true → Instr.wf (.clusterCacheFill cl line .ok .ok) = true →
    (s.cache cl).fills.find? (fun g => g.line == line) = some f → f.admitted = true → f.heal = false → f.pin = none → s.pinnedWays cl line < 16 →
    (∀ a, a = 128 * line ∨ a = 128 * line + 64 → s.pageRetired a = false ∧ (s.sector a).poison = false ∧
      (tierOf a = 3 → s.t3LinkOk (windowOf a) = true)) →
    f.wait.Nodup → (∀ w ∈ f.wait, ∃ r, (s.chan w.1 w.2.1).reqs.filter (fun r => r.tok == w.2.2) = [r] ∧ r.tgt / 128 = line) →
    ∃ v : State, exec (.clusterCacheFill cl line .ok .ok) s = .next { (v.reissue cl).winPumps cl with pending := s.pending } ∧
      (f.alloc = true → ((v.cache cl).lines).head? = some line) ∧ (f.alloc = false → (v.cache cl).lines = (s.cache cl).lines) ∧
      (∀ g ∈ (v.cache cl).fills, g.line ≠ line) ∧ v.mem = s.mem ∧
      ∀ t c, v.chan t c = { s.chan t c with reqs := (s.chan t c).reqs.map (fun r =>
        if (t, c, r.tok) ∈ f.wait then r.move s .sent else r) }

/-- LAYER switches the control words of the tile's engines when they pass R127, and otherwise ends the launch; YIELD releases the vector unit's
claims and lets the task end, be saved, or go on, but takes no yield point while its launch may not yield or a merge of the tile goes on
(R127, R157, R162, R340, R377, R383). SEM_ACQ takes a free semaphore, passes when its launch holds it,
else waits; SEM_REL releases it at the last task, to the first waiter by priority and readiness; a hold past its bound ends the launch
(R391, R392). -/
def Obligations.MarksAndSemaphores : Prop :=
  (
  (∀ s t ctl, s.alive = true → t < 128 → s.tileRuns t = true → ctl.length ≤ 2 → ctl.all ctlOk = true →
    ∃ u, exec (.layer t ctl) s = .next u ∧ u.tiles = s.tiles ∧ (∀ j < ctl.length, u.reg (engBase t j) = nth ctl j 0) ∧
      ∀ k, (∀ j < ctl.length, k ≠ engBase t j) → u.reg k = s.reg k) ∧
  (∀ s t ctl cid, s.alive = true → t < 128 → s.tileRuns t = true → s.tileCmd t = some cid → (ctl.all ctlOk = false ∨ 2 < ctl.length) →
    ∃ u, exec (.layer t ctl) s = .next u ∧ u.tile t = s.tile t ∧ (Live s cid → (u.cmd cid).cause = (s.cmd cid).cause.or (some (8, 7)))) ∧
  (∀ s t live cid, s.alive = true → t < 128 → s.tileRuns t = true → s.tileQuiet t = true → s.tileCmd t = some cid →
    let stays : Bool := !s.mayYield cid || s.inMerge t
    (stays = true → ∃ u, exec (.yield t live) s = .next u ∧ (u.tile t).vec = (s.tile t).vec ∧ (u.tile t).eng = (s.tile t).eng ∧
      ∃ k, (u.tile t).task = some k ∧ k.cid = cid ∧ k.st = .run ∧ k.yieldAt = s.time ∧ k.live = live) ∧
    (stays = false → (s.cmd cid).cause = none → (s.cmd cid).preemptReq = false →
      ∃ u, exec (.yield t live) s = .next u ∧ (u.tile t).vec.claims = 0 ∧
        (∀ e ∈ (u.tile t).eng, ∀ o ∈ e.owners, o ≠ 3) ∧
        (∃ k, (u.tile t).task = some k ∧ k.cid = cid ∧ k.st = .run ∧ k.yieldAt = s.time ∧ k.live = live)) ∧
    (stays = false → (s.cmd cid).cause = none → (s.cmd cid).preemptReq = true →
      ∃ u, exec (.yield t live) s = .next u ∧ (∃ k, (u.tile t).task = some k ∧ k.cid = cid ∧ k.st = .saving ∧ k.was = .run ∧ k.live = live) ∧
        ((s.cmd cid).preemptAt = none → (u.cmd cid).st = .saving ∧ (u.cmd cid).preemptAt = some s.time)) ∧
    (stays = false → (s.cmd cid).cause ≠ none → Live s cid → s.tilesOf cid = [t] →
      ∃ u, exec (.yield t live) s = .next u ∧ (u.cmd cid).st = .fencing ∧ (u.cmd cid).cause = (s.cmd cid).cause))) ∧
  (
  (∀ s t n hold live cid, s.alive = true → t < 128 → n < 32 → s.tileCmd t = some cid → s.tileRuns t = true → s.tileQuiet t = true →
    bit (s.cmd cid).hdr.semMask n = true →
    let p := (s.cmd cid).part.getD 0
    ((s.sem p n).holder = none → ∃ u, exec (.semAcq t n hold live) s = .next u ∧ u.tiles = s.tiles ∧
      u.sem p n = { holder := some cid, since := s.time, holdNs := hold }) ∧
    ((s.sem p n).holder = some cid → ∃ u, exec (.semAcq t n hold live) s = .next u ∧ u = s) ∧
    (∀ h, (s.sem p n).holder = some h → h ≠ cid → (s.mayYield cid = false ∨ s.inMerge t = true ∨ ((s.cmd cid).cause = none ∧ (s.cmd cid).preemptReq = false)) →
      ∃ u, exec (.semAcq t n hold live) s = .next u ∧ (u.sem p n).holder = some h ∧ cid ∈ (u.sem p n).waiters ∧
        ∃ k, (u.tile t).task = some k ∧ k.cid = cid ∧ k.st = .semWait n hold)) ∧
  (∀ s t n cid, s.alive = true → t < 128 → n < 32 → s.tileCmd t = some cid → s.tileRuns t = true →
    let p := (s.cmd cid).part.getD 0
    (s.sem p n).holder = some cid → s.tilesOf cid = [t] →
    ((s.sem p n).waiters = [] → ∃ u, exec (.semRel t n) s = .next u ∧ (u.sem p n).holder = none) ∧
    ((s.sem p n).waiters ≠ [] → ∃ u, exec (.semRel t n) s = .next u ∧ (u.sem p n).since = s.time ∧
      ∃ w ∈ (s.sem p n).waiters, (u.sem p n).holder = some w ∧ ∀ x ∈ (s.sem p n).waiters, (s.cmd x).before (s.cmd w) = false)) ∧
  (∀ s p n cid, s.alive = true → Instr.wf (.semHoldOverrun p n) = true → (s.sem p n).holder = some cid → s.clockPaused cid = false →
    ∃ u, exec (.semHoldOverrun p n) s = .next u ∧ (Live s cid → (u.cmd cid).cause = (s.cmd cid).cause.or (some (5, 0)))))

/-- A placed task whose image is sound and whose model is ready starts: its control words, strokes, tokens and scalars come from the image
and the constant buffer, its flags are cleared, the window of a WINDOW
model is opened, and the launch takes its first step (R126, R148, R169, R178, R267, R359, R363); that its banks start cleared is the model's
choice (log entry 212). -/
def Obligations.TaskStart : Prop :=
  ∀ s t img k, s.alive = true → t < 128 → (s.tile t).task = some k → k.st = .loaded → (s.cmd k.cid).cause = none → (s.cmd k.cid).sess = true →
    (s.cmd k.cid).look = true → taskImageOk img = true → s.modelReady k.cid ((s.cmd k.cid).part.getD 0) (s.cmd k.cid).model (t / 4) = true → k.miss = none →
    let cb := (s.cmd k.cid).cb
    ∃ u : State, exec (.taskStart t img) s = .next { (u.openWindow k.cid (t / 4)).stepped k.cid with pending := s.pending } ∧
      (s.isWindow ((s.cmd k.cid).part.getD 0) (s.cmd k.cid).model = false → u.openWindow k.cid (t / 4) = u) ∧ u.reg (engBase t 0) = nth img.ctl 0 0 ∧ u.reg (engBase t 1) = nth img.ctl 1 0 ∧
      u.reg (tileBase t + 0x204) = 0 ∧ u.reg (engBase t 0 + 0xC) = 0 ∧ u.reg (engBase t 1 + 0xC) = 0 ∧
      (∃ j, (u.tile t).task = some j ∧ j.cid = k.cid ∧ j.idx = k.idx ∧ j.st = .run) ∧
      (u.tile t).tokens = (List.range 16).map (fun i => nth img.tokens i 0) ∧
      (u.tile t).vec.s = (List.range 16).map (fun i => bits (nth cb (i / 2) 0) (32 * (i % 2) + 31) (32 * (i % 2))) ∧
      (∀ h ∈ img.strokes, u.chan t (fieldOf h.1 0 1) = loadChan h.1 h.2 cb) ∧
      (∀ e ∈ (u.tile t).eng, e.busy = true ∧ e.banks = [Bank.clear, Bank.clear] ∧ e.owners = [0, 0]) ∧
      ((s.cmd k.cid).st = .placed → (u.cmd k.cid).st = .running) ∧
      (u.cmd k.cid).firstStep = (s.cmd k.cid).firstStep ∧ (u.stepped k.cid).time = s.time ∧
      ((s.cmd k.cid).firstStep = none → ((u.stepped k.cid).cmd k.cid).firstStep = some s.time)

/-- A slice expiry makes a placed or running launch a candidate for preemption at equal priority (R382); a save that has every task at its yield
point frees the tiles and makes the launch SAVED, a restore makes it run again, once their traffic is admitted (R383-R386, log entry 205); a late yield is counted and
written and leaves the preemption as it stands (R388); a watchdog expiry ends a watched launch with TIMEOUT (R390). -/
def Obligations.PreemptionAndWatchdog : Prop :=
  (∀ s q seq, s.alive = true → Instr.wf (.timesliceExpiry q seq) = true → (s.cmd (cidOf q seq)).opcode = 1 →
    ((s.cmd (cidOf q seq)).st = .placed ∨ (s.cmd (cidOf q seq)).st = .running) → ∃ u, exec (.timesliceExpiry q seq) s = .next u ∧ (u.cmd (cidOf q seq)).sliceEnd = true) ∧
  (∀ s a q seq, s.alive = true → Instr.wf (.saveComplete q seq) = true → Ready s [] (fun s => s.doSaveComplete q seq) a →
    let cid := cidOf q seq
    let p := (a.cmd cid).part.getD 0
    (a.cmd cid).st = .saving → a.tilesOf cid ≠ [] → (∀ t ∈ a.tilesOf cid, ∃ k, (a.tile t).task = some k ∧ k.st = .saving) →
    (∀ t ∈ a.tilesOf cid, ∀ v ∈ a.tilesOf cid, ((a.tile t).task.map Task.slot) = ((a.tile v).task.map Task.slot) → t = v) →
    ∃ u : State, exec (.saveComplete q seq) s = .next (doneAs s a (fun s => s.doSaveComplete q seq)) ∧ a.doSaveComplete q seq = u.place p ∧
      (u.cmd cid).st = .saved ∧ (u.cmd cid).preemptReq = false ∧ ∀ t ∈ a.tilesOf cid, ∀ k, (a.tile t).task = some k → (u.tile t).task = none ∧
        Tbl.get {} u.saved (frameKey cid k.slot) = a.frameOf t) ∧
  (∀ s a q seq, s.alive = true → Instr.wf (.restoreComplete q seq) = true → Ready s [] (fun s => s.doRestoreComplete q seq) a →
    let cid := cidOf q seq
    let p := (a.cmd cid).part.getD 0
    (a.cmd cid).st = .restoring →
    (∀ t ∈ a.tilesOf cid, a.modelReady cid p (a.cmd cid).model (t / 4) = true ∧ ∃ k old, (a.tile t).task = some k ∧ k.miss = none ∧
      (Tbl.get {} a.saved (frameKey cid k.slot)).task = some old ∧ old.was = .run ∧ old.cid = cid) →
    ∃ u : State, exec (.restoreComplete q seq) s = .next (doneAs s a (fun s => s.doRestoreComplete q seq)) ∧
      a.doRestoreComplete q seq = (((a.tilesOf cid).map clusterOfTile).eraseDups).foldl (fun v cl => v.openWindow cid cl) u ∧
      (u.cmd cid).st = .running ∧ (u.cmd cid).preemptAt = none ∧
      ∀ t ∈ a.tilesOf cid, ∀ k, (a.tile t).task = some k →
        let f : Tile := Tbl.get {} a.saved (frameKey cid k.slot)
        (u.tile t).vec = f.vec ∧ (u.tile t).eng = (f.eng.zip (a.tile t).eng).map (fun e => { e.1 with inject := e.2.inject }) ∧
          (u.tile t).sel = f.sel ∧ (u.tile t).chans = f.chans ∧ (u.tile t).tokens = f.tokens ∧
          u.reg (engBase t 0) = nth f.frame 0 0x40000000 % 2 ^ 64 ∧ u.reg (tileBase t + 0x204) = nth f.frame 4 0 % 2 ^ 64 ∧
          u.reg (tileBase t + 0x218) = nth f.frame 5 0 % 2 ^ 64 ∧
          ∃ j, (u.tile t).task = some j ∧ j.st = .run ∧ j.idx = k.idx) ∧
  (∀ s q seq late, s.alive = true → Instr.wf (.yieldLate q seq late) = true → (s.cmd (cidOf q seq)).preemptReq = true →
    (s.cmd (cidOf q seq)).opcode = 1 →
    let p := (s.cmd (cidOf q seq)).part.getD 0
    p < 16 → ∃ u, exec (.yieldLate q seq late) s = .next u ∧ u.cmd (cidOf q seq) = s.cmd (cidOf q seq) ∧ u.tiles = s.tiles ∧
      u.reg (0x4100C + 0x100 * p) = min (s.reg (0x4100C + 0x100 * p) + 1) (2 ^ 32 - 1)) ∧
  (∀ s q seq clock, s.alive = true → Instr.wf (.wcetWatchdogExpiry q seq clock) = true →
    let c := s.cmd (cidOf q seq)
    c.opcode = 1 → c.watched = true → (c.st = .placed ∨ c.st = .running) → s.clockPaused (cidOf q seq) = false → c.cause = none →
    ((clock = 0 ∧ c.firstStep = none ∧ c.hdr.preNs ≠ 0) ∨ (clock = 1 ∧ c.firstStep ≠ none ∧ c.hdr.wcetNs ≠ 0)) →
    ∃ u, exec (.wcetWatchdogExpiry q seq clock) s = .next u ∧ (u.cmd (cidOf q seq)).cause = some (5, 0) ∧ (u.cmd (cidOf q seq)).st = .fencing)

/-- The sectors that a load reads into a cluster: those of its next layer, or all that are left of the image (R266). -/
def loadList (s : State) (p m cl : Nat) (whole : Bool) : List Nat :=
  let x := s.model p m
  let at' (l : Nat × Nat) : Nat × Nat := (x.img.1 + l.1, l.2)
  let had := ((x.lays.take (Tbl.get 0 x.layers cl)).map (fun l => s.sectorsAt (at' l))).flatten
  if whole then (s.sectorsAt x.img).filter (fun a => !had.contains a)
  else match x.lays[Tbl.get 0 x.layers cl]? with | some l => s.sectorsAt (at' l) | none => []

/-- A model load whose sectors read clean pins its next layer, or makes the whole image resident; one whose digest is not that of its record
is IMAGE_BAD and loads nothing (R58, R266, R394, R395). The accounting selectors show the counters of a client or model, and a clear empties
them (R397, R398). -/
def Obligations.ModelLoadsAndAccounting : Prop :=
  (
  ∀ s a p m cl layer whole ecc r, s.alive = true → Instr.wf (.modelLoadComplete p m cl layer (whole, ecc)) = true →
    let f : State → State := fun s => s.doModelLoadComplete p m cl layer whole
    Ready s ecc f a → bit (a.model p m).loading cl = true → cfgModel a.folio.active p m = some r → (a.model p m).img.2 ≠ 0 →
    let x := a.model p m
    let good : Prop := Config.sha384 (a.readDP x.img.1 x.img.2) = fieldOf r.data 16 48
    exec (.modelLoadComplete p m cl layer (whole, ecc)) s = .next (doneAs s a f) ∧
    (¬good → ((f a).model p m).bad = true ∧ ((f a).model p m).resident = x.resident ∧ bit ((f a).model p m).loading cl = false) ∧
    (good → (whole = true ∨ layer = Tbl.get 0 x.layers cl ∧ layer < x.lays.length) → (∀ y ∈ loadList a p m cl whole, ReadsClean a y) →
     ∃ u : State, f a = (u.pinTrim cl).pumpSt .model ∧ (u.model p m).bad = x.bad ∧
      (whole = true → bit (u.model p m).resident cl = true ∧ bit (u.model p m).loading cl = false) ∧
      (whole = false → Tbl.get 0 (u.model p m).layers cl = layer + 1 ∧ (u.model p m).resident = x.resident))) ∧
  (
  (∀ s port value, s.alive = true → Instr.wf (.acctSelWrite port value) = true → s.regsOpen = true →
    ∃ u, exec (.acctSelWrite port value) s = .next u ∧ u.reg 0x40000 = value % 4096 ∧
      ∀ r ∈ acctRegs, u.reg r = s.reg (selKey r (value % 4096))) ∧
  (∀ s port value, s.alive = true → Instr.wf (.acctMdlSelWrite port value) = true → s.regsOpen = true →
    let k := modelKey (bits value 35 32) (bits value 31 0)
    ∃ u, exec (.acctMdlSelWrite port value) s = .next u ∧ u.reg 0x40100 = value % 2 ^ 36 ∧
      u.reg 0x40110 = s.reg (selKey 0x40110 k) ∧ u.reg 0x40118 = s.reg (selKey 0x40118 k)) ∧
  (∀ s port value, s.alive = true → Instr.wf (.acctClear port value) = true → s.regsOpen = true →
    ∃ u, exec (.acctClear port value) s = .next u ∧ (∀ k < 0x4000000, u.reg k = s.reg k) ∧
      (bit value 12 = false → ∀ r ∈ acctRegs, u.reg (selKey r (value % 4096)) = 0) ∧
      (bit value 12 = true → ∀ r ∈ acctRegs, ∀ c, u.reg (selKey r c) = 0)))

/-- A step takes the command at the front of the queue and runs it with the queue's rest; an empty queue idles (log entry 1: the model's
choice). -/
def Obligations.StepRunsFrontCommand : Prop :=
  (∀ c rest s, s.pending = c :: rest → step s = exec c { s with pending := rest }) ∧ (∀ s, s.pending = [] → step s = .next s)

/-- A command that names only units the device has is always carried out, and one that does not stops with the fault named for it (Table 0.4);
no command is refused, and none touches the queue: so a queue of such commands runs to its end in its order. -/
def Obligations.WellFormedQueueRunsToItsEnd : Prop :=
  (∀ c s, Instr.wf c = true → ∃ u, exec c s = .next u ∧ u.pending = s.pending) ∧
  (∀ c s, Instr.wf c = false → exec c s = .fault .noSuchUnit) ∧
  (∀ (n : Nat) (s : State), n ≤ s.pending.length → (∀ c ∈ s.pending, Instr.wf c = true) →
    ∃ u : State, (Nat.rec (motive := fun _ => Host.Outcome State Fault Refusal) (.next s)
      (fun _ o => match o with | .next v => step v | x => x) n) = .next u ∧ u.pending = s.pending.drop n)

/-- While RESET_N is low or after a thermal trip nothing acts but the two reset commands and the PERST pins (R488, R489, R493). -/
def Obligations.HeldOrTrippedBlockUnchanged : Prop :=
  ∀ c s, s.alive = false → Instr.wf c = true → c ≠ .resetAssert → c ≠ .powerOnStart → (∀ p, c ≠ .perstAssert p ∧ c ≠ .perstRelease p) →
    exec c s = .next s

/-- Every step keeps device memory in its canonical form, so two states that read alike in every byte hold the same memory. -/
def Obligations.StepKeepsMemoryCanonical : Prop :=
  ∀ s u, s.Inv → step s = .next u → u.Inv

namespace Sys2Proof.Machine

/-- The shape of a state that a run reaches: the lists kept per die or per port have their lengths, what waits for the host, the
translation agent or a cluster cache names a tile or a die of the device, nothing of a command is left over, and no Quill operation has the
number of a later one. -/
def State.Shaped (s : State) : Prop :=
  s.host.via.length = 8 ∧ s.host.lines.length = 8 ∧ s.host.track.length = 8 ∧ s.host.hdm.length = 2 ∧ (∀ l ∈ s.host.hdm, l.length = 2) ∧
  s.host.hdmErr.length = 2 ∧ (∀ l ∈ s.host.hdmErr, l.length = 2) ∧ s.xlat.cache.length = 8 ∧ s.xlat.ats.length = 2 ∧ s.xlat.pasidEn.length = 2 ∧
  s.xlat.pri.length = 2 ∧ s.memc.refresh.length = 8 ∧ s.memc.cap.length = 8 ∧ s.memc.capDue.length = 8 ∧ s.memc.halt.length = 8 ∧
  (∀ w ∈ s.host.biWait, ∀ x, w.src = some x → x.1 < 128) ∧ (∀ w ∈ s.host.goWait, ∀ x, w.src = some x → x.1 < 128) ∧
  (∀ e ∈ s.caches, (∀ w ∈ e.2.queue, w.1 < 128) ∧ ∀ f ∈ e.2.fills, ∀ w ∈ f.wait, w.1 < 128) ∧ Settled s ∧
  (∀ r ∈ s.xlat.reqs, r.die < 8) ∧ s.flash.boot.length = 2 ∧ s.flash.bootSlot < 2 ∧ ∀ o ∈ s.fab.ops, o.id < s.fab.nextOp

end Sys2Proof.Machine

/-- Every step keeps the shape of the state, which other statements take as a premise (the model's own bookkeeping). -/
def Obligations.StepKeepsShape : Prop :=
  ∀ s u, s.Shaped → step s = .next u → u.Shaped

/-- What reset leaves: every register reads the reset value of its table, memory lists nothing, TIME is 0, no command waits, no queue, ring
or flow is open, no port is up, no die has the guarantee, and RESET_N is low until the power-on start (R9, R40, R438, R484, R488). -/
def Obligations.ResetValues : Prop :=
  State.reset.Inv ∧ State.reset.Shaped ∧ State.reset.pending = [] ∧ State.reset.mem = [] ∧ State.reset.time = 0 ∧ State.reset.alive = false ∧
  (∀ k, State.reset.reg k = regReset k) ∧ State.reset.reg 0x110 = 0x600 ∧ State.reset.reg 0x30800 = 0x181 ∧ State.reset.reg 0x30C00 = 7 ∧
  State.reset.reg 0x300008 = 1000 ∧ State.reset.reg 0x400000 = 0x4C370000 ∧ State.reset.reg 0x400038 = 0x08000000 ∧
  (∀ t < 128, ∀ e < 2, State.reset.reg (engBase t e) = 0x40000000) ∧ State.reset.inside = 0 ∧ State.reset.stage = 0 ∧
  (∀ p, State.reset.portUp p = false) ∧ (∀ r < 17, State.reset.ringOn r = false) ∧ (∀ d < 8, (State.reset.diePace d).vcore = 800) ∧
  (∀ q, (State.reset.queue q).st = 0) ∧ (∀ f, (State.reset.flow f).st = 0) ∧ (∀ c, State.reset.hasCmd c = false)

/-- The pins and the reference clock: RESET_N low stops all work and keeps flash, fuses, the windows' memory and what was emitted (R488);
the power-on start releases it with every register at its reset value; PERST takes its own port down (R489); THERMTRIP_N goes low and
stays so until reset (R493); with the reference lost TIME goes on and both links are down (R43). -/
def Obligations.PinsAndReferenceClock : Prop :=
  (∀ s, s.pins.resetN = true → ∃ u, exec .resetAssert s = .next u ∧ u.alive = false ∧ u.pins.resetN = false ∧ u.pins.thermtripN = true ∧
    u.regs = [] ∧ u.time = 0 ∧ u.sched = {} ∧ u.tiles = [] ∧ u.flt = {} ∧ u.host = {} ∧ u.fab = {} ∧ u.flash = s.flash ∧
    u.folio.retired = s.folio.retired ∧ u.folio.active = [] ∧ u.memc.pages = s.memc.pages ∧ u.out = s.out ∧
    (s.Inv → ∀ a, memByte u.mem a = if 0x80000000000 ≤ a then memByte s.mem a else 0)) ∧
  (∀ s, ∃ u, exec .powerOnStart s = .next u ∧ u.pins.resetN = true ∧ u.regs = s.regs ∧ u.time = s.time ∧ u.mem = s.mem) ∧
  (∀ s port, port < 2 → s.alive = false ∨ s.portUp port = false →
    ∃ u, exec (.perstAssert port) s = .next u ∧ u.pins.perst = s.pins.perst.set port false ∧ u.regs = s.regs) ∧
  (∀ s port, port < 2 → ∃ u, exec (.perstRelease port) s = .next u ∧ u.pins.perst = s.pins.perst.set port true ∧ u.regs = s.regs) ∧
  (∀ s die, s.alive = true → die < 8 → ∃ u, exec (.thermtrip die) s = .next u ∧ u.pins.thermtripN = false ∧ u.alive = false ∧
    u.out = s.out ++ [.pin 1 false] ∧ u.regs = s.regs ∧ u.mem = s.mem) ∧
  (∀ s, s.alive = true → s.pace.refRun = true → ∃ u, exec .refclkLost s = .next u ∧ u.pace.refRun = false ∧ u.pace.refLost = true ∧
    u.time = s.time ∧ u.portUp 0 = false ∧ u.portUp 1 = false) ∧
  (∀ s, s.alive = true → ∃ u, exec .refclkResume s = .next u ∧ u.pace.refRun = true ∧ u.pace.refLost = s.pace.refLost ∧ u.regs = s.regs)

/-- At the end of a window TIME advances by 1,000 periods and its corrections, and each die's window is judged: its measured pace is the
lowest monitor within the limit, the guarantee is lost on the first failed condition and gained on the hundredth good window in a row
(R27, R29, R30, R34, R36, R40, R42); a die that was in efficiency mode at any time of the window fails it, and TIME stays at the largest value of
its 64 bits (log entry 189: the model's choice). -/
def Obligations.PaceWindow : Prop :=
  ∀ s meas, s.alive = true → Instr.wf (.paceWindowEnd meas) = true → ∃ u, exec (.paceWindowEnd meas) s = .next u ∧
    (let slew := min s.pace.slew 500000
     let total : Int := 1000 * 1000000 + s.pace.frac + signed 32 (s.reg 0x10014) - slew
     u.time = timeTop (s.time + (total / 1000000).toNat) ∧ u.pace.frac = total % 1000000 ∧ u.pace.slew = s.pace.slew - slew) ∧
    u.pace.winStart = u.time ∧ u.pace.windows = s.pace.windows + 1 ∧ u.mem = s.mem ∧ u.tiles = s.tiles ∧
    ∀ d < 8, ∀ m, meas[d]? = some m → ∀ raw ∈ m.mon, (∀ x ∈ m.mon, raw ≤ x) →
      (u.diePace d).meas = min raw (s.paceLimit d) ∧ (u.diePace d).vcore = (s.diePace d).vcore ∧
      (u.diePace d).base = (s.diePace d).vcore ∧ (u.diePace d).eff = bit (s.reg (paceBase d)) 29 ∧
      let ok : Bool := failedConds m (min raw (s.paceLimit d)) (bit (s.reg (paceBase d)) 29 || (s.diePace d).eff) == 0
      (u.diePace d).good = (if ok then min 100 ((s.diePace d).good + 1) else 0) ∧
      bit u.inside d = (ok && (bit s.inside d || decide (100 ≤ (s.diePace d).good + 1))) ∧
      (ok = false → bit s.inside d = true → u.reg (paceBase d + 8) = min (s.reg (paceBase d + 8) + 1) (2 ^ 32 - 1) ∧
        u.reg (paceBase d + 0x18) = s.pace.winStart % 2 ^ 64 ∧ (u.diePace d).lost = true)

/-- VCORE moves at most 10 mV from where it stood at the last grid point and stays within 600 and 880 mV (R31-R33, log entry 191); TIME steps
forward at once, up to its largest value (log entry 189: the model's choice), and backward by slewing, and a rate beyond 100,000 is refused, both
ignored under PTP (R42, Table 2.10); PTP messages are used on sub-port 0 of the selected port and discarded elsewhere (R41, Table 2.11; the
servo's corrections come with the message, log entry 20, and which messages a slave uses is log entry 192). -/
def Obligations.VoltageAndTime : Prop :=
  (∀ s die mv, s.alive = true → Instr.wf (.vcoreAdjust die mv) = true → ¬ (die = 0 ∧ s.leadDie = 4) → s.field 0x800014 2 0 ≠ 3 →
    ∃ u, exec (.vcoreAdjust die mv) s = .next u ∧ (u.diePace die).vcore = s.nextVcore die mv ∧ (u.diePace die).base = (s.diePace die).base ∧
      ((s.diePace die).base ≤ (s.diePace die).vcore + 10 →
        s.nextVcore die mv ≤ (s.diePace die).base + 10 ∧ (s.diePace die).base ≤ s.nextVcore die mv + 10) ∧
      (600 ≤ (s.diePace die).base → (s.diePace die).base ≤ 880 → 600 ≤ (s.diePace die).vcore →
        600 ≤ s.nextVcore die mv ∧ s.nextVcore die mv ≤ 880) ∧
      bit (u.reg (paceBase die)) 29 = s.efficient die ∧ (u.diePace die).eff = ((s.diePace die).eff || s.efficient die) ∧
      u.out = (if s.nextVcore die mv = (s.diePace die).vcore then s.out else s.out ++ [.rail die (s.nextVcore die mv)]) ∧
      ∀ d < 8, d ≠ die → u.diePace d = s.diePace d) ∧
  (∀ s port value, s.alive = true → Instr.wf (.paceTimeStepWrite port value) = true → s.regsOpen = true → s.ptpOn = false →
    ∃ u, exec (.paceTimeStepWrite port value) s = .next u ∧
      (value < 2 ^ 63 → u.time = timeTop (s.time + value) ∧ u.pace.slew = s.pace.slew) ∧
      (2 ^ 63 ≤ value → u.time = s.time ∧ u.pace.slew = s.pace.slew + (2 ^ 64 - value) * 1000000 ∧ u.pace.slewing = true)) ∧
  (∀ s port value, s.alive = true → Instr.wf (.paceTimeRateWrite port value) = true → s.regsOpen = true → s.ptpOn = false →
    -100000 ≤ signed 32 value → signed 32 value ≤ 100000 →
    ∃ u, exec (.paceTimeRateWrite port value) s = .next u ∧ u.reg 0x10014 = value % 2 ^ 32 ∧ ∀ k, k ≠ 0x10014 → u.reg k = s.reg k) ∧
  (∀ s, s.alive = true → s.pace.slew = 0 → ∃ u, exec .timeSlewComplete s = .next u ∧ u.pace.slewing = false ∧ u.time = s.time) ∧
  (∀ s eport sub kind offset stepNs ratePpb, s.alive = true → Instr.wf (.ptpMessageReceive eport sub kind offset stepNs ratePpb) = true →
    s.subUp eport sub = true →
    ∃ u, exec (.ptpMessageReceive eport sub kind offset stepNs ratePpb) s = .next u ∧
      u.reg (ethBase eport + 0x18) = min (s.reg (ethBase eport + 0x18) + 1) (2 ^ 64 - 1) ∧
      (s.ptpOn = true → s.field 0x10010 3 1 = eport → sub = 0 → ptpUsed kind = true → -100000 ≤ ratePpb → ratePpb ≤ 100000 →
        u.pace.holdover = false ∧ signed 32 (u.reg 0x10014) = ratePpb ∧ (0 ≤ stepNs → u.time = timeTop (s.time + stepNs.toNat)) ∧
        (kind = 0 → u.pace.syncs = if offset.natAbs ≤ 50 then min 16 (s.pace.syncs + 1) else 0) ∧
        u.out = (if kind = 8 then s.out ++ [.frame eport 0 4 [1]] else s.out)) ∧
      (s.ptpOn = true → s.field 0x10010 3 1 = eport → sub = 0 → ptpUsed kind = false → u.pace = s.pace) ∧
      (s.ptpOn = false ∨ s.field 0x10010 3 1 ≠ eport ∨ sub ≠ 0 →
        u.pace = s.pace ∧ u.reg (ethBase eport + 0x20) = min (s.reg (ethBase eport + 0x20) + 1) (2 ^ 64 - 1))) ∧
  (∀ s, s.alive = true → s.ptpOn = true → ∃ u, exec .ptpHoldoverTimeout s = .next u ∧ u.pace.holdover = true ∧ u.time = s.time)

namespace Sys2Proof.Machine

/-- A 64-bit register begins at `off`, none at `off + 4`, the access is answered, and no command has left anything over (R11, R440). -/
def State.Has64 (s : State) (port off : Nat) (r : RegRow) : Prop :=
  s.alive = true ∧ Settled s ∧ port < 2 ∧ off + 4 < 0x4000000 ∧ off % 8 = 0 ∧ regRow? off = some r ∧ r.width = 64 ∧ regRow? (off + 4) = none ∧
  (s.stage ≠ 15 ∨ nibOffset off = true)

/-- One read of the whole register from `s` to `u`: an RC register is cleared, no other register changes (R9). -/
def ReadOnce (s u : State) (off : Nat) (r : RegRow) : Prop :=
  u.reg off = (if r.wo = false ∧ r.rc ≠ 0 then 0 else s.reg off) ∧ ∀ k, k ≠ off → u.reg k = s.reg k

/-- What a read of the whole register shows: 0 for a WO register (R9). -/
def State.shown (s : State) (off : Nat) (r : RegRow) : Nat := if r.wo then 0 else s.view off

end Sys2Proof.Machine

/-- A 64-bit register as two halves (R12): lower reads latch, upper reads take the latch or read anew, lower writes are held until the upper
half is written, a whole access discards both; the two functions keep theirs apart (R482). -/
def Obligations.HalfAccessesOf64BitRegisters : Prop :=
  ∀ s port off r, s.Has64 port off r →
    let key := halfKey port off
    (∃ u, exec (.splitRegisterAccess port off none) s = .next u ∧ u.out = s.out ++ [.readData port off 4 (s.shown off r % 2 ^ 32)] ∧
      ReadOnce s u off r ∧ Tbl.get 0 u.latch key = s.shown off r / 2 ^ 32 + 1 ∧ ∀ k, k ≠ key → Tbl.get 0 u.latch k = Tbl.get 0 s.latch k) ∧
    (∀ h, Tbl.get 0 s.latch key = h + 1 → ∃ u, exec (.splitRegisterAccess port (off + 4) none) s = .next u ∧
      u.out = s.out ++ [.readData port (off + 4) 4 h] ∧ u.regs = s.regs ∧ Tbl.get 0 u.latch key = 0) ∧
    (Tbl.get 0 s.latch key = 0 → ∃ u, exec (.splitRegisterAccess port (off + 4) none) s = .next u ∧
      u.out = s.out ++ [.readData port (off + 4) 4 (s.shown off r / 2 ^ 32)] ∧ ReadOnce s u off r ∧ u.latch = s.latch) ∧
    (∀ v < 2 ^ 32, ∃ u, exec (.splitRegisterAccess port off (some v)) s = .next u ∧ u.regs = s.regs ∧ u.out = s.out ∧
      Tbl.get 0 u.held key = v + 1 ∧ ∀ k, k ≠ key → Tbl.get 0 u.held k = Tbl.get 0 s.held k) ∧
    (∀ v < 2 ^ 32, ∀ h, Tbl.get 0 s.held key = h + 1 → exec (.splitRegisterAccess port (off + 4) (some v)) s =
      paidNext s (fun s => (s.setHeld key 0).writeWhole port off r (h + v * 2 ^ 32) (2 ^ 64 - 1) 8)) ∧
    (∀ v < 2 ^ 32, Tbl.get 0 s.held key = 0 → exec (.splitRegisterAccess port (off + 4) (some v)) s =
      paidNext s (fun s => s.writeWhole port off r (v * 2 ^ 32) (ones 63 32) 4)) ∧
    (∃ u, exec (.rcRegisterRead port off 8) s = .next u ∧ u.out = s.out ++ [.readData port off 8 (s.shown off r)] ∧ ReadOnce s u off r ∧
      Tbl.get 0 u.latch key = 0 ∧ Tbl.get 0 u.held key = 0) ∧
    (∀ v < 2 ^ 64, exec (.registerWrite port off 8 v) s = paidNext s (fun s => (s.whole64 port off).writeWhole port off r v (2 ^ 64 - 1) 8)) ∧
    Tbl.get 0 (s.whole64 port off).held key = 0 ∧ Tbl.get 0 (s.whole64 port off).latch key = 0

/-- Registers are 32 or 64 bits wide and aligned. A host access to BAR0 that is not 32 or 64 bits, not aligned or across a register boundary is
answered with all ones, or discarded with BAR_ACCESS_ERROR (class 0x0109, from the port, to the package's ring) (R11). Where no register lies a
read answers 0 and a write is discarded with the record; with STAGE 0xF only GLB_ID and the NIB registers answer (R440, R479). -/
def Obligations.AccessesThatReachNoRegister : Prop :=
  (∀ off r, regRow? off = some r → (r.width = 32 ∨ r.width = 64) ∧ off % (r.width / 8) = 0) ∧
  (∀ (s : State) port off size data, s.barError port off size data =
    s.blot { cls := 0x0109, src := ⟨6, port⟩, addr := off, detail := [(size, 1), (1, 1), (data, 8)] } [ringG]) ∧
  (∀ s port off size, s.alive = true → Instr.wf (.rcRegisterRead port off size) = true →
    (s.stage = 15 ∧ nibOffset off = false) ∨ (size ≠ 4 ∧ size ≠ 8) ∨ off % size ≠ 0 ∨ (size = 8 ∧ ∃ r, regRow? off = some r ∧ r.width ≠ 64) ∨
      (size = 8 ∧ regRow? off = none ∧ ∃ r, regRow? (off + 4) = some r) →
    exec (.rcRegisterRead port off size) s = .next (s.emit (.readData port off size (2 ^ (8 * size) - 1)))) ∧
  (∀ s port off size value, s.alive = true → Settled s → Instr.wf (.registerWrite port off size value) = true → s.stage ≠ 15 ∨ nibOffset off = true →
    (size ≠ 4 ∧ size ≠ 8) ∨ off % size ≠ 0 ∨ (size = 8 ∧ ∃ r, regRow? off = some r ∧ r.width ≠ 64) ∨
      (regRow? off = none ∧ (size = 8 ∨ off % 8 = 0 ∨ regRow? (off - 4) = none ∨ ∃ r, regRow? (off - 4) = some r ∧ r.width ≠ 64)) →
    exec (.registerWrite port off size value) s = .next { s.barError port off size (value % 2 ^ (8 * size)) with pending := s.pending }) ∧
  (∀ s port off, s.alive = true → Instr.wf (.rcRegisterRead port off 4) = true → s.stage ≠ 15 ∨ nibOffset off = true → off % 4 = 0 →
    regRow? off = none → off % 8 = 0 ∨ regRow? (off - 4) = none ∨ (∃ r, regRow? (off - 4) = some r ∧ r.width ≠ 64) →
    exec (.rcRegisterRead port off 4) s = .next (s.emit (.readData port off 4 0))) ∧
  (∀ s port off size value, s.alive = true → Settled s → Instr.wf (.registerWrite port off size value) = true → s.stage = 15 → nibOffset off = false →
    exec (.registerWrite port off size value) s = .next s)

/-- A write that carries no reserved encoding to a register with no action of its own sets its RW bits, clears the RW1C bits written as 1
and leaves every other bit and every other register as it was (R9, R10); a reserved encoding leaves all as it was, with the record; a read
of an RC register answers its value and clears it (R9, R14); the two registers of an IPv6 address take effect together (R482). -/
def Obligations.PlainRegisterAccess : Prop :=
  (∀ s port off value r, s.alive = true → Settled s → Instr.wf (.registerWrite port off (r.width / 8) value) = true → s.stage ≠ 15 ∨ nibOffset off = true →
    regRow? off = some r → (r.width = 32 ∨ r.width = 64) → off % (r.width / 8) = 0 → value < 2 ^ r.width →
    ip6First off = false → ip6Second off = false → (off < 0x400110 ∨ 0x4001F0 ≤ off) → off ≠ 0x400308 → off ≠ 0x400310 → s.writeBarred off = false →
    let whole := if r.rw = 0 then value else blend (s.reg off) value (2 ^ r.width - 1)
    (reservedValue off whole = true → exec (.registerWrite port off (r.width / 8) value) s =
      .next { (if r.width = 64 then s.whole64 port off else s).barError port off (r.width / 8) value with pending := s.pending }) ∧
    (reservedValue off whole = false → ((if r.width = 64 then s.whole64 port off else s).writeSpecial port off whole).isNone = true →
      ∃ u, exec (.registerWrite port off (r.width / 8) value) s = .next u ∧ (∀ k, k ≠ off → u.reg k = s.reg k) ∧ u.mem = s.mem ∧ u.out = s.out ∧
        u.tiles = s.tiles ∧ ∀ i < 64, bit (u.reg off) i = ((if bit r.rw i && decide (i < r.width) then bit value i else bit (s.reg off) i) &&
          !(bit value i && decide (i < r.width) && bit r.w1c i)))) ∧
  (∀ s port off r, s.alive = true → Instr.wf (.rcRegisterRead port off (r.width / 8)) = true → s.stage ≠ 15 ∨ nibOffset off = true →
    regRow? off = some r → (r.width = 32 ∨ r.width = 64) → off % (r.width / 8) = 0 →
    ∃ u, exec (.rcRegisterRead port off (r.width / 8)) s = .next u ∧ u.out = s.out ++ [.readData port off (r.width / 8) (s.shown off r)] ∧
      ReadOnce s u off r ∧ u.mem = s.mem) ∧
  (∀ s port off r v, s.Has64 port off r → v < 2 ^ 64 →
    (ip6First off = true → ∃ u, exec (.registerWrite port off 8 v) s = .next u ∧ u.regs = s.regs ∧ Tbl.get 0 u.held (ip6Key port off) = v + 1) ∧
    (∀ h < 2 ^ 64, ip6Second off = true → Tbl.get 0 s.held (ip6Key port (off - 8)) = h + 1 →
      ∃ u, exec (.registerWrite port off 8 v) s = .next u ∧ u.reg (off - 8) = h ∧ u.reg off = v ∧ Tbl.get 0 u.held (ip6Key port (off - 8)) = 0 ∧
        ∀ k, k ≠ off → k ≠ off - 8 → u.reg k = s.reg k))

namespace Sys2Proof.Machine

/-- A folio operation `o` has ended from `s` to `u`: OP and ERROR show it, and its command, if one began it and it is still in progress, fences with
its status: OK, or INVALID_CMD, DETAIL 8 with the error (R64, Table 3.18, Table 16.10). -/
def FolioOver (s u : State) (o : FolioOp) (err : Nat) : Prop :=
  u.folio.op = none ∧ u.field 0x20000 23 16 = err ∧ u.field 0x20000 15 12 = o.op ∧
  (o.slot = none → (s.cmd o.cid).st = .running → (s.cmd o.cid).part = none → (u.cmd o.cid).st = .fencing ∧
    (u.cmd o.cid).cause = if err = 0 then (s.cmd o.cid).cause else (s.cmd o.cid).cause.or (some (8, 8 + 256 * err)))

end Sys2Proof.Machine

/-- A folio operation begins with its administration command, one that arrives while another runs ends with INVALID_CMD and changes nothing of it
(R64, R71). A staged folio is validated in the order of the checks of chapter 3: the first that fails ends the operation with its code, one that
passes quiesces the package or its partition, or names the units to retire (R60, R64-R66, R70); a patch of an OFFLINE partition fails (R73, log
entry 206).  Its bytes are the SIZE that its operation gave (R64). -/
def Obligations.FolioBeginAndValidation : Prop :=
  (
  (∀ (i : Instr) code op s c, (i, code, op) ∈ [(Instr.folioLoad, 0x45, 1), (.partReconf, 0x46, 2), (.folioRepair, 0x47, 3)] →
    s.alive = true → s.admin code = some c → s.adminOpen code = true → hvOk (fieldOf (s.cmd c).entry 8 8) = true →
    (s.folio.op = none → ∃ u, exec i s = .next u ∧ (u.cmd c).st = .running ∧ u.regs = s.regs ∧ u.mem = s.mem ∧ u.tiles = s.tiles ∧
      ∃ o, u.folio = { s.folio with op := some o } ∧ o.op = op ∧ o.phase = 0 ∧ o.cid = c ∧ o.addr = fieldOf (s.cmd c).entry 8 8 ∧
        o.size = fieldOf (s.cmd c).entry 16 8 ∧ o.start = s.time ∧ o.slot = none) ∧
    (s.folio.op ≠ none → ∃ u, exec i s = .next u ∧ u.folio = s.folio ∧ (u.cmd c).st = .fencing ∧
      (u.cmd c).cause = (s.cmd c).cause.or (some (8, 8 + 256 * s.field 0x20000 23 16)))) ∧
  (∀ s c, s.alive = true → s.admin 0x48 = some c → s.folio.op = none → s.stage = 6 → s.field 0x800014 2 0 < 2 → s.folio.full ≠ [] →
    s.pkgState ≠ 0 → s.pkgState ≠ 3 → ∃ u, exec .folioCommit s = .next u ∧ (u.cmd c).st = .running ∧ u.flash = s.flash ∧ u.regs = s.regs ∧
      ∃ o, u.folio = { s.folio with op := some o } ∧ o.op = 4 ∧ o.phase = 2 ∧ o.cid = c ∧ o.start = s.time)) ∧
  (
  ∀ s o, s.alive = true → s.folio.op = some o → o.phase = 0 → o.op = 1 ∨ o.op = 2 ∨ o.op = 3 → o.slot = none →
    let need := min o.size 268435457
    (∃ u, exec (.folioFetchDone none) s = .next u ∧ FolioOver s u o 0xF ∧ u.folio.active = s.folio.active ∧ u.folio.full = s.folio.full) ∧
    (∀ b, b.length < need → exec (.folioFetchDone (some b)) s = .next s) ∧
    (∀ b e, need ≤ b.length → s.folioCheck o.op (b.take need) = .error e → ∃ u, exec (.folioFetchDone (some b)) s = .next u ∧ FolioOver s u o e ∧
      u.folio.active = s.folio.active ∧ u.folio.full = s.folio.full) ∧
    (∀ b cfg, need ≤ b.length → s.folioCheck o.op (b.take need) = .ok cfg →
      let f := b.take need
      ∃ u, exec (.folioFetchDone (some b)) s = .next u ∧ ((∀ c ∈ s.cids, (s.cmd c).holds = []) → u.mem = s.mem) ∧
      (o.op = 1 → u.pkgState = 2 ∧ (∀ p ∈ s.parts, u.partState p = 2) ∧ ∃ v, u.folio = { s.folio with op := some v } ∧ v.phase = 1 ∧
        v.config = cfg ∧ v.image = f ∧ v.cid = o.cid) ∧
      (o.op = 2 → s.partState (folioTarget f) ≠ 4 → u.partState (folioTarget f) = (if s.serving (folioTarget f) then 2 else 3) ∧
        ∃ v, u.folio = { s.folio with op := some v } ∧
        v.phase = (if s.serving (folioTarget f) then 1 else 2) ∧ v.config = cfg ∧ v.part = folioTarget f ∧ v.since = s.time) ∧
      (o.op = 2 → s.partState (folioTarget f) = 4 → FolioOver s u o 0xE ∧ u.folio.active = s.folio.active) ∧
      (o.op = 3 → ∀ r ∈ recsOf cfg secRetire, (folioRecs f).any (fun a => a.2 == r) = true →
        u.retired (r.f 0 1) (r.f 2 2) = true ∨ (r.f 0 1, r.f 2 2, r.f 4 4) ∈ u.flt.retiring)))

/-- A full load: when every command has left the package programs; then the folio is in force, measured and recorded, and every partition it
defines serves, or the package is SAFE where it may not; a failure applies the previous folio again or leaves the package SAFE; released
memory becomes zero (R65, R68, R72, R444). Where the host must first release a directory entry of a migration, the load waits for it (log
entry 196). -/
def Obligations.FullLoad : Prop :=
  (∀ s o, s.alive = true → s.folio.op = some o → o.op = 1 → o.phase = 1 → (∀ c ∈ s.cids, c / 2 ^ 23 = 0) →
    ∃ u, exec .folioQuiesceDone s = .next u ∧ u.folio = { s.folio with op := some { o with phase := 2 } } ∧ ∀ p ∈ s.parts, u.partState p = 3) ∧
  (∀ s o, s.alive = true → Settled s → s.clearUnits.host.needs = [] → s.folio.op = some o → o.op = 1 → o.phase = 2 → o.slot = none → o.fail = false →
    ∃ u, exec .folioProgramDone s = .next u ∧ FolioOver s u o 0 ∧ u.folio.active = o.config ∧ u.folio.full = o.image ∧ u.folio.patches = [] ∧
      u.reg 0x20008 = folioSerial o.image % 2 ^ 64 ∧ bit (u.reg 0x20000) 0 = true ∧
      (s.nib.down = false → ∀ p < 16,
        u.partState p = (if (cfgPart o.config p).isNone then 0
          else if s.nib.fatal.isEmpty && (bit (s.reg 0x800000) 6 || bit ((cfgPackage o.config).f 0 4) 1) then 1 else 4)) ∧
      u.pkgState = (if s.nib.fatal.isEmpty && (bit (s.reg 0x800000) 6 || bit ((cfgPackage o.config).f 0 4) 1) then 1 else 3)) ∧
  (∀ s o rb, s.alive = true → Settled s → s.clearUnits.host.needs = [] → s.folio.op = some o → o.op = 1 → o.phase = 2 →
    (o.slot = none → ∃ u, exec (.folioApplyFail rb) s = .next u ∧ FolioOver s u o 0xE ∧ u.folio.active = (if rb then [] else s.folio.active) ∧
      u.folio.full = (if rb then [] else s.folio.full) ∧ (rb = true → u.pkgState = 3 ∧ u.reg 0x20008 = 0 ∧ ∀ p < 16, u.partState p = 0)) ∧
    (∀ k, o.slot = some k → s.flash.committed = some k → rb = true →
      ∃ u, exec (.folioApplyFail rb) s = .next u ∧ u.folio = { s.folio with op := none } ∧ u.field 0x20000 15 12 = 1) ∧
    (∀ k v x, o.slot = some k → s.flash.committed = some k → rb = false →
      ({ s with folio := { s.folio with op := none } }.folioStatus 1 0xE).slotOp (1 - k) = .ok (v, x) →
      ∃ u, exec (.folioApplyFail rb) s = .next u ∧ u.folio = { s.folio with op := some x } ∧ u.field 0x20000 23 16 = 0xE)) ∧
  (∀ s base n, s.alive = true → s.folio.zeroing.find? (fun z => z.1 == base) = some (base, n) →
    ∃ u, exec (.zeroingComplete base) s = .next u ∧ u.folio.zeroing = s.folio.zeroing.erase (base, n) ∧
      ∀ a, memByte u.mem a = if base ≤ a ∧ a < base + n then 0 else memByte s.mem a)

/-- One partition reconfigured, and units retired: draining gives way to ABORT at its limit; the partition quiesced is RECONFIGURING; the patch
in force is counted and timed and the partition serves again; a failure restores it or leaves it OFFLINE; a named unit retires once idle;
a commit that reads back marks its slot (R66, R69-R71, R73). -/
def Obligations.ReconfigureRetireCommit : Prop :=
  (∀ s o, s.alive = true → s.folio.op = some o → o.op = 2 → o.phase = 1 → o.mode = 0 → o.since + 1000 * o.limitUs ≤ s.time →
    ∃ u, exec .drainLimitExpiry s = .next u ∧ u.folio = { s.folio with op := some { o with mode := 1 } } ∧
      ∀ c ∈ s.partCmds o.part, Live s c → ((s.cmd c).begun = true → (u.cmd c).cause = (s.cmd c).cause.or (some (1, 2))) ∧
        ((s.cmd c).begun = false → (u.cmd c).st = .fetched)) ∧
  (∀ s o, s.alive = true → s.folio.op = some o → o.op = 2 → o.phase = 1 → o.part < 16 → s.partQuiet o.part (o.mode == 0) = true →
    ∃ u, exec .partitionQuiesced s = .next u ∧ u.folio = { s.folio with op := some { o with phase := 2 } } ∧ u.partState o.part = 3) ∧
  (∀ s o, s.alive = true → s.folio.op = some o → o.op = 2 → o.phase = 2 → o.slot = none → o.part < 16 →
    (o.fail = false → ∃ u, exec .reconfApplyDone s = .next u ∧ FolioOver s u o 0 ∧ u.folio.active = o.config ∧
      u.folio.patches = s.folio.patches ++ [o.image] ∧ u.reg (0x20108 + 0x20 * o.part) = min (s.reg (0x20108 + 0x20 * o.part) + 1) (2 ^ 32 - 1) ∧
      u.reg (0x20110 + 0x20 * o.part) = (s.time - o.start) % 2 ^ 64 ∧
      (s.nib.down = false → u.partState o.part = if (cfgPart o.config o.part).isSome then 1 else 0)) ∧
    (∀ rf, ∃ u, exec (.reconfApplyFail rf) s = .next u ∧ FolioOver s u o 0xE ∧ u.folio.active = s.folio.active ∧
      (rf = true → u.partState o.part = 4) ∧ (rf = false → s.nib.down = false → u.partState o.part = if (cfgPart s.folio.active o.part).isSome then 1 else 0))) ∧
  (∀ s unit num cause, s.alive = true → Instr.wf (.unitRetire unit num) = true →
    s.flt.retiring.find? (fun x => x.1 == unit && x.2.1 == num) = some (unit, num, cause) →
    (s.unitIdle unit num = true → ∃ u, exec (.unitRetire unit num) s = .next u ∧ u.retired unit num = true ∧ (unit, num, cause) ∉ u.flt.retiring) ∧
    (s.unitIdle unit num = false → exec (.unitRetire unit num) s = .next s)) ∧
  (∀ s o, s.alive = true → s.folio.op = some o → o.op = 4 → o.slot = none →
    (∃ u, exec (.folioCommitWritten false) s = .next u ∧ FolioOver s u o 0xE ∧ u.flash = s.flash) ∧
    (let k := match s.flash.committed with | some c => 1 - c | none => 0
     ∃ u, exec (.folioCommitWritten true) s = .next u ∧ FolioOver s u o 0 ∧ u.flash.committed = some k ∧ bit (u.reg 0x20000) 0 = false ∧
       ∃ t3, u.flash.slots = s.flash.slots.set k { full := s.folio.full, patches := s.folio.patches, t3 := t3 }))

namespace Sys2Proof.Machine

/-- `n` bytes at device address `a` lie in one sector of device memory that takes a write at once: mapped, no host copy, not in host bias,
waiting for no host and no zeroing, not on a retired page (R68, R281, R290, R304, R305). -/
def State.PlainBytes (s : State) (a n : Nat) : Prop :=
  a % 64 + n ≤ 64 ∧ ∃ x, (∀ i < n, s.phys (a + i) = some (x + i)) ∧ tierOf x ≠ 3 ∧ s.hostFirst x = false ∧ s.biHeld x = false ∧
    s.unzeroed (x / 64 * 64) 64 = false ∧ s.pageRetired x = false

/-- The entries of a request read into `body`, `size` bytes each. -/
def reqEntries (size n : Nat) (body : List Nat) : List (List Nat) := (upto n).map (fun i => (body.drop (size * i)).take size)

/-- A queue's request is read for command `cid` by unit `w`: its header `hd`, its `n` entries' bytes `body`, and the state then. -/
def State.RequestRead (s : State) (cid : Nat) (w : UnitId) (host : HostView) (a size n : Nat) (hd body : List Nat) (b : State) : Prop :=
  ∃ h, (s.updCmd cid (fun c => { c with st := .running })).unitRead cid w host a 64 = (h, .ok hd) ∧ fieldOf hd 0 2 = n ∧
    h.unitRead cid w host (a + 64) (size * n) = (b, .ok body)

/-- A partial pool joined by one occurrence, at place `pos` of its bag and with weight `w`, of a row of values `vals` (R205, R208). -/
def pooled (mode : Nat) (q : TePool) (vals : List NumVal) (w pos : Nat) : TePool :=
  let ts := poolTerms vals (if mode = 3 then some w else none)
  let q := { q with nan := noteNan pos q.nan ts }
  if mode = 2 then { q with mx := if q.mx.isEmpty then vals.map f32 else (q.mx.zip vals).map (fun y => f32 (numMinMax true (decodeNum 1 y.1) y.2)) }
  else { q with bank := (q.bank.addGroup 1 ts).bank }

/-- The partial pool of a bag at an engine; an empty one where there is none. -/
def TePass.pool (p : TePass) (eng bag : Nat) : TePool :=
  (p.pools.find? (fun z => z.eng == eng && z.bag == bag)).getD { eng := eng, bag := bag }

/-- Row `j`, `x`, of pass `i`, `p`, of the lookup `cid` on table `r` may be fetched, and has one use: in `bag`, of weight `w`, at place `pos`; no
row of another device waits for its turn. -/
def State.RowOpen (s : State) (cid i j : Nat) (p : TePass) (x : TeRow) (r : Rec) (bag w pos : Nat) : Prop :=
  s.tePass cid i = some p ∧ p.rows[j]? = some x ∧ cfgTable s.folio.active (peTable p.entry) = some r ∧ p.started = true ∧ p.done = false ∧
  p.openRow j = true ∧ x.occ = [(bag, w, pos)] ∧ ∀ y ∈ p.rows, y.remote = none ∨ y.st ≠ .waiting

end Sys2Proof.Machine

/-- Lookups (R193, R195, R201-R209): a request of sound entries becomes its passes; a row, or the zero row for an index with no place, is pooled;
a pass whose rows are done is written and ends, the last with its command; a map discarded is read again by the passes that start then; a sweep
halves every count. State `a` is that in which the command's traffic is admitted (log entry 196). -/
def Obligations.LookupRequests : Prop :=
  (∀ s a q host cid n hd body b w, s.alive = true → q < 4096 → Ready s host.ecc (fun s => s.doLookup q none host) a →
    a.startable q 2 = some cid → a.noEngines = false → aligned (a.cmd cid).reqAddr 64 = true → a.readerTe cid = some w →
    a.RequestRead cid w host (a.cmd cid).reqAddr 64 n hd body b → 1 ≤ n → n ≤ 1024 → fieldOf hd 2 1 < 8 → zeroBytes hd 3 64 = true →
    (reqEntries 64 n body).all (b.passOk ((a.cmd cid).part.getD 0)) = true →
    ∃ u, exec (.lookup q none host) s = .next u ∧ (((u.teCmd cid).passes.map (·.entry) = reqEntries 64 n body ∧ (u.teCmd cid).die = fieldOf hd 2 1 ∧
      (u.teCmd cid).launch = false) ∨ (u.cmd cid).cause ≠ none)) ∧
  (∀ s a q seq i j ecc p x r bag w pos, s.alive = true → q < 4096 → seq < 2 ^ 23 → Ready s ecc (fun s => s.doRowFetchComplete q seq i j) a →
    a.RowOpen (cidOf q seq) i j p x r bag w pos → x.dflt = true → tDefault r = false →
    ∃ u, exec (.rowFetchComplete q seq i j ecc) s = .next u ∧ u.mem = a.mem ∧ ∃ v, u.tePass (cidOf q seq) i = some v ∧
      (v.rows[j]?).map (·.st) = some .done ∧
      v.pools.head? = some (pooled (peMode p.entry) (p.pool x.eng bag) (List.replicate (tWidth r) NumVal.zero) w pos) ∧
      u.reg (tabKey 0x30 (tId r)) = min (a.reg (tabKey 0x30 (tId r)) + 1) (2 ^ 32 - 1)) ∧
  (∀ s a q seq i j ecc p x r bag w pos m es e v d, s.alive = true → q < 4096 → seq < 2 ^ 23 →
    Ready s ecc (fun s => s.doRowFetchComplete q seq i j) a → a.RowOpen (cidOf q seq) i j p x r bag w pos → x.dflt = false → x.remote = none →
    (tMixed r = false ∨ x.st ≠ .waiting) → a.tableMap x.eng r p.gen = (m, some (some es)) → p.ent r es x.die = some e →
    let at' := if tMixed r then rowAt r e (dirPool x.entry) (dirSlot x.entry) else rowAt r e 0 x.row
    m.rowRead (cidOf q seq) x.eng r true (!tNoHot r) ((m.phys at'.2).getD 0) (rowBytes at'.1 (tWidth r)) = (v, .ok d) →
    (p.firstMet j = false ∨ (tCount r && bit (v.reg 0x200000) 1) = false) → v.tePass (cidOf q seq) i = some p →
    ∃ u, exec (.rowFetchComplete q seq i j ecc) s = .next u ∧ u.mem = v.mem ∧ ∃ z, u.tePass (cidOf q seq) i = some z ∧
      (z.rows[j]?).map (·.st) = some .done ∧
      z.pools.head? = some (pooled (peMode p.entry) (p.pool x.eng bag) (widenRow (r.f 28 1) at'.1 (tWidth r) d).1 w pos)) ∧
  (∀ s a q seq i host p r v d, s.alive = true → q < 4096 → seq < 2 ^ 23 → Ready s host.ecc (fun s => s.doPassComplete q seq i host) a →
    a.tePass (cidOf q seq) i = some p → cfgTable a.folio.active (peTable p.entry) = some r → p.started = true → p.done = false →
    p.rows.all (fun x => x.st == .done) = true →
    a.writeBags (cidOf q seq) host p (tWidth r) (upto (peBags p.entry)) = (v, .ok d) → v.teCmd (cidOf q seq) = a.teCmd (cidOf q seq) →
    let last : Bool := ((a.teCmd (cidOf q seq)).passes.zipIdx).all (fun z => z.2 == i || z.1.done)
    ∃ u, exec (.passComplete q seq i host) s = .next u ∧ u.mem = v.mem ∧
      (last = false → (u.tePass (cidOf q seq) i).map (·.done) = some true) ∧
      (last = true → (a.teCmd (cidOf q seq)).launch = true → (u.cmd (cidOf q seq)).look = true ∧ u.teCmd (cidOf q seq) = {}) ∧
      (last = true → (a.teCmd (cidOf q seq)).launch = false → Live v (cidOf q seq) → (u.cmd (cidOf q seq)).st = .fencing ∧
        (u.cmd (cidOf q seq)).cause = (v.cmd (cidOf q seq)).cause)) ∧
  (∀ s port value, s.alive = true → Instr.wf (.teMapInvalWrite port value) = true → s.regsOpen = true →
    ∃ u, exec (.teMapInvalWrite port value) s = .next u ∧ u.mem = s.mem ∧ u.regs = s.regs ∧ u.units.mapGen = s.units.mapGen + 1 ∧
      (∀ m ∈ u.units.maps, (bit value 16 = true ∨ m.table = bits value 15 0) →
        ∃ g, m.upto = some g ∧ (g = u.units.mapGen ∨ m ∈ s.units.maps)) ∧
      (∀ m, bit value 16 = false → m.table ≠ bits value 15 0 → (m ∈ u.units.maps ↔ m ∈ s.units.maps)) ∧
      (∀ m ∈ s.units.maps, ∀ g ≤ s.units.mapGen, m.serves g = true → ∃ m' ∈ u.units.maps, m'.eng = m.eng ∧ m'.table = m.table ∧
        m'.ents = m.ents ∧ m'.serves g = true)) ∧
  (∀ s die table r es e, s.alive = true → Settled s → die < 8 → table < 65536 → cfgTable s.folio.active table = some r → bit (s.reg 0x200000) 0 = true →
    tCount r = true → r.f 56 4 ≠ 0 → s.readMap r = some (some es) → es.filter (fun e => e.die == die) = [e] →
    (∀ l < tLocalRows r die, s.PlainBytes (e.count + 2 * l) 2) →
    (∀ l < tLocalRows r die, ∀ k < tLocalRows r die, l ≠ k → s.phys (e.count + 2 * l) ≠ s.phys (e.count + 2 * k) ∧
      s.phys (e.count + 2 * l) ≠ s.phys (e.count + 2 * k + 1) ∧ s.phys (e.count + 2 * l + 1) ≠ s.phys (e.count + 2 * k + 1)) →
    ∃ u, exec (.agingSweep die table) s = .next u ∧ ∀ l < tLocalRows r die, u.numDP (e.count + 2 * l) 2 = s.numDP (e.count + 2 * l) 2 / 2)

namespace Sys2Proof.Machine

/-- What a step advance leaves in CUR of a record: the stores of commands fetched later than the command that advances it, or empty (R147). -/
def curLeft (late : List CurNote) : Nat := if late.isEmpty then 255 else late.foldl (fun m n => max m n.val) 0

end Sys2Proof.Machine

/-- Updates (R217, R224-R229, R147): a request of sound entries becomes its passes; a row is read, its optimizer computed, and the row, its
replicas and its state written, as one action; a step advance pushes each record's exponent into its history; a flip makes the other copy
live and takes the dirty log for the catch-up. State `a` is that in which the command's traffic is admitted (log entry 196). -/
def Obligations.UpdateRequests : Prop :=
  (∀ s a q host cid n hd body b w, s.alive = true → q < 4096 → Ready s host.ecc (fun s => s.doUpdate q none host) a →
    a.startable q 3 = some cid → a.noEngines = false → aligned (a.cmd cid).reqAddr 64 = true → a.readerTe cid = some w →
    a.RequestRead cid w host (a.cmd cid).reqAddr 64 n hd body b → 1 ≤ n → n ≤ 1024 → fieldOf hd 2 1 < 8 → zeroBytes hd 3 8 = true →
    zeroBytes hd 16 64 = true → (reqEntries 64 n body).all (b.updEntryOk ((a.cmd cid).part.getD 0)) = true →
    (∀ e ∈ reqEntries 64 n body, b.stray ((a.cmd cid).part.getD 0) (fieldOf e 48 4) = false ∧
      ∃ m, b.readStateMap ((a.cmd cid).part.getD 0) (fieldOf e 48 4) = some m ∧ fieldOf m 0 1 = ueOpt e) →
    ∃ u, exec (.update q none host) s = .next u ∧ (((u.updOf cid).passes.map (·.entry) = reqEntries 64 n body ∧ (u.updOf cid).die = fieldOf hd 2 1 ∧
      (u.updOf cid).seed = fieldOf hd 8 8) ∨ (u.cmd cid).st = .fencing ∨ (u.cmd cid).cause ≠ none)) ∧
  (∀ s s0 q seq i j ecc opt c p x r m es e cls a st b d rm ms mb rv vs vb rowW reps mw vw,
    (opt, c) ∈ [(0, Instr.sgd q seq i j ecc), (1, .rwAdagrad q seq i j ecc), (2, .adam q seq i j ecc)] →
    s.alive = true → q < 4096 → seq < 2 ^ 23 → Ready s ecc (fun s => s.updRow (cidOf q seq) i j opt) s0 →
    let cid := cidOf q seq
    let w := tWidth r
    let g := smGroup p.smap
    let en := smEntry p.smap (((stateDies r).find? (· == x.die)).getD (((stateDies r).head?).getD 0))
    let mp := planePitch opt (smM p.smap) w
    let vp := planePitch opt (smV p.smap) w
    let mo := planeVals (smM p.smap) g (if opt = 2 then w else 0) mb ms
    let vo := planeVals (smV p.smap) g (if opt = 2 then w else opt) vb vs
    let o := optimize opt p.hyper x.g (widenRow (r.f 28 1) cls w d).1 mo vo
    let seed := if bit (ueCtrl p.entry) 2 then some (s0.updOf cid).seed else none
    (s0.updOf cid).passes[i]? = some p → p.rows[j]? = some x → cfgTable s0.folio.active (peTable p.entry) = some r → p.st = .running → x.done = false →
    ueOpt p.entry = opt → s0.halted x.die = false → (tVersioned r = true → s0.oldPasses (tId r) = false) →
    s0.tableMap x.eng r p.gen = (m, some (some es)) → entOf es x.die (m.shadowCopy r) = some e → m.rowPlace r e x.row = some (cls, a, st) → st ≠ 0 →
    (m.catchUp r es x.die x.row).physRead cid ⟨1, x.die⟩ (((m.catchUp r es x.die x.row).phys a).getD 0) (rowBytes cls w) = (b, .ok d) →
    b.planeRead cid ⟨1, x.die⟩ (smM p.smap) g (fieldOf en 8 8) (fieldOf en 16 8) mp w x.row false = (rm, mb, ms, .ok []) →
    rm.planeRead cid ⟨1, x.die⟩ (smV p.smap) g (fieldOf en 24 8) (fieldOf en 32 8) vp w x.row (opt == 1) = (rv, vb, vs, .ok []) →
    (rv.raiseCmd cid ((widenRow (r.f 28 1) cls w d).2 ||| o.2.2.2)).putRow cid r e x.row o.1 true = (rowW, true) →
    (if tPlace r = 0 then (tDies r).filter (· != x.die) else []).foldl (fun (y : State × Bool) d2 =>
      if !y.2 then y else match entOf es d2 (y.1.shadowCopy r) with
        | some e2 => (y.1.catchUp r es d2 x.row).putRow cid r e2 x.row o.1 false
        | none => y) (rowW, true) = (reps, true) →
    reps.planeWrite cid ⟨1, x.die⟩ (smM p.smap) g (fieldOf en 8 8) (fieldOf en 16 8) mp w x.row (fieldOf p.smap 16 8) seed mo o.2.1 ms = (mw, true) →
    mw.planeWrite cid ⟨1, x.die⟩ (smV p.smap) g (fieldOf en 24 8) (fieldOf en 32 8) vp w x.row (fieldOf p.smap 24 8) seed vo o.2.2.1 vs = (vw, true) →
    ∃ u, exec c s = .next u ∧ u.mem = vw.mem ∧ u.reg (tabKey 0x40 (tId r)) = min (vw.reg (tabKey 0x40 (tId r)) + 1) (2 ^ 64 - 1)) ∧
  (∀ s q seq i p rec, s.alive = true → Settled s → q < 4096 → seq < 2 ^ 23 →
    (s.updOf (cidOf q seq)).passes.findIdx? (fun p => p.st == .advance) = some i →
    (s.updOf (cidOf q seq)).passes[i]? = some p → s.storesBefore (cidOf q seq) = false → smRecs p.smap = [rec, 0, 0] → rec ≠ 0 → s.PlainBytes rec 32 →
    let late := s.units.curs.filter (fun n => n.record == rec && s.laterNote (cidOf q seq) n)
    ∃ u, exec (.stepAdvance q seq) s = .next u ∧
      (late = [] → u.numDP (rec + s.numDP (rec + 16) 1 % 16) 1 = s.numDP (rec + 24) 1) ∧
      u.numDP (rec + 16) 1 = (s.numDP (rec + 16) 1 % 16 + 1) % 16 ∧ u.numDP (rec + 24) 1 = curLeft late % 256 ∧
      (bit (ueCtrl p.entry) 3 = true → ((u.updOf (cidOf q seq)).passes[i]?).map (·.st) = some .flip)) ∧
  (∀ s q seq i p r, s.alive = true → q < 4096 → seq < 2 ^ 23 → (s.updOf (cidOf q seq)).passes[i]? = some p → p.st = .flip →
    let t := peTable p.entry
    (s.tab t).catching = false → cfgTable s.folio.active t = some r → bit (r.f 31 1) 0 = true →
    ∃ u, exec (.epochFlip q seq i) s = .next u ∧ (u.tab t).epoch = ((s.tab t).epoch + 1) % 2 ^ 32 ∧ (u.tab t).catching = true ∧ (u.tab t).dirty = [] ∧
      (u.tab t).copy = (s.tab t).dirty.filter (fun d => !(s.tab t).ovf.contains d.1) ∧ (u.tab t).copyAll = (s.tab t).ovf ∧ u.mem = s.mem ∧
      u.epochShown t = ((s.tab t).epoch + 1) % 2 ^ 32) ∧
  (∀ s t, s.alive = true → t < 65536 → (s.tab t).catching = true → s.oldPasses t = false →
    ∃ u, exec (.epochCatchupStart t) s = .next u ∧ (u.tab t).copying = true ∧ u.mem = s.mem) ∧
  (∀ s s0 t r es d l x y a b, s.alive = true → t < 65536 → Ready s [] (fun s => s.doEpochCatchupComplete t) s0 →
    (s0.tab t).catching = true → (s0.tab t).copying = true → cfgTable s0.folio.active t = some r →
    s0.readMap r = some (some es) → (s0.tab t).copyAll = [] →
    ((s0.tab t).copy = [] → ∃ u, exec (.epochCatchupComplete t) s = .next u ∧ (u.tab t).catching = false ∧ u.mem = s0.mem) ∧
    ((s0.tab t).copy = [(d, l)] → entOf es d ((s0.tab (tId r)).epoch % 2) = some x → entOf es d (s0.shadowCopy r) = some y →
      s0.rowPlace r x l = some a → s0.rowPlace r y l = some b → a.2.2 ≠ 0 → b.2.2 ≠ 0 →
      ∃ u, exec (.epochCatchupComplete t) s = .next u ∧ (u.tab t).catching = false ∧ (u.tab t).copy = [] ∧
        u.mem = ((s0.devPut none b.2.1 (s0.readDP a.2.1 (rowBytes a.1 (tWidth r)))).1).mem))

/-- A row moves to a slot of another class through the states of its directory entry: taken with the old place MIGRATING, its new slot filled;
FLIPPED to the new place; PRESENT there once no reader is left, or back at the old place when 20 µs have passed (R230-R232). State `a` is that in
which the host has released what the nib writes (log entry 196). -/
def Obligations.RowMigration : Prop :=
  (∀ s a die table row slot r e p, s.alive = true → die < 8 → table < 65536 → Ready s [] (fun s => s.doMigrationTake die table row slot) a →
    (die, table, row) ∈ a.units.offers → a.nibShard table die = some (r, e) →
    let v := a.numDP (e.dir + 8 * row) 8
    let old := rowAt r e (dirPool v) (dirSlot v)
    let cls := classFor r (a.numDP (e.count + 2 * row) 2)
    let gone : State := { a with units := { a.units with offers := a.units.offers.filter (· != (die, table, row)) } }
    let moved := (gone.dirPut e row 2 (dirPool v) (dirSlot v)).slotFill r e p slot (widenRow (r.f 28 1) old.1 (tWidth r)
      ((gone.dirPut e row 2 (dirPool v) (dirSlot v)).readDP old.2 (rowBytes old.1 (tWidth r)))).1
    bit (a.reg (migBase die)) 0 = true → a.migsOn die < bits (a.reg (migBase die)) 5 1 → dirBad e v = false → dirState v = 1 → old.1 ≠ cls →
    (∀ x ∈ sectorsOf ((a.phys old.2).getD 0) (rowBytes old.1 (tWidth r)), (a.sector (64 * x)).poison = false ∧ a.pageRetired (64 * x) = false) →
    ((upto e.pools.length).filter (fun k => (nth e.pools k ⟨0, 0, 0⟩).cls == cls)).find?
      (fun k => (upto (nth e.pools k ⟨0, 0, 0⟩).slots).any (fun z => a.slotUnused r e k z)) = some p → a.slotUnused r e p slot = true →
    ∃ u, exec (.migrationTake die table row slot) s = .next u ∧ u.units.offers = a.units.offers.filter (· != (die, table, row)) ∧
      u.units.migs = a.units.migs ++ [{ die := die, table := table, row := row, oldPool := dirPool v, oldSlot := dirSlot v, newPool := p, newSlot := slot,
                                        since := a.time, readers := a.entryReaders die table row }] ∧
      u.reg (migBase die + 8) = min (moved.reg (migBase die + 8) + 1) (2 ^ 64 - 1) ∧ u.mem = moved.mem) ∧
  (∀ s die table row m r e, s.alive = true → Settled s → die < 8 → table < 65536 → s.mig die table row = some m → s.nibShard table die = some (r, e) →
    s.PlainBytes (e.dir + 8 * row) 8 →
    (m.flipped = false → m.delta = [] → s.time < m.since + 20000 → ∃ u, exec (.migrationFlip die table row) s = .next u ∧
      u.numDP (e.dir + 8 * row) 8 = dirWord 3 m.newPool m.newSlot % 2 ^ 64 ∧ u.mig die table row = some { m with flipped := true, delta := [] }) ∧
    (m.flipped = false → m.since + 20000 ≤ s.time → ∃ u, exec (.migrationAbandon die table row) s = .next u ∧
      u.numDP (e.dir + 8 * row) 8 = dirWord 1 m.oldPool m.oldSlot % 2 ^ 64 ∧ u.mig die table row = none ∧
      u.reg (tabKey 0x64 table) = min (s.reg (tabKey 0x64 table) + 1) (2 ^ 32 - 1)) ∧
    (m.flipped = true → m.readers.all s.readerDone = true → ∃ u, exec (.migrationComplete die table row) s = .next u ∧
      u.numDP (e.dir + 8 * row) 8 = dirWord 1 m.newPool m.newSlot % 2 ^ 64 ∧ u.mig die table row = none ∧
      u.reg (tabKey 0x60 table) = min (s.reg (tabKey 0x60 table) + 1) (2 ^ 32 - 1))) ∧
  (∀ s a die table row m r e, s.alive = true → die < 8 → table < 65536 → Ready s [] (fun s => s.doMigrationFlip die table row) a →
    a.mig die table row = some m → a.nibShard table die = some (r, e) → m.flipped = false → m.delta ≠ [] → a.time < m.since + 20000 →
    ∃ u, exec (.migrationFlip die table row) s = .next u ∧ u.mig die table row = some { m with flipped := true, delta := [] } ∧
      u.mem = ((a.slotFill r e m.newPool m.newSlot (m.delta.map (decodeNum 1))).dirPut e row 3 m.newPool m.newSlot).mem)

/-- Memory-side reduction (R233-R237): a request of sound entries goes to the units; an element is read, changed and written back as one
action, its old value returned where asked, or held in an ordered epoch; the close applies what is held in order. Integer sums wrap and CAS
stores only on a match (Table 10.8). State `a` is that in which the command's traffic is admitted (log entry 196). -/
def Obligations.ReductionRequests : Prop :=
  (∀ s a q host cid n hd body b l es d, s.alive = true → q < 4096 → Ready s host.ecc (fun s => s.doReduce q host) a →
    a.startable q 5 = some cid → aligned (a.cmd cid).reqAddr 64 = true →
    a.RequestRead cid ⟨3, a.cmdDie cid⟩ host (a.cmd cid).reqAddr 64 n hd body b → 1 ≤ n → n ≤ 4096 → fieldOf hd 4 1 < 4 → zeroBytes hd 5 8 = true →
    zeroBytes hd 12 64 = true → (reqEntries 64 n body).all (redEntryOk (bit (fieldOf hd 4 1) 0)) = true →
    b.redLoads cid ⟨3, a.cmdDie cid⟩ host (reqEntries 64 n body) = (l, es, .ok d) →
    (∀ e ∈ es, ∀ x ∈ e.dst, l.redDstOk ((a.cmd cid).part.getD 0) (reTyp e.entry) x = true) →
    ∃ u, exec (.reduce q host) s = .next u ∧ u.mem = l.mem ∧ Tbl.get {} u.units.red cid =
      ⟨es, fieldOf hd 2 2, bit (fieldOf hd 4 1) 0, bit (fieldOf hd 4 1) 1, fieldOf hd 8 4⟩) ∧
  (∀ s s0 q seq i j host ecc op c e x v k b w, (op, c) ∈ [(0, Instr.redAdd q seq i j host ecc), (1, .redMin q seq i j host ecc),
      (2, .redMax q seq i j host ecc), (3, .redCas q seq i j host ecc)] →
    s.alive = true → q < 4096 → seq < 2 ^ 23 → Ready s (host.ecc ++ ecc) (fun s => s.redStep (cidOf q seq) i j op host) s0 →
    let cid := cidOf q seq
    let r := Tbl.get {} s0.units.red cid
    let a := nth e.dst j 0
    let typ := reTyp e.entry
    let n := redBytes typ
    let unit : UnitId := ⟨3, dieOfPhys x⟩
    let ss := if groupOf (fieldOf e.entry 3 1) = 0 || !redScaled typ then 127 else nth e.sscale (j / groupOf (fieldOf e.entry 3 1)) 127
    let done := redElem op typ (fieldOf b 0 n) (nth e.src j 0) (nth e.cmp j 0) ss k
    r.ents[i]? = some e → reOp e.entry = op → j < e.dst.length → e.done.contains j = false → s0.phys a = some x →
    s0.dpCheck (s0.queue (s0.cmd cid).queue).ctx a n true true = 0 →
    (r.ordered = true → s0.heldOn (dieOfPhys x) < 262144 → ∃ u, exec c s = .next u ∧ u.mem = s0.mem ∧
      u.units.held = s0.units.held ++ [⟨(s0.cmd cid).part.getD 0, r.epoch, r.rank, i, j, dieOfPhys x, x, op, typ, nth e.src j 0, ss,
        match dscaleAddr e a with | some y => y + 1 | none => 0⟩]) ∧
    ((r.ordered = false ∨ 262144 ≤ s0.heldOn (dieOfPhys x)) →
      ((dscaleAddr e a = none ∧ v = s0 ∧ k = 127) ∨ (∃ y, dscaleAddr e a = some y ∧ s0.unitRead cid unit host y 1 = (v, .ok [k]))) →
      v.unitSectors cid unit x n = (w, .ok b) → x % 64 + n ≤ 64 → tierOf x ≠ 3 → w.pageRetired x = false → (w.sector x).poison = false →
      ∃ z : State, (∀ y, memByte z.mem y = if x ≤ y ∧ y < x + n then BitVec.ofNat 8 (done.1 / 256 ^ (y - x)) else memByte w.mem y) ∧
        (fieldOf e.entry 40 8 = 0 → ∃ u, exec c s = .next u ∧ u.mem = z.mem) ∧
        (∀ y d, fieldOf e.entry 40 8 ≠ 0 → z.unitWrite cid unit host (fieldOf e.entry 40 8 + n * j) (natBytes n (fieldOf b 0 n)) = (y, .ok d) →
          ∃ u, exec c s = .next u ∧ u.mem = y.mem))) ∧
  (∀ old src cmp ss ds, old < 2 ^ 32 → src < 2 ^ 32 → (redElem 0 5 old src cmp ss ds).1 = (old + src) % 2 ^ 32 ∧
    signed 32 (redElem 1 5 old src cmp ss ds).1 = min (signed 32 old) (signed 32 src) ∧
    signed 32 (redElem 2 5 old src cmp ss ds).1 = max (signed 32 old) (signed 32 src) ∧
    (redElem 3 5 old src cmp ss ds).1 = if old = cmp then src else old) ∧
  (∀ s a q seq ecc v d, s.alive = true → q < 4096 → seq < 2 ^ 23 → Ready s ecc (fun s => s.doEpochClose q seq) a →
    let cid := cidOf q seq
    let r := Tbl.get {} a.units.red cid
    let mine (h : HeldRed) : Bool := h.part == (a.cmd cid).part.getD 0 && h.epoch == r.epoch
    r.close = true → r.ents ≠ [] → r.ents.all (fun e => e.done.length == e.dst.length) = true →
    a.redReleases cid (sortBy HeldRed.le (a.units.held.filter mine)) = (v, .ok d) →
    ∃ u, exec (.epochClose q (seq, ecc)) s = .next u ∧ u.mem = v.mem ∧ u.units.held = v.units.held.filter (fun h => !mine h) ∧
      (Live v cid → (v.cmd cid).cause = none → (u.cmd cid).st = .fencing))

/-- Saffron (R244-R252): a request of sound operations is taken; each operation acts on the slot its key names, with the code of Table 11.6, and
writes what it reads and its result; a launch's session list is resolved before its first step; the sweep frees an expired slot. State `a` is that
in which the command's traffic is admitted (log entry 196). -/
def Obligations.SessionRequests : Prop :=
  (∀ s a q host cid n hd body b, s.alive = true → q < 4096 → Ready s host.ecc (fun s => s.doSession q host) a →
    a.startable q 4 = some cid → a.saffronOn = true → aligned (a.cmd cid).reqAddr 64 = true →
    a.RequestRead cid ⟨2, 0⟩ host (a.cmd cid).reqAddr 32 n hd body b → 1 ≤ n → n ≤ 4096 → zeroBytes hd 2 8 = true → zeroBytes hd 16 64 = true →
    (reqEntries 32 n body).all seOk = true →
    ∃ u, exec (.session q host) s = .next u ∧ u.mem = b.mem ∧
      Tbl.get {} u.units.ses cid = { ents := reqEntries 32 n body, done := List.replicate n false, result := fieldOf hd 8 8 }) ∧
  (∀ s a q seq i host ecc op c e l slot v data w y d, (op, c) ∈ [(0, Instr.sesFind q seq i host ecc), (1, .sesInsert q seq i host ecc),
      (2, .sesDelete q seq i host ecc), (3, .sesTouch q seq i host ecc), (4, .sesAppend q seq i host ecc), (5, .sesWrite q seq i host ecc),
      (6, .sesRead q seq i host ecc)] →
    s.alive = true → q < 4096 → seq < 2 ^ 23 → Ready s (host.ecc ++ ecc) (fun s => s.sesStep (cidOf q seq) i op host) a →
    let cid := cidOf q seq
    let r := Tbl.get {} a.units.ses cid
    let p := (a.cmd cid).part.getD 0
    let z := keyPlace (seKey e)
    let o := v.sesApply p e slot data
    r.ents[i]? = some e → seOp e = op → nth r.done i true = false → a.halted z.1 = false → a.resolving p z.1 = false →
    (∀ k < i, seKey (nth r.ents k []) ≠ seKey e ∨ nth r.done k false = true) →
    a.slotLook cid (seKey e) (128 + alignUp (seSource e) 64) (a.sesParts e) = (l, slot, true) →
    (if (seSource e != 0 && (slot.isSome || (bit (seFlags e) 0 && (match l.insertWay p z.1 z.2 with | .ok _ => true | .error _ => false)))) = true
      then l.unitRead cid ⟨2, z.1⟩ host (seAddr e) (seSource e) = (v, .ok data) else v = l ∧ data = []) →
    (if o.2.2.2 = [] then w = o.1.bump (sesDie z.1 + 8) 64 1
      else (o.1.bump (sesDie z.1 + 8) 64 1).unitWrite cid ⟨2, z.1⟩ host (seAddr e) o.2.2.2 = (w, .ok d)) →
    w.unitWrite cid ⟨2, z.1⟩ host (r.result + 8 * i) (natBytes 8 (w.sesResult o.2.1 o.2.2.1)) = (y, .ok []) →
    ∃ u, exec c s = .next u ∧ u.mem = y.mem ∧
      (Tbl.get {} u.units.ses cid = { r with done := r.done.set i true } ∨ ((r.done.set i true).all id = true ∧ (Live y cid → (u.cmd cid).st = .fencing)))) ∧
  (∀ (s : State) p e d n data, (seOp e = 2 → (s.sesApply p e (some (d, n)) data).2.2.1 = 3) ∧
    (seOp e = 1 → bit (seFlags e) 1 = true → (s.sesApply p e (some (d, n)) data).2.2.1 = 1) ∧
    (seOp e ≠ 2 → (seOp e ≠ 1 ∨ bit (seFlags e) 1 = false) → (s.sesApply p e (some (d, n)) data).2.2.1 = 0 ∧
      (s.sesApply p e (some (d, n)) data).2.1 = some (d, n)) ∧
    (seOp e ≠ 1 → bit (seFlags e) 0 = false ∨ seOp e = 2 ∨ seOp e = 6 → s.sesApply p e none data = (s, none, 2, [])) ∧
    (seOp e = 1 ∨ (bit (seFlags e) 0 = true ∧ seOp e ∈ [0, 3, 4, 5]) → (s.sesApply p e none data).2.2.1 ∈ [1, 4, 5])) ∧
  (∀ s a q seq ecc v, s.alive = true → q < 4096 → seq < 2 ^ 23 → Ready s ecc (fun s => s.doSessionResolve q seq) a →
    let c := a.cmd (cidOf q seq)
    let es := (sessionList c.entry).filter (· != 0)
    c.opcode = 1 → c.st = .placed → c.sess = false → c.cause = none → (∀ e ∈ es, a.halted (keyPlace (nth c.cb (bits e 4 0) 0)).1 = false) →
    a.resolveList (cidOf q seq) c.cb es = (v, none) →
    ∃ u, exec (.sessionResolve q seq ecc) s = .next u ∧ (u.cmd (cidOf q seq)).sess = true ∧ u.mem = v.mem ∧ (es = [] → u.mem = a.mem ∧ u.regs = a.regs)) ∧
  (∀ s die slot, s.alive = true → Settled s → die < 8 → slot < 131072 → bit (s.reg 0x300000) 0 = true → s.saffronOn = true → s.slotState die slot = 1 →
    s.slotExpired die slot = true →
    ∃ u, exec (.sessionSweep die slot) s = .next u ∧ u.slotState die slot = 0 ∧ u.reg (sesDie die) = s.reg (sesDie die) - 1 ∧
      u.reg (sesPart (s.slotOwner die slot) + 0x24) = min (s.reg (sesPart (s.slotOwner die slot) + 0x24) + 1) (2 ^ 32 - 1))

/-- Memory tiers, integrity and heat: buckets refill up to BURST (R269); a late request or host write ends its launch (R273); the windows'
registers (R276); layers are released in order (R267); recovery, patrol scrub, sparing and page retirement (R286-R292); thresholds with
hysteresis (R293-R297, Table 13.4). -/
def Obligations.TiersAndIntegrity : Prop :=
  (∀ (s : State), s.alive = true → (∀ p slot, (s.bucket p slot).waits = []) →
    ∃ v : State, exec .regulatorRefill s = .next { v.flowsDue.fabGo with pending := s.pending } ∧ v.mem = s.mem ∧ v.tiles = s.tiles ∧ v.fab = s.fab ∧
      ∀ p ∈ s.parts, ∀ slot ∈ s.bucketsOf p, ∀ rate burst, s.rateBurst p slot = some (rate, burst) →
        (v.bucket p slot).tokens = min ((s.bucket p slot).tokens + rate) burst ∧ (v.bucket p slot).spent = s.carry p slot (s.bucket p slot).spent) ∧
  (∀ s t c r rest cid p, s.alive = true → t < 128 → c < 16 → (s.chan t c).reqs = r :: rest → s.tileCmd t = some cid → r.st = .sent →
    r.port = some p → ∃ u, exec (.cxlRequestTimeout (.chan t) c) s = .next u ∧
      (Live s cid → (u.cmd cid).cause = (s.cmd cid).cause.or (some (if r.write then (3, 5) else (2, r.addr / 64 % 65536))))) ∧
  (∀ s die port addr w cid, s.alive = true → die < 8 → port < 2 →
    s.host.goWait.find? (fun w => w.die == die && w.port == port && w.addr == addr && w.out.isNone) = some w → w.src = none → w.cids = [cid] → Live s cid →
    ∃ u, exec (.cxlRequestTimeout (.line die port) addr) s = .next u ∧ (u.cmd cid).cause = (s.cmd cid).cause.or (some (3, 5))) ∧
  (∀ s addr w cid, s.alive = true → s.host.biWait.find? (fun w => w.addr == addr && w.go.isSome) = some w → w.src = none → w.cid = some cid → Live s cid →
    ∃ u, exec (.cxlRequestTimeout .bias addr) s = .next u ∧ (u.cmd cid).cause = (s.cmd cid).cause.or (some (3, 5))) ∧
  (∀ s port w target value, s.alive = true → Instr.wf (.t3WindowWrite port w target value) = true → s.regsOpen = true →
    let off := 0x106000 + 0x40 * w + (if target then 8 else 0)
    let good : Prop := (target = true ∨ bit value 0 = false ∨ (1 ≤ bits value 13 2 ∧ bits value 13 2 ≤ 2048)) ∧
      (s.pkgState = 0 ∨ s.pkgState = 3 ∨ (cfgPackage s.folio.active).f 6 1 ≤ w)
    (good → ∃ u, exec (.t3WindowWrite port w target value) s = .next u ∧ u.reg off = value &&& (if target then ones 63 30 else ones 13 0) ∧
      (∀ k, k ≠ off → u.reg k = s.reg k) ∧ u.mem = s.mem) ∧
    (¬ good → exec (.t3WindowWrite port w target value) s =
      .next { (if target then s.whole64 port off else s).barError port off (if target then 8 else 4) value with pending := s.pending })) ∧
  (∀ s q seq layer, s.alive = true → q < 4096 → seq < 2 ^ 23 → let cid := cidOf q seq
    let c := s.cmd cid
    let ws := s.sched.wins.filter (fun w => w.cid == cid)
    let l := nth c.lays layer (0, 0)
    c.opcode = 1 → c.st = .running → ws ≠ [] → c.winDone = layer → (∀ w ∈ ws, layer < w.layer) →
    (∀ w ∈ ws, ∀ f ∈ (s.cache w.cl).fills, f.pin = some cid → f.line ∉ s.linesOf (c.img.1 + l.1, l.2)) →
    ∃ u, exec (.windowLayerRelease q seq layer) s = .next u ∧ (u.cmd cid).winDone = layer + 1 ∧ u.mem = s.mem) ∧
  (∀ s addr ns r, s.alive = true → s.memc.med = [] → let a := addr / 64 * 64
    let y := (s.phys r.1).getD 0
    tierOf a ≠ 3 → (s.sector a).recover = true → s.healFrom a = some r →
    (s.pageRetired y = false → (s.sector y).poison = false →
      (s.pageRetired a = false → ∃ v : State, exec (.replicaReadComplete addr true ns) s = .next { v.closeHeals a false with pending := s.pending } ∧
        (v.sector a).recover = false ∧ (v.sector a).poison = false ∧
        ∀ x, memByte v.mem x = if a ≤ x ∧ x < a + 64 then BitVec.ofNat 8 (nth (s.readDP r.1 64) (x - a) 0) else memByte s.mem x) ∧
      (s.pageRetired a = true → ∃ v : State, exec (.replicaReadComplete addr true ns) s = .next { v.closeHeals a false with pending := s.pending } ∧
        (v.sector a).recover = false ∧ (∀ k ∈ (s.sector a).joined, k.1 ≠ 2 → (v.sector a).served.contains k = true) ∧ v.mem = s.mem)) ∧
    (∀ ok, (ok = false ∨ s.pageRetired y = true ∨ (s.sector y).poison = true) →
      ∃ (v : State) (lost : List (Nat × List Nat × Nat × ReadOut)), exec (.replicaReadComplete addr ok ns) s =
        .next { ((v.closeHeals a true).endReaders ⟨4, dieOfPhys a⟩ lost).slotLost a with pending := s.pending } ∧
        (v.sector a).recover = false ∧ (v.sector a).lost = true ∧ v.mem = s.mem)) ∧
  (∀ s die addr, s.alive = true → s.memc.med = [] → die < 8 → let a := addr / 64 * 64
    bit (s.reg (eccBase die + 0x38)) 0 = true → dieOfPhys a = die → tierOf a ≠ 3 → (s.phys a).isSome = true → s.pageRetired a = false →
    (s.sector a).poison = false →
    (∃ u, exec (.scrubPatrol die addr .ok) s = .next u ∧ u.memc = s.memc ∧ u.mem = s.mem ∧
      u.reg (eccBase die + 0x3C) = if a = s.lastSector die then min (s.reg (eccBase die + 0x3C) + 1) (2 ^ 32 - 1) else s.reg (eccBase die + 0x3C)) ∧
    (∃ u, exec (.scrubPatrol die addr .corrected) s = .next u ∧ u.memc.corrected = s.memc.corrected ++ [(a, s.time)] ∧ u.mem = s.mem) ∧
    (¬ (tierOf a = 1 ∧ (s.sector a).crc = true) → s.saffronByte a = false →
      ∃ u, exec (.scrubPatrol die addr .uncorrectable) s = .next u ∧ (u.sector a).poison = true ∧ u.mem = s.mem)) ∧
  (∀ s die ddr dbank row sectors repair, s.alive = true → die < 8 → s.inRow die ddr dbank row sectors = true → s.failingSectors sectors ≠ [] →
    let key := die * 65536 + dbank % 65536
    let chan := chanOfT2 (sectors.headD 0)
    let used := Tbl.get 0 s.memc.spares key
    (ddr = false → used < 2 → ∃ u, exec (.rowSpareRemap die ddr dbank row sectors repair) s = .next u ∧ Tbl.get 0 u.memc.spares key = used + 1 ∧
      u.memc.remaps = s.memc.remaps ++ [(key, row, used)] ∧ u.memc.pages = s.memc.pages ∧ u.mem = s.mem ∧
      u.field (eccBase die + 0x24) 15 0 = min (s.field (eccBase die + 0x24) 15 0 + 1) 65535) ∧
    (ddr = true → repair = true → ∃ u, exec (.rowSpareRemap die ddr dbank row sectors repair) s = .next u ∧
      Tbl.get 0 u.memc.ppr chan = Tbl.get 0 s.memc.ppr chan + 1 ∧ u.memc.hppr = s.memc.hppr ++ [(chan, dbank, row)] ∧ u.mem = s.mem) ∧
    ((if ddr then repair = false else 2 ≤ used) → ∃ u, exec (.rowSpareRemap die ddr dbank row sectors repair) s = .next u ∧
      (∀ a ∈ s.failingSectors sectors, u.pageRetired a = true) ∧ ((∀ a ∈ sectors, s.saffronByte a = false) → u.mem = s.mem))) ∧
  (∀ s die t, s.alive = true → die < 8 → s.Shaped →
    let hot (u : State) : Bool := (nth u.memc.cap die none).isSome || nth u.memc.capDue die false
    ∃ u, exec (.stackTempSample die t) s = .next u ∧
      nth u.memc.refresh die false = (if nth s.memc.refresh die false then decide (328 ≤ t) else decide (340 ≤ t)) ∧
      hot u = (if hot s then decide (368 ≤ t) else decide (380 ≤ t)) ∧
      nth u.memc.halt die false = (if nth s.memc.halt die false then decide (400 ≤ t) else decide (420 ≤ t)) ∧ u.mem = s.mem)

/-- Host ports (R24, R299-R301, R303, R305, R321, R336): a port that trains serves the dies without one; one that fails hands its dies to the
other or to none; a die moves back once nothing it sent is in flight and its Modified lines are written back; decoders commit; pages flip. -/
def Obligations.HostPorts : Prop :=
  (∀ s port mode speed width, s.alive = true → Instr.wf (.hostLinkUp port mode speed width) = true → s.portUp port = false →
    nth s.pins.perst port false = true → s.pace.refRun = true → s.Shaped →
    ∃ u, exec (.hostLinkUp port mode speed width) s = .next u ∧ u.portUp port = true ∧ u.portMode port = mode ∧
      u.field (hostPort port) 7 4 = speed ∧ u.field (hostPort port) 13 8 = width ∧ u.mem = s.mem ∧
      u.out.take (s.out.length + 1) = s.out ++ [.ident port Config.serial Config.identityKeyId] ∧
      ∀ d < 8, u.diePort d = (s.diePort d).or (some port)) ∧
  (∀ s port, s.alive = true → port < 2 → s.portUp port = true → s.Shaped →
    ∃ u, exec (.hostLinkDown port) s = .next u ∧ u.portUp port = false ∧ u.portMode port = 0 ∧
      ∀ d < 8, u.diePort d = if s.diePort d = some port then (if s.portUp (1 - port) then some (1 - port) else none) else s.diePort d) ∧
  (∀ s die port old, s.alive = true → die < 8 → port < 2 → s.diePort die = some old → old ≠ port → die / 4 = port → s.portUp port = true →
    s.Shaped → s.reqsOn [die] (fun _ _ r => (r.st == .sent || r.st == .go) && r.port == some old) = [] →
    s.reqsOn (upto 8) (fun _ _ r => r.st == .sent && r.port.isNone && s.inHostBias r.tgt && dieOfPhys r.tgt == die) = [] →
    s.host.goWait.any (fun w => w.die == die && w.port == old) = false → s.host.biWait.any (fun w => w.go == some (die, old)) = false →
    let dirty := (s.hlc die).filter (fun l => !l.dirty.isEmpty)
    (dirty = [] → ∃ u, exec (.hostPortSwitch die port) s = .next u ∧ u.diePort die = some port ∧ u.hlc die = [] ∧ u.mem = s.mem ∧
      ∀ d, d ≠ die → u.diePort d = s.diePort d) ∧
    (dirty ≠ [] → ∃ u, exec (.hostPortSwitch die port) s = .next u ∧ u.host.via = s.host.via ∧ u.hlc die = [] ∧
      (∀ l ∈ dirty, ∃ w ∈ u.host.goWait, w.die = die ∧ w.port = old ∧ w.addr = l.addr ∧ w.cids = l.owners) ∧ u.mem = s.mem ∧
      ((∀ l ∈ dirty, ∀ c ∈ l.owners, s.hasCmd c = false) → u.out = s.out ++ dirty.map (fun l => .dirtyEvict old l.addr l.dirty)))) ∧
  (∀ s port dec base ways, s.alive = true → port < 2 → dec < 2 → s.Shaped →
    let ok : Prop := ways = 1 ∧ base % 2 ^ 30 = 0 ∧ 2 ≤ s.portMode port ∧
      ((nth s.host.hdm (1 - port) []).any (·.isSome) = true → s.portMode (1 - port) = s.portMode port)
    (ok → ∃ u, exec (.hdmDecoderCommit port dec base ways) s = .next u ∧ u.hdmBase port dec = some base ∧
      nth (nth u.host.hdmErr port []) dec true = false ∧ bit (u.reg (hostPort port)) (14 + dec) = true ∧ u.mem = s.mem) ∧
    (¬ ok → ∃ u, exec (.hdmDecoderCommit port dec base ways) s = .next u ∧ u.host.hdm = s.host.hdm ∧
      nth (nth u.host.hdmErr port []) dec false = true ∧ u.regs = s.regs)) ∧
  (∀ s port pages, s.alive = true → port < 2 → s.regsOpen = true →
    let busy : Prop := s.host.flip.isSome = true ∨ pages = 0 ∨ (s.portMode 0 ≠ 2 ∧ s.portMode 1 ≠ 2)
    let a := s.reg 0x322040 / 4096 * 4096
    (busy → exec (.biasFlip port pages) s = .next { s.barError port 0x322048 4 pages with pending := s.pending }) ∧
    (¬ busy → s.inMemory 16 a (4096 * pages) = true → ∃ u, exec (.biasFlip port pages) s = .next u ∧ u.host.flip = some (a / 4096, pages) ∧
      u.host.hostBias = s.host.hostBias ∧ u.regs = s.regs) ∧
    (¬ busy → s.inMemory 16 a (4096 * pages) = false → ∃ u, exec (.biasFlip port pages) s = .next u ∧ u.host = s.host ∧ bit (u.reg 0x32204C) 1 = true)) ∧
  (∀ s first n, s.alive = true → s.host.flip = some (first, n) → ∃ u, exec .biasFlipComplete s = .next u ∧ u.host.flip = none ∧
    u.host.hostBias = s.host.hostBias.filter (fun pg => !(pageNames pg).any (fun k => first ≤ k && k < first + n)) ∧ u.mem = s.mem ∧ u.regs = s.regs) ∧
  (∀ s c, s.alive = true → s.admin 0x44 = some c → s.adminOpen 0x44 = true →
    (s.host.flip = none → ∃ u, exec .hostBiasFlush s = .next u ∧ (u.cmd c).st = .fencing ∧ (u.cmd c).cause = (s.cmd c).cause ∧ u.mem = s.mem) ∧
    (s.host.flip ≠ none → exec .hostBiasFlush s = .next s))

/-- The host's accesses to device memory, and what the device and the host owe each other (R304-R307, R310, R312): a CXL.mem read answers the
line as memory holds it and is tracked, or turns its page to host bias; a write changes exactly its bytes; BAR4 reaches what its window and
segment allow; an answered back-invalidation or GO lets the write that waited for it commit; a snoop answers with what is Modified. -/
def Obligations.HostAccess : Prop :=
  (∀ s port addr a x, s.alive = true → port < 2 → s.portUp port = true → 2 ≤ s.portMode port → let la := addr / 64 * 64
    s.hdmAddr port la = some a →
    (s.memTarget a = none → ∃ u, exec (.hostMemRead port addr .ok) s = .next u ∧ u.out.take (s.out.length + 1) = s.out ++ [.memData port 0 la (List.replicate 64 255) true] ∧
      u.mem = s.mem) ∧
    (s.memTarget a = some x → s.biHeld x = false → s.pageRetired x = false → (s.sector x).poison = false → s.Shaped →
      (nth s.host.track (dieOfPhys x) []).length < 262144 →
      ∃ u, exec (.hostMemRead port addr .ok) s = .next u ∧ u.out = s.out ++ [.memData port 0 la (s.readMem x 64) false] ∧ u.mem = s.mem ∧
        (s.portMode port = 2 → u.host.hostBias.contains (x / 4096) = true) ∧ (s.portMode port = 3 → (port, la) ∈ u.tracked x))) ∧
  (∀ s port addr data a x, s.alive = true → port < 2 → s.portUp port = true → 2 ≤ s.portMode port → data ≠ [] → addr % 64 + data.length ≤ 64 →
    s.hdmAddr port addr = some a →
    (s.memTarget a = none → ∃ u, exec (.hostMemWrite port addr (data, .ok)) s = .next u ∧ u.out.take (s.out.length + 1) = s.out ++ [.memDone port addr] ∧ u.mem = s.mem) ∧
    (s.memTarget a = some x → s.biHeld x = false → s.pageRetired x = false → (s.sector x).poison = false →
      ∃ u, exec (.hostMemWrite port addr (data, .ok)) s = .next u ∧ u.out = s.out ++ [.memDone port addr] ∧ u.tiles = s.tiles ∧ u.sched = s.sched ∧
        ∀ y, memByte u.mem y = if x ≤ y ∧ y < x + data.length then BitVec.ofNat 8 (nth data (y - x) 0) else memByte s.mem y)) ∧
  (∀ s port off len a x ecc, s.alive = true → Settled s → port < 2 → s.portUp port = true → 1 ≤ len →
    (s.barAddr off = none ∨ (s.barAddr off = some a ∧ s.barAllowed a len = false) →
      ∃ u, exec (.bar4Read port off len ecc) s = .next u ∧ u.out.take (s.out.length + 1) = s.out ++ [.memData port 1 off (List.replicate len 255) false] ∧ u.mem = s.mem) ∧
    (s.barAddr off = some a → s.barAllowed a len = true → a % 64 + len ≤ 64 → s.phys a = some x → tierOf x ≠ 3 → s.unzeroed x len = false →
      s.biHeld x = false → s.pageRetired x = false → (s.sector x).poison = false → (s.setMed ecc).outcome (x / 64 * 64) = .ok →
      ∃ u, exec (.bar4Read port off len ecc) s = .next u ∧ u.out = s.out ++ [.memData port 1 off (s.readMem x len) false] ∧ u.mem = s.mem)) ∧
  (∀ s port off data a x ecc, s.alive = true → Settled s → port < 2 → s.portUp port = true → data ≠ [] →
    (s.barAddr off = none ∨ (s.barAddr off = some a ∧ s.barAllowed a data.length = false) →
      exec (.bar4Write port off (data, [])) s = .next { s.hostError port 1 (s.barName off) true with pending := s.pending }) ∧
    (s.barAddr off = some a → s.barAllowed a data.length = true → a % 64 + data.length ≤ 64 → s.phys a = some x → tierOf x ≠ 3 →
      s.unzeroed (x / 64 * 64) 64 = false → s.hostFirst x = false → s.biHeld x = false → s.pageRetired x = false → (s.sector x).poison = false →
      (s.setMed ecc).outcome (x / 64 * 64) = .ok → ∃ u, exec (.bar4Write port off (data, ecc)) s = .next u ∧ u.tiles = s.tiles ∧ u.out = s.out ∧
        ∀ y, memByte u.mem y = if x ≤ y ∧ y < x + data.length then BitVec.ofNat 8 (nth data (y - x) 0) else memByte s.mem y)) ∧
  (∀ s port addr w ws, s.alive = true → port < 2 → s.host.biWait = w :: ws → (port, addr) ∈ w.snoops → w.src = none →
    (∀ v ∈ ws, v.snoops ≠ [] ∨ v.go ≠ none ∨ v.data = []) →
    (w.snoops ≠ [(port, addr)] → ∃ u, exec (.birspReceive port addr) s = .next u ∧ u.mem = s.mem ∧ u.regs = s.regs ∧
      u.host.biWait = { w with snoops := w.snoops.erase (port, addr) } :: ws) ∧
    (w.snoops = [(port, addr)] → w.data = [] → ∃ u, exec (.birspReceive port addr) s = .next u ∧ u.host.biWait = ws ∧ u.mem = s.mem ∧ u.regs = s.regs) ∧
    (w.snoops = [(port, addr)] → w.data ≠ [] → w.go = none → tierOf w.addr ≠ 3 → s.outcome (w.addr / 64 * 64) = .ok → s.pageRetired w.addr = false →
      (s.sector w.addr).poison = false →
      ∃ u, exec (.birspReceive port addr) s = .next u ∧ u.host.biWait = ws ∧ ∀ y, memByte u.mem y = if w.addr ≤ y ∧ y < w.addr + w.data.length
        then BitVec.ofNat 8 (nth w.data (y - w.addr) 0) else memByte s.mem y)) ∧
  (∀ s port addr kind, s.alive = true → Instr.wf (.hostSnoop port addr (kind, .ok)) = true → s.portUp port = true → 2 ≤ s.portMode port → s.Shaped →
    let la := addr / 64 * 64
    ((∀ d < 8, s.diePort d = some port → ∀ l ∈ s.hlc d, l.addr ≠ la) → ∃ u, exec (.hostSnoop port addr (kind, .ok)) s = .next u ∧
      u.out = s.out ++ [.snoopAns port la []] ∧ u.host = s.host ∧ u.mem = s.mem) ∧
    (∀ d l, d < 8 → s.diePort d = some port → (∀ e < 8, e ≠ d → ∀ l ∈ s.hlc e, l.addr ≠ la) → (s.hlc d).filter (fun x => x.addr == la) = [l] →
      ∃ u, exec (.hostSnoop port addr (kind, .ok)) s = .next u ∧ u.out = s.out ++ [.snoopAns port la l.dirty] ∧ u.mem = s.mem ∧
        (u.hlc d).filter (fun x => x.addr == la) = (if kind = 0 then [] else if kind = 1 then [⟨la, [], []⟩] else [l]))) ∧
  (∀ s die port addr, s.alive = true → die < 8 → port < 2 →
    (∀ w, s.host.goWait.find? (fun w => w.die == die && w.port == port && w.addr == addr && w.out.isNone) = some w → w.bad = none →
      let v : State := { s with host := { s.host with goWait := s.host.goWait.erase w } }
      (w.src = none → ∃ u, exec (.hostWriteGo die port addr) s = .next u ∧ u.host = v.host ∧ u.mem = s.mem ∧ u.regs = s.regs) ∧
      (∀ t c, w.src = some (t, c) → (v.headIn t c .go w.cids.head?).isSome = true →
        exec (.hostWriteGo die port addr) s = .next { v.reqDone t c with pending := s.pending })) ∧
    (∀ w ws, s.host.goWait.any (fun w => w.die == die && w.port == port && w.addr == addr && w.out.isNone) = false → s.host.biWait = w :: ws →
      w.go = some (die, port) → w.addr = addr → w.snoops = [] → w.src = none → (∀ v ∈ ws, v.snoops ≠ [] ∨ v.go ≠ none ∨ (v.data = [] ∧ v.cid ≠ none)) →
      (w.data = [] → w.cid ≠ none → ∃ u, exec (.hostWriteGo die port addr) s = .next u ∧ u.host.biWait = { w with go := none } :: ws ∧ u.mem = s.mem) ∧
      (w.data ≠ [] → tierOf w.addr ≠ 3 → s.outcome (w.addr / 64 * 64) = .ok → s.pageRetired w.addr = false → (s.sector w.addr).poison = false →
        ∃ u, exec (.hostWriteGo die port addr) s = .next u ∧ u.host.biWait = ws ∧
          ∀ y, memByte u.mem y = if w.addr ≤ y ∧ y < w.addr + w.data.length then BitVec.ofNat 8 (nth w.data (y - w.addr) 0) else memByte s.mem y)))

/-- The end of a command (R284, R315, R316, R320, R345, R363-R365): its fence ends once its writes are answered, a replay starts again, its
record goes into its ring in order, an unwritable one is kept in the queue's registers and the queue stops; MSI-X messages pend while masked. -/
def Obligations.FenceRecordsMsix : Prop :=
  (∀ s q seq, s.alive = true → q < 4096 → seq < 2 ^ 23 → let cid := cidOf q seq
    (s.cmd cid).st = .fencing →
    (s.fenceOpen cid = true → exec (.fenceComplete q seq) s = .next s) ∧
    (s.fenceOpen cid = false → (s.cmd cid).replay = false → ∃ u, exec (.fenceComplete q seq) s = .next u ∧ (u.cmd cid).st = .fenced ∧
      (u.cmd cid).tEnd = s.time ∧ (u.cmd cid).fenceWin = s.pace.windows ∧ (u.cmd cid).cause = (s.cmd cid).cause ∧ (u.cmd cid).holds = []) ∧
    (s.fenceOpen cid = false → (s.cmd cid).replay = true → ∃ u, exec (.fenceComplete q seq) s = .next u ∧ (u.cmd cid).st ∈ [CmdSt.ready, .placed] ∧
      (u.cmd cid).replay = false ∧ (u.cmd cid).firstStep = none ∧ (u.cmd cid).numsum = (s.cmd cid).lookSum ∧
      (u.cmd cid).sats = (s.cmd cid).lookSats)) ∧
  (∀ s q seq, s.alive = true → Settled s → q < 4096 → seq < 2 ^ 23 →
    let cid := cidOf q seq
    let c := s.cmd cid
    let x := s.queue q
    c.queue = q → c.st = .fenced → s.blotHeld cid = false → (c.firstEver.isSome = true → c.fenceWin < s.pace.windows) →
    (∀ p, x.device = false → s.diePort (s.queueDie q) = some p → ∃ u, exec (.completionRecordWrite q seq true) s = .next u ∧
      u.out.take (s.out.length + 1) = s.out ++ [.record q (x.k % x.size) (x.cq + 32 * (x.k % x.size)) (s.recordOf cid)] ∧
      (u.queue q).k = x.k + 1 ∧ u.hasCmd cid = false ∧ u.mem = s.mem) ∧
    (∀ y, x.device = true → (x.cq + 32 * (x.k % x.size)) % 64 ≤ 32 → s.phys (x.cq + 32 * (x.k % x.size)) = some y → tierOf y ≠ 3 →
      s.unzeroed (y / 64 * 64) 64 = false → s.hostFirst y = false → s.biHeld y = false → s.pageRetired y = false → (s.sector y).poison = false → ∃ u, exec (.completionRecordWrite q seq true) s = .next u ∧
      (u.queue q).k = x.k + 1 ∧ u.hasCmd cid = false ∧
      ∀ z, memByte u.mem z = if y ≤ z ∧ z < y + 32 then nth (s.recordOf cid).bytes (z - y) 0 else memByte s.mem z) ∧
    (q ≠ 0 → x.st = 1 → bit (s.reg (qdbBase q + 0x48)) 0 = false → ∃ u, exec (.completionRecordWrite q seq false) s = .next u ∧
      (u.queue q).st = 3 ∧ (u.queue q).k = x.k ∧ bit (u.reg (qdbBase q + 0x48)) 0 = true ∧ u.hasCmd cid = false ∧
      ∀ i < 4, u.reg (qdbBase q + 0x28 + 8 * i) = ofBytes (((s.recordOf cid).bytes.drop (8 * i)).take 8))) ∧
  (∀ s port v, s.alive = true → port < 2 → v < 2048 → s.host.msixDue.contains (port, v) = true → s.portUp port = true →
    (s.msixMasked port v = false → ∃ u, exec (.msixSend port v) s = .next u ∧ u.out = s.out ++ [.msix port v] ∧
      u.host = { s.host with msixDue := s.host.msixDue.erase (port, v) } ∧ u.regs = s.regs) ∧
    (s.msixMasked port v = true → ∃ u, exec (.msixSend port v) s = .next u ∧ u.out = s.out ∧ bit (u.reg (pbaReg port v)) (v % 64) = true ∧
      u.host = { s.host with msixDue := s.host.msixDue.erase (port, v), msixPend := s.host.msixPend ++ [(port, v)] })) ∧
  (∀ s port v, s.alive = true → port < 2 → v < 2048 → s.regsOpen = true →
    (s.host.msixPend.contains (port, v) = false → ∃ u, exec (.msixUnmask port v) s = .next u ∧ u.msixMasked port v = false ∧ u.host = s.host ∧ u.out = s.out) ∧
    (s.host.msixPend.contains (port, v) = true → s.portUp port = true → ∃ u, exec (.msixUnmask port v) s = .next u ∧ u.msixMasked port v = false ∧
      u.out = s.out ++ [.msix port v] ∧ u.host = { s.host with msixPend := s.host.msixPend.erase (port, v) } ∧ bit (u.reg (pbaReg port v)) (v % 64) = false) ∧
    (s.host.msixPend.contains (port, v) = true → s.portUp port = false → ∃ u, exec (.msixUnmask port v) s = .next u ∧ u.msixMasked port v = false ∧
      u.out = s.out ∧ u.host = { s.host with msixPend := s.host.msixPend.erase (port, v), msixDue := s.host.msixDue ++ [(port, v)] }))

/-- Address translation (R328, R330, R331, R334-R339): a completion fills the cache of its die with the aligned range; an invalidation or a
flush removes what it covers at once and ends when nothing sent under it is left; a page request ends with its response or its limit, each
waiter that is denied faulting with the cause of Table 15.4; enabling follows the host. -/
def Obligations.Translation : Prop :=
  (∀ s die page ans, s.alive = true → die < 8 → ∃ u, exec (.atsTranslationCompletion die page none ans) s = .next u ∧
    (∀ k, k ∈ u.xlat.absent ↔ if k = page then ans.error = true ∨ ans.wr = false else k ∈ s.xlat.absent) ∧ u.regs = s.regs ∧ u.mem = s.mem) ∧
  (∀ s die page pid ans q, s.alive = true → die < 8 → s.Shaped →
    s.xlat.reqs.find? (fun r => r.die == die && r.page == page && r.pasid == some pid && !r.held) = some q → q.overtaken page ans = false →
    ans.error = false → ans.rd = true ∨ ans.wr = true →
    let n := heldSize ans.size / 4096
    ∃ v : State, exec (.atsTranslationCompletion die page (some pid) ans) s =
        .next { (v.eachStill (s.reqsOn [die] (fun t _ r => r.st == .xlat && s.reqPage t r (some pid) page)) .xlat (fun s t c r => s.issue t c r)).pumpDies [die]
          with pending := s.pending } ∧
      q ∉ v.xlat.reqs ∧ v.mem = s.mem ∧ v.tiles = s.tiles ∧
      v.xfind die q.port (some pid) page = some (XEnt.mk q.port (some pid) ans.global (page - page % n)
        (heldSize ans.size) (ans.ppage - page % n) ans.rd ans.wr ans.untrans)) ∧
  (∀ s port tag pasid page size, s.alive = true → port < 2 → s.Shaped →
    (32 ≤ (s.xlat.invs.filter (fun i => i.port == port)).length → exec (.atsInvalidationRequest port tag pasid page size) s = .next s) ∧
    ((s.xlat.invs.filter (fun i => i.port == port)).length < 32 → let i := InvReq.mk port tag pasid page size s.time
      ∃ u, exec (.atsInvalidationRequest port tag pasid page size) s = .next u ∧ u.xlat.invs = s.xlat.invs ++ [i] ∧ u.mem = s.mem ∧
        u.reg (0x310400 + 0x40 * port) = min (s.reg (0x310400 + 0x40 * port) + 1) (2 ^ 64 - 1) ∧
        ∀ d < 8, u.xcache d = if s.diePort d = some port
          then (s.xcache d).filter (fun e => !(e.port == port && (pasid.isNone || e.global || e.pasid == pasid) && i.hits e.vpage e.size)) else s.xcache d)) ∧
  (∀ s port i, s.alive = true → port < 2 → s.xlat.invs.find? (fun i => i.port == port) = some i → s.sentUnder (s.diesOf port) (s.underInv i) = false →
    ∃ u, exec (.invalidationCompletionSend port) s = .next u ∧ u.out.take (s.out.length + 1) = s.out ++ [.invComplete port i.tag] ∧
      u.xlat.invs = s.xlat.invs.erase i ∧ u.mem = s.mem) ∧
  (∀ s port value, s.alive = true → port < 2 → value < 2 ^ 64 → s.regsOpen = true → s.Shaped →
    let p : Option Nat := if bit value 20 then none else some (bits value 19 0)
    (s.xlat.flush ≠ none → exec (.xlatFlush port value) s = .next { (s.whole64 port 0x310008).barError port 0x310008 8 value with pending := s.pending }) ∧
    (s.xlat.flush = none → ∃ u, exec (.xlatFlush port value) s = .next u ∧ u.xlat.flush = some p ∧ u.mem = s.mem ∧
      ∀ d < 8, u.xcache d = (s.xcache d).filter (fun e => !(p.isNone || e.global || e.pasid == p)))) ∧
  (∀ s p, s.alive = true → s.xlat.flush = some p → s.sentUnder (List.range 8) (fun t _ => p.isNone || p == some (s.tileCtx t).pasid) = false →
    ∃ u, exec .xlatFlushComplete s = .next u ∧ u.xlat.flush = none ∧ u.mem = s.mem) ∧
  (∀ s port page pasid code q, s.alive = true → port < 2 → s.xlat.prs.find? (fun q => q.port == port && q.page == page && q.pasid == pasid) = some q →
    let ws := s.reqsOn [q.die] (fun t _ r => r.st == .page && s.reqPage t r q.pasid q.page)
    (∃ u, exec (.prgResponse port page pasid 0) s = .next u ∧ (∀ e ∈ u.xcache q.die, e.hit port pasid page = false) ∧ u.mem = s.mem) ∧
    (code ≠ 0 → ∃ u, exec (.prgResponse port page pasid code) s = .next u ∧ u.mem = s.mem ∧ (code = 15 → nth u.xlat.pri port false = false) ∧
      ∀ t c r cid, ws = [(t, c, r)] → s.tileCmd t = some cid → Live s cid → (u.cmd cid).cause = (s.cmd cid).cause.or (some (4, 3))) ∧
    (∃ u, exec (.prgTimeout port page pasid) s = .next u ∧ u.mem = s.mem ∧
      ∀ t c r cid, ws = [(t, c, r)] → s.tileCmd t = some cid → Live s cid → (u.cmd cid).cause = (s.cmd cid).cause.or (some (4, 4)))) ∧
  (∀ s port ats pasid pri, s.alive = true → port < 2 → s.Shaped →
    ∃ u, exec (.atsPriEnable port ats pasid pri) s = .next u ∧ u.xlat.ats = s.xlat.ats.set port ats ∧ u.xlat.pasidEn = s.xlat.pasidEn.set port pasid ∧
      u.xlat.pri = s.xlat.pri.set port pri ∧ u.mem = s.mem)

/-- Queues (R345-R354, R361, R362, R378, R380): a doorbell makes entries pending; records are released up to those written; a current entry
becomes a command or ends with the status of its check, a stale one is read again and parks its queue at the fourth; a sound launch is
ready or placed; NOP completes. -/
def Obligations.QueueCommands : Prop :=
  (∀ s port q value, s.alive = true → port < 2 → q < 4096 → value < 2 ^ 64 → s.stage ≠ 15 → let x := s.queue q
    let up := x.j + (value % 65536 + x.size - x.j % x.size) % x.size
    (s.doorbellOk q (value % 65536) = true → ∃ u, exec (.doorbell port q value) s = .next u ∧ u.reg (qdbBase q) = value % 65536 ∧
      (u.queue q).pend = max x.pend up ∧ (u.queue q).st = 1 ∧ (u.queue q).j = x.j ∧ (∀ p, p ≠ q → u.queue p = s.queue p) ∧ u.mem = s.mem) ∧
    (s.doorbellOk q (value % 65536) = false → ∃ u, exec (.doorbell port q value) s = .next u ∧ u.sched = s.sched ∧
      u.reg (qdbBase q + 0x1C) = min (s.reg (qdbBase q + 0x1C) + 1) (2 ^ 32 - 1))) ∧
  (∀ s q tail t cid, s.alive = true → q < 4096 → t < 128 → s.tileCmd t = some cid → (s.queue q).device = true → (s.cmd cid).part = (s.queue q).part →
    s.tileShadow t = false → s.doorbellOk q (tail % 65536) = true → let x := s.queue q
    let up := max x.pend (x.j + (tail % 65536 + x.size - x.j % x.size) % x.size)
    ∃ u, exec (.deviceDoorbell q tail t) s = .next u ∧ (u.queue q).pend = up ∧
      (u.queue q).rung = x.rung ++ [(up, cid, (s.cmd cid).depth, (s.cmd cid).client)] ∧ u.mem = s.mem) ∧
  (∀ s port q value, s.alive = true → port < 2 → q < 4096 → value < 2 ^ 64 → s.stage ≠ 15 → let x := s.queue q
    let n := (value % 65536 + x.size - s.field (qdbBase q + 8) 15 0 % x.size) % x.size
    (n ≤ x.k - x.released → ∃ u, exec (.cqHeadWrite port q value) s = .next u ∧ u.queue q = { x with released := x.released + n } ∧
      u.reg (qdbBase q + 8) = value % 65536 ∧ u.mem = s.mem) ∧
    (x.k - x.released < n → exec (.cqHeadWrite port q value) s = .next { s.barError port (qdbBase q + 8) 4 (trunc 32 value) with pending := s.pending })) ∧
  (∀ s q e, s.alive = true → q < 4096 → s.fetches q = true → (s.queue q).device = false → (s.queue q).entries = [] → let x := s.queue q
    let cid := cidOf q (x.j % 2 ^ 23)
    (∀ i, (i = .entryFetch q (some e) ∧ x.retrying = false) ∨ (i = .staleReread q (some e) ∧ x.retrying = true) →
      entryCurrent x e = true → entriesOf e = 1 →
      let r := s.relocate (x.part.getD 0) e (constWords [e])
      let status : Option (Nat × Nat) := ((entryCheck q e).map (fun d => (8, d))).or (if fieldOf e 0 1 = 1 then r.2 else none)
      ∃ u, exec i s = .next u ∧ (u.queue q).j = x.j + 1 ∧ (u.cmd cid).opcode = fieldOf e 0 1 ∧ (u.cmd cid).entry = e.take 56 ∧
        (u.cmd cid).cause = status ∧ (status = none → (u.cmd cid).st = .fetched ∧ (fieldOf e 0 1 = 1 → (u.cmd cid).cb = r.1)) ∧
        (status ≠ none → (u.cmd cid).st = .fencing)) ∧
    (entryCurrent x e = false → x.retrying = false → ∃ u, exec (.entryFetch q (some e)) s = .next u ∧ (u.queue q).retrying = true ∧
      (u.queue q).rereads = 0 ∧ (u.queue q).j = x.j ∧ u.regs = s.regs) ∧
    (entryCurrent x e = false → x.retrying = true → x.rereads < 3 → ∃ u, exec (.staleReread q (some e)) s = .next u ∧
      u.queue q = { x with rereads := x.rereads + 1 } ∧ u.regs = s.regs) ∧
    (entryCurrent x e = false → x.retrying = true → 3 ≤ x.rereads → ∃ u, exec (.staleReread q (some e)) s = .next u ∧ (u.queue q).st = 2 ∧
      (u.queue q).j = x.j ∧ u.reg (qdbBase q + 0x20) = min (s.reg (qdbBase q + 0x20) + 1) (2 ^ 32 - 1))) ∧
  (∀ s q ok budgets posts lookup cid m, s.alive = true → q < 4096 → s.startable q 1 = some cid →
    cfgModel s.folio.active ((s.cmd cid).part.getD 0) (s.cmd cid).model = some m →
    let c := s.cmd cid
    let img := s.readDP c.img.1 c.img.2
    let dies (detail : Nat × Nat) : Prop := ∃ u, exec (.launch q ok budgets posts lookup) s = .next u ∧ (u.cmd cid).st = .fencing ∧
      (u.cmd cid).cause = c.cause.or (some detail)
    (c.stale = true → dies (9, 0)) ∧ (c.stale = false → c.img.2 = 0 → dies (8, 7)) ∧
    (c.stale = false → c.img.2 ≠ 0 → Config.sha384 img ≠ fieldOf m.data 16 48 → dies (8, 7)) ∧
    (c.stale = false → c.img.2 ≠ 0 → Config.sha384 img = fieldOf m.data 16 48 →
      (∀ d, s.imageCheck (c.part.getD 0) c m (hdrOf img) ok budgets (layersOf img) = some d → dies (8, d)) ∧
      (s.imageCheck (c.part.getD 0) c m (hdrOf img) ok budgets (layersOf img) = none → s.sessionCheck c = none →
        ∃ u, exec (.launch q ok budgets posts lookup) s = .next u ∧ (u.cmd cid).st ∈ [CmdSt.ready, .placed] ∧
          (u.cmd cid).hdr = (hdrOf img).1 ∧ (u.cmd cid).lays = layersOf img ∧ (u.cmd cid).budgets = budgets ∧ (u.cmd cid).posts = posts ∧
          (u.cmd cid).cause = c.cause))) ∧
  (∀ s q c, s.alive = true → q < 4096 → s.startable q 6 = some c → ∃ u, exec (.nop q) s = .next u ∧ (u.cmd c).st = .fencing ∧
    (u.cmd c).cause = (s.cmd c).cause ∧ u.mem = s.mem)

/-- The administration queue (R357, R367-R370, R384): it is enabled and disabled; a queue is created from a sound entry and context, or the
command fails; a destroyed queue ends its commands and is gone when it is empty; handle tables are bound, unbound and written. -/
def Obligations.Administration : Prop :=
  (∀ s ctx c r pr x, s.alive = true → s.admin 0x40 = some c → s.adminOpen 0x40 = true →
    let e := (s.cmd c).entry
    let q := bits (fieldOf e 2 2) 11 0
    let n := fieldOf e 4 1
    let vec := fieldOf e 6 2
    cfgQueue s.folio.active q = some r → cfgPart s.folio.active (r.part 2) = some pr → s.context (r.part 2) ctx = some x → bit (fieldOf e 1 1) 7 = false →
    let good : Prop := addrClass (fieldOf e 8 8) = 1 ∧ addrClass (fieldOf e 16 8) = 1 ∧ fieldOf e 32 8 = 0 ∧ (s.queue q).st = 0 ∧ q ≠ 0 ∧ 6 ≤ n ∧
      n ≤ r.f 6 1 ∧ aligned (fieldOf e 8 8) (64 * 2 ^ n) = true ∧ aligned (fieldOf e 16 8) (32 * 2 ^ n) = true ∧
      (vec = 0xFFFF ∨ (19 ≤ vec ∧ vec ≤ 2047)) ∧ hvOk (fieldOf e 24 8) = true
    (good → ∃ u, exec (.queueCreate (some ctx)) s = .next u ∧ (u.cmd c).st = .fencing ∧ (u.cmd c).cause = (s.cmd c).cause ∧
      (let y := u.queue q
       y.st = 1 ∧ y.log2 = n ∧ y.sq = fieldOf e 8 8 ∧ y.cq = fieldOf e 16 8 ∧ y.ctx = x ∧ y.vector = vec ∧ y.device = false ∧ y.part = some (r.part 2) ∧
       y.client = bits (r.f 4 2) 11 0 ∧ y.prio = r.f 3 1 ∧ y.sliceUs = r.f 8 4 ∧ y.j = 0 ∧ y.pend = 0 ∧ y.k = 0 ∧ y.released = 0) ∧
      ∀ o ∈ [0, 8, 0x18, 0x1C, 0x20, 0x28, 0x30, 0x38, 0x40, 0x48], u.reg (qdbBase q + o) = 0) ∧
    (¬ good → ∃ u, exec (.queueCreate (some ctx)) s = .next u ∧ (u.cmd c).st = .fencing ∧ (u.cmd c).cause = (s.cmd c).cause.or (some (8, 1)) ∧
      u.queue q = s.queue q)) ∧
  (∀ s c, s.alive = true → s.admin 0x41 = some c → s.adminOpen 0x41 = true → let q := bits (fieldOf (s.cmd c).entry 2 2) 11 0
    q ≠ 0 → (s.queue q).st ≠ 0 → (s.queue q).st ≠ 4 → ∃ u, exec .queueDestroy s = .next u ∧ (u.queue q).st = 4 ∧ (u.queue q).drainSeq = some c ∧
      (u.cmd c).st = .running ∧ ∀ d ∈ s.queueCmds q, Live s d → (s.cmd d).nonpreempt = false → (u.cmd d).cause = (s.cmd d).cause.or (some (1, 1))) ∧
  (∀ s q c, s.alive = true → q < 4096 → (s.queue q).st = 4 → s.queueCmds q = [] → (s.queue q).drainSeq = some c → Live s c →
    ∃ u, exec (.queueDrainComplete q) s = .next u ∧ u.queue q = {} ∧ (u.cmd c).st = .fencing ∧
      (u.cmd c).cause = (s.cmd c).cause.or (some (0, (s.queue q).discarded % 65536))) ∧
  (∀ s c pr g, s.alive = true → s.admin 0x42 = some c → s.adminOpen 0x42 = true →
    let p := fieldOf (s.cmd c).entry 2 1
    let sg := fieldOf (s.cmd c).entry 3 1
    cfgPart s.folio.active p = some pr → cfgSeg s.folio.active p sg = some g → g.f 1 1 = 1 → g.f 2 1 = 0 → 16 * pr.f 16 4 ≤ g.f 16 8 + 1 - g.f 8 8 →
    s.sched.queues.any (fun x => x.2.st != 0 && x.2.part == some p && x.2.ctx.slots.any (fun y => y.en && !y.lost && y.seg == sg)) = false →
    Tbl.get 0 s.sched.bound p ≠ sg + 1 →
    ∃ u, exec .htabBind s = .next u ∧ Tbl.get 0 u.sched.bound p = sg + 1 ∧ (u.cmd c).st = .fencing ∧ (u.cmd c).cause = (s.cmd c).cause ∧ u.mem = s.mem) ∧
  (∀ s c, s.alive = true → s.admin 0x43 = some c → s.adminOpen 0x43 = true → let p := fieldOf (s.cmd c).entry 2 1
    let busy := s.sched.queues.any (fun x => x.2.st != 0 && x.2.part == some p)
    ∃ u, exec .htabUnbind s = .next u ∧ (u.cmd c).st = .fencing ∧ Tbl.get 0 u.sched.bound p = (if busy then Tbl.get 0 s.sched.bound p else 0) ∧
      (u.cmd c).cause = if busy then (s.cmd c).cause.or (some (8, 1)) else (s.cmd c).cause) ∧
  (∀ s port value, s.alive = true → port < 2 → value < 2 ^ 64 → s.regsOpen = true →
    let p := s.field 0x20020 31 28
    let i := s.field 0x20020 23 0
    (∀ b r x, s.handleBase p = some b → cfgPart s.folio.active p = some r → i < r.f 16 4 → (b + 16 * i) % 64 ≤ 48 → s.phys (b + 16 * i) = some x →
      tierOf x ≠ 3 → s.unzeroed (x / 64 * 64) 64 = false → s.hostFirst x = false → s.biHeld x = false → s.pageRetired x = false →
      (s.sector x).poison = false → ∃ u, exec (.handleCommit port value) s = .next u ∧ u.sched = s.sched ∧ ∀ z, memByte u.mem z = if x ≤ z ∧ z < x + 16
        then BitVec.ofNat 8 (nth (natBytes 8 (s.reg 0x20028) ++ natBytes 8 value) (z - x) 0) else memByte s.mem z) ∧
    (s.handleBase p = none ∨ (∃ r, cfgPart s.folio.active p = some r ∧ r.f 16 4 ≤ i) →
      exec (.handleCommit port value) s = .next { (s.whole64 port 0x20030).barError port 0x20030 8 value with pending := s.pending })) ∧
  (∀ s port value, s.alive = true → port < 2 → value < 2 ^ 64 → s.regsOpen = true → let n := bits value 11 8
    (n < 6 ∨ 12 < n → exec (.admqCtrlWrite port value) s = .next { s.barError port 0x110 4 (trunc 32 value) with pending := s.pending }) ∧
    (6 ≤ n → n ≤ 12 → bit (s.reg 0x110) 0 = false → bit value 0 = true → ∃ u, exec (.admqCtrlWrite port value) s = .next u ∧
      u.reg 0x110 = n * 256 + 1 ∧ u.queue 0 = { st := 1, log2 := n, sq := s.reg 0x100, cq := s.reg 0x108, vector := 0 } ∧ u.mem = s.mem) ∧
    (6 ≤ n → n ≤ 12 → bit (s.reg 0x110) 0 = true → bit value 0 = false → ∃ u, exec (.admqCtrlWrite port value) s = .next u ∧
      u.reg 0x110 = n * 256 ∧ (u.queue 0).st = 0 ∧ u.mem = s.mem ∧ ∀ c ∈ s.queueCmds 0, (s.cmd c).st = .fetched → u.hasCmd c = false))

/-- Fabric links, frames and timers (R400, R401, R408, R411, R412, R415, R418): a sub-port comes up in its mode or fails alone; a frame for its
own address is answered, any other discarded; an owed ACK goes out; a late packet is sent again under a window of 1, at its twelfth send or
without progress its flow fails; a refused packet is sent again uncounted; an old key is retired. -/
def Obligations.FabricLinksAndTimers : Prop :=
  (∀ s e sub mode, s.alive = true → Instr.wf (.fabricLinkUp e sub mode) = true → let st := s.reg (fabPort e + 4)
    bit (s.reg (fabPort e)) 0 = true → bit (s.reg (fabPort e)) (4 + mode) = true → sub < 2 ^ mode → s.pace.refRun = true → s.laneFails e sub mode = false → bit st sub = false →
    (bits st 7 0 = 0 ∨ bits st 11 10 = mode) → ∃ u, exec (.fabricLinkUp e sub mode) s = .next u ∧ bit (u.reg (fabPort e + 4)) sub = true ∧
      bits (u.reg (fabPort e + 4)) 11 10 = mode ∧ (∀ i < 8, i ≠ sub → bit (u.reg (fabPort e + 4)) i = bit st i) ∧ u.mem = s.mem) ∧
  (∀ s e sub, s.alive = true → e < 8 → sub < 8 → bit (s.reg (fabPort e + 4)) sub = true → ∃ u, exec (.fabricLinkDown e sub) s = .next u ∧
    bit (u.reg (fabPort e + 4)) sub = false ∧ (∀ i < 64, i ≠ sub → bit (u.reg (fabPort e + 4)) i = bit (s.reg (fabPort e + 4)) i) ∧ u.fab = s.fab ∧ u.mem = s.mem) ∧
  (∀ s e sub kind fields, s.alive = true → e < 8 → sub < 8 → bit (s.reg (fabPort e + 4)) sub = true →
    let mine := if kind % 2 = 0 then s.subIp4 e sub else s.subIp6 e sub
    (kind < 4 → mine ≠ 0 → nth fields 0 0 = mine → ∃ u, exec (.frameReceive e sub kind fields) s = .next u ∧ u.fab = s.fab ∧
      u.out = s.out ++ [.frame e sub kind (if kind < 2 then [mine, s.reg (fabPort e + 8) + sub] else fields)] ∧
      u.reg (fabPort e + 0x10) = min (s.reg (fabPort e + 0x10) + 1) (2 ^ 64 - 1)) ∧
    (4 < kind ∨ (kind < 4 ∧ nth fields 0 0 ≠ mine) → ∃ u, exec (.frameReceive e sub kind fields) s = .next u ∧ u.fab = s.fab ∧ u.out = s.out ∧
      u.reg (fabPort e + 0x20) = min (s.reg (fabPort e + 0x20) + 1) (2 ^ 64 - 1)) ∧
    (kind = 4 → ∃ u, exec (.frameReceive e sub kind fields) s = .next u ∧ u.fab = s.fab ∧ u.out = s.out ∧ u.reg (fabPort e + 0x20) =
      if bit (s.reg 0x10010) 0 = true ∧ bits (s.reg 0x10010) 3 1 = e ∧ sub = 0 then s.reg (fabPort e + 0x20)
      else min (s.reg (fabPort e + 0x20) + 1) (2 ^ 64 - 1))) ∧
  (∀ s f via, s.alive = true → f < 65536 → let x := s.flow f
    let v := s.pays (s.frameDue f via 6 0 none)
    x.st = 1 → 1 ≤ x.owed → x.owedAt + 2000 ≤ s.time → s.pickSub f none = some via →
    (v.2 = true → ∃ u, exec (.ackDelayTimer f) s = .next u ∧ u.mem = s.mem ∧
      (u.flow f).owed = 0 ∧ (u.flow f).rcum = x.rcum ∧ x.limit ≤ (u.flow f).limit ∧
      ∃ pk : Packet, u.out = v.1.out ++ [.packet via.1 via.2 pk] ∧ pk.kind = 6 ∧ nth pk.fields 0 0 = (x.rcum + 2 ^ 32 - 1) % 2 ^ 32 ∧
        nth pk.fields 1 0 = (u.flow f).limit - x.rcum) ∧
    (v.2 = false → ∃ u, exec (.ackDelayTimer f) s = .next u ∧ u.mem = s.mem ∧ u.flow f = { x with ackDue := true })) ∧
  (∀ s f psn k via, s.alive = true → f < 65536 → psn < 2 ^ 32 → let x := s.flow f
    let y := s.updFlow f (fun x => { x with cwnd := 256 })
    x.sent.find? (fun k => k.psn == psn) = some k → x.st = 1 → k.refused = none → k.again = none → k.sentAt + x.timer k ≤ s.time →
    (k.sends < 12 → y.pickSub f (some k.via) = some via → (y.pays (y.frameDue f via k.kind k.data.length k.cid)).2 = true →
      ∃ u, exec (.retransmitTimeout f psn) s = .next u ∧ (u.flow f).cwnd = 256 ∧
      (u.flow f).retx = min (x.retx + 1) (2 ^ 64 - 1) ∧ (∃ z ∈ (u.flow f).sent, z.psn = psn ∧ z.sends = k.sends + 1 ∧ z.sentAt = s.time ∧ z.via = via) ∧ u.mem = s.mem) ∧
    (k.sends < 12 → y.pickSub f (some k.via) = some via → (y.pays (y.frameDue f via k.kind k.data.length k.cid)).2 = false →
      ∃ u, exec (.retransmitTimeout f psn) s = .next u ∧ (u.flow f).cwnd = 256 ∧ (∃ z ∈ (u.flow f).sent, z.psn = psn ∧ z.again = some true) ∧ u.mem = s.mem) ∧
    (12 ≤ k.sends → ∃ u, exec (.retransmitTimeout f psn) s = .next u ∧ (u.flow f).st = 2)) ∧
  (∀ s f, s.alive = true → f < 65536 → (s.flow f).st = 1 → (s.flow f).sent ≠ [] → (s.flow f).advance + 20000000 ≤ s.time →
    ∃ u, exec (.flowProgressTimeout f) s = .next u ∧ (u.flow f).st = 2) ∧
  (∀ s f psn k t via, s.alive = true → f < 65536 → psn < 2 ^ 32 → (s.flow f).sent.find? (fun k => k.psn == psn) = some k → k.refused = some t →
    k.again = none → (s.flow f).st = 1 → t + 4000 ≤ s.time → s.pickSub f (some k.via) = some via →
    let granted := (s.pays (s.frameDue f via k.kind k.data.length k.cid)).2
    ∃ u, exec (.nakRetryTimer f psn) s = .next u ∧ (u.flow f).cwnd = (s.flow f).cwnd ∧ u.mem = s.mem ∧
      (granted = true → (u.flow f).retx = min (s.flow f).retx (2 ^ 64 - 1) ∧
        ∃ z ∈ (u.flow f).sent, z.psn = psn ∧ z.sends = k.sends ∧ z.sentAt = s.time ∧ z.refused = none) ∧
      (granted = false → (u.flow f).retx = (s.flow f).retx ∧ ∃ z ∈ (u.flow f).sent, z.psn = psn ∧ z.again = some false)) ∧
  (∀ s f t k, s.alive = true → f < 65536 → (s.flow f).retireAt = some t → (s.flow f).rxNext = some k → t ≤ s.time →
    ∃ u, exec (.keyRetireTimer f) s = .next u ∧ u.flow f = { s.flow f with rx := k, rxNext := none, rxEpoch := !(s.flow f).rxEpoch, retireAt := none } ∧
      (∀ g, g ≠ f → u.flow g = s.flow g) ∧ u.regs = s.regs ∧ u.mem = s.mem)

namespace Sys2Proof.Machine

/-- A sequenced packet passes the checks of rows 1 to 4 of Table 18.7 and the common rules as packet `n` of its flow, leaving `v` for its
contents (R408, R410, R417). -/
def State.Accepts (s : State) (e kind : Nat) (p : RxPacket) (v : State) (n : Nat) : Prop :=
  bits (s.reg (fabPort e + 4)) 7 0 ≠ 0 ∧ s.rxFront e kind p = (v, true) ∧ (v.flow p.flow).fullPsn p.psn = (n : Int) ∧
  (v.flow p.flow).rcum ≤ n ∧ n < (v.flow p.flow).limit ∧ (v.flow p.flow).rgot.contains n = false ∧ p.reserved = false ∧ p.lenOk = true ∧
  p.data.length ≤ v.maxPayload p.flow

/-- Packet `n` of flow `f` counts as received. -/
def State.Received (u : State) (f n : Nat) : Prop := n < (u.flow f).rcum ∨ n ∈ (u.flow f).rgot

end Sys2Proof.Machine

/-- Received packets (R408, R410, R412, R417, R418, R424, R427, R430): a put changes exactly its bytes; a get is answered with the bytes asked
for; an atomic adds its element; answers and collective data reach their operation; a duplicate changes nothing; an ACK advances the window; a
NAK sends the packet again later or fails its operation; an ABORT ends its collective. State `a` is that in which the packet's traffic is
admitted (log entry 196). -/
def Obligations.FabricReceive : Prop :=
  (∀ s a e p v n x, s.alive = true → e < 8 → Ready s p.ecc (fun s => s.doQuillPut e p) a → a.Accepts e 1 p v n →
    plainPkt p = true → pf p 5 = 0 → p.data ≠ [] → pf p 1 = p.data.length →
    v.remoteCheck p.flow (pf p 0) p.data.length 2 = none → v.anyUnzeroed (pf p 0) p.data.length = false → pf p 0 % 64 + p.data.length ≤ 64 →
    v.phys (pf p 0) = some x → v.pageRetired x = false → (v.sector x).poison = false → v.outcome (x / 64 * 64) = .ok →
    ∃ u, exec (.quillPut e p) s = .next u ∧ u.Received p.flow n ∧ u.units = a.units ∧
      ∀ y, memByte u.mem y = if x ≤ y ∧ y < x + p.data.length then BitVec.ofNat 8 (nth p.data (y - x) 0) else memByte a.mem y) ∧
  (∀ s a e p v n, s.alive = true → e < 8 → Ready s p.ecc (fun s => s.doQuillPut e p) a → bits (a.reg (fabPort e + 4)) 7 0 ≠ 0 →
    a.rxFront e 1 p = (v, true) → (v.flow p.flow).fullPsn p.psn = (n : Int) → n < (v.flow p.flow).rcum →
    ∃ u, exec (.quillPut e p) s = .next u ∧ u.mem = a.mem ∧ (u.flow p.flow).rcum = (v.flow p.flow).rcum ∧
      ((u.flow p.flow).owed = 0 ∨ (u.flow p.flow).ackDue = true)) ∧
  (∀ s a e p v n w d, s.alive = true → e < 8 → Ready s p.ecc (fun s => s.doGetReq e p) a → a.Accepts e 2 p v n →
    plainPkt p = true → pf p 5 = 0 → p.data = [] → 1 ≤ pf p 1 → pf p 1 ≤ 16777216 → 1 ≤ v.maxPayload p.flow →
    v.remoteCheck p.flow (pf p 0) (pf p 1) 1 = none → v.anyUnzeroed (pf p 0) (pf p 1) = false → v.remoteRead p.flow (pieces (pf p 0) (pf p 1)) = (w, some d) →
    ∃ u, exec (.getReq e p) s = .next u ∧ u.Received p.flow n ∧ u.mem = w.mem ∧ ∃ ks : List TxPkt, (ks.map (·.data)).flatten = d ∧
      (∀ k ∈ ks, k.kind = 3 ∧ k.opid = p.opid ∧ k.data.length ≤ v.maxPayload p.flow) ∧
      ((u.flow p.flow).sent ++ (u.flow p.flow).queue).map (·.data) = ((w.flow p.flow).sent ++ (w.flow p.flow).queue ++ ks).map (·.data)) ∧
  (∀ s a e p host v n, s.alive = true → e < 8 → Ready s (host.ecc ++ p.ecc) (fun s => s.doGetResp e p host) a → a.Accepts e 3 p v n →
    plainPkt p = true → pf p 5 = 0 → p.data ≠ [] → pf p 1 = p.data.length → pf p 2 = pf p 0 →
    let find := v.fab.ops.find? (fun o => o.id % 2 ^ 32 == p.opid && (o.kind == 2 || o.kind == 8) && o.flows == [p.flow])
    (find = none → ∃ u, exec (.getResp e p host) s = .next u ∧ u.Received p.flow n ∧ u.mem = a.mem ∧ u.fab.ops = a.fab.ops) ∧
    (∀ o w d, find = some o → o.kind = 2 → pf p 0 + p.data.length ≤ o.len →
      v.unitWrite o.cid ⟨4, dieOfTile o.tile⟩ host (o.loc + pf p 0) p.data = (w, .ok d) → o ∈ w.fab.ops →
      ∃ u, exec (.getResp e p host) s = .next u ∧ u.mem = w.mem ∧ { o with got := o.got ++ [(0, 0, pf p 0, p.data.length)] } ∈ u.fab.ops) ∧
    (∀ o, find = some o → o.kind = 8 → pf p 0 + p.data.length ≤ o.len →
      let data := o.data.take (pf p 0) ++ p.data ++ o.data.drop (pf p 0 + p.data.length)
      ∃ u, exec (.getResp e p host) s = .next u ∧ u.mem = a.mem ∧ { o with data := data, got := o.got ++ [(0, 0, pf p 0, p.data.length)] } ∈ u.fab.ops)) ∧
  (∀ s a e p v n x, s.alive = true → e < 8 → Ready s p.ecc (fun s => s.doAtomicRx e p) a → a.Accepts e 4 p v n → let typ := pf p 5 % 16
    let w := redBytes typ
    plainPkt p = true → bits (pf p 5) 7 6 = 0 → typ < 7 → redScaled typ = false → bits (pf p 5) 5 4 = 0 → p.data.length = w → pf p 1 = w → aligned (pf p 0) w = true →
    v.remoteCheck p.flow (pf p 0) w 3 = none → v.anyUnzeroed (pf p 0) w = false → v.phys (pf p 0) = some x →
    v.pageRetired x = false → (v.sector x).poison = false → v.outcome (x / 64 * 64) = .ok →
    ∃ u, exec (.atomicRx e p) s = .next u ∧ u.Received p.flow n ∧
      ∀ y, memByte u.mem y = if x ≤ y ∧ y < x + w
        then BitVec.ofNat 8 ((redElem 0 typ (fieldOf (v.readMem x w) 0 w) (fieldOf p.data 0 w) 0 127 127).1 / 256 ^ (y - x)) else memByte a.mem y) ∧
  (∀ s a e p host v n r o, s.alive = true → e < 8 → Ready s (host.ecc ++ p.ecc) (fun s => s.doColl e p host) a → a.Accepts e 5 p v n →
    p.data ≠ [] → pf p 1 = p.data.length → v.senderRank p.flow (pf p 3) = some r →
    v.fab.ops.find? (fun o => o.group == some (pf p 3) && o.seq == pf p 6 && 4 ≤ o.kind && o.kind ≤ 6) = some o → pf p 5 = o.info →
    pf p 4 ≤ (if o.kind = 4 then 1 else 0) → let z := o.span (pf p 4) r
    z.1 ≤ pf p 0 → pf p 0 + p.data.length ≤ z.1 + z.2 → pf p 2 = pf p 0 - z.1 →
    (∀ w d, (o.kind = 4 → pf p 4 = 1) → v.unitWrite o.cid ⟨4, dieOfTile o.tile⟩ host (o.rem + pf p 0) p.data = (w, .ok d) → o ∈ w.fab.ops →
      ∃ u, exec (.coll e p host) s = .next u ∧ u.mem = w.mem ∧ { o with got := o.got ++ [(pf p 4, r, pf p 0, p.data.length)] } ∈ u.fab.ops) ∧
    (∀ w c ans, o.kind = 4 → pf p 4 = 0 → v.opWrite o host (o.stageAt r + (pf p 0 - z.1)) p.data (0, r, pf p 0, p.data.length) = (w, .ok) →
      w.collCombineAll o.id host = (c, ans) → ans ≠ .missing → ∃ u, exec (.coll e p host) s = .next u ∧ u.mem = c.mem)) ∧
  (∀ s a e p v c, s.alive = true → e < 8 → Ready s p.ecc (fun s => s.doAck e p) a → bits (a.reg (fabPort e + 4)) 7 0 ≠ 0 →
    a.rxFront e 6 p = (v, true) → p.reserved = false → p.psn = 0 → p.lenOk = true → p.data = [] → let x := v.flow p.flow
    x.cum ≤ c → c ≤ x.psn → c - x.cum < 2 ^ 31 → pf p 0 = (c + 2 ^ 32 - 1) % 2 ^ 32 →
    ∃ u, exec (.ack e p) s = .next u ∧ (u.flow p.flow).cum = c ∧ (∀ k ∈ (u.flow p.flow).sent, c ≤ k.psn) ∧ u.mem = a.mem) ∧
  (∀ s a e p v k, s.alive = true → e < 8 → Ready s p.ecc (fun s => s.doNak e p) a → bits (a.reg (fabPort e + 4)) 7 0 ≠ 0 →
    a.rxFront e 7 p = (v, true) → p.reserved = false → p.psn = 0 →
    p.lenOk = true → p.data = [] → (v.flow p.flow).sent.find? (fun k => k.psn % 2 ^ 32 == pf p 0) = some k →
    (pf p 1 = 9 → ∃ u, exec (.nak e p) s = .next u ∧ u.mem = a.mem ∧ (u.flow p.flow).sent =
      (v.flow p.flow).sent.map (fun z => if z.psn = k.psn then { z with refused := some a.time } else z)) ∧
    (∀ o, 1 ≤ pf p 1 → pf p 1 ≤ 10 → pf p 1 ≠ 9 → v.fab.ops.find? (fun o => o.id == k.op) = some o → o.kind ≤ 7 →
      ∃ u, exec (.nak e p) s = .next u ∧ (Live v o.cid → (u.cmd o.cid).cause = (v.cmd o.cid).cause.or (some (3, 7))))) ∧
  (∀ s a e p v n r, s.alive = true → e < 8 → Ready s p.ecc (fun s => s.doAbortRx e p) a → a.Accepts e 8 p v n →
    1 ≤ pf p 1 → pf p 1 ≤ 2 → pf p 2 ≤ 7 → p.data = [] → v.senderRank p.flow (pf p 0) = some r →
    ∃ u, exec (.abortRx e p) s = .next u ∧ (u.grp (pf p 0)).ended.contains (pf p 3) = true ∧
      ∀ o, v.fab.ops.find? (fun o => o.group == some (pf p 0) && o.seq == pf p 3 && 4 ≤ o.kind && o.kind ≤ 6) = some o → Live v o.cid →
        (u.cmd o.cid).cause = (v.cmd o.cid).cause.or (some (if pf p 1 = 1 then (6, pf p 2) else (3, 7))))

/-- Flow commands and groups (R406-R409, R426): a flow opens in the starting state under its keys, or the command's error says why not; it
closes, starts again, takes a second receiving key, changes its sending key; a group is valid when its list and members are sound. -/
def Obligations.FlowCommands : Prop :=
  (∀ s port r, s.alive = true → port < 2 → s.regsOpen = true → let f := s.flowSel
    let x := s.flow f
    (x.st = 0 → s.flowDescOk f = true → s.serving (s.flowPart f) = true → cfgPart s.folio.active (s.flowPart f) = some r → s.openFlows (s.flowPart f) < r.f 48 4 →
      bits x.keySet 7 0 = 255 → bit (s.reg 0x400000) 0 = true → s.fab.devSet = true →
      ∃ u, exec (.flowOpen port) s = .next u ∧ u.flow f = { st := 1, keys := x.keys, tx := x.keys.take 4, rx := (x.keys.drop 4).take 4 } ∧
        (∀ g, g ≠ f → u.flow g = s.flow g) ∧ u.regs = s.regs ∧ u.mem = s.mem) ∧
    (x.st ≠ 0 → ∃ u, exec (.flowOpen port) s = .next u ∧ u.flow f = { x with err := 3 } ∧ u.regs = s.regs) ∧
    (x.st = 0 → s.flowDescOk f = false → ∃ u, exec (.flowOpen port) s = .next u ∧ u.flow f = { x with err := 2 } ∧ u.regs = s.regs) ∧
    (x.st ≠ 0 → ∃ u, exec (.flowClose port) s = .next u ∧ (u.flow f).st = 0) ∧
    (x.st = 2 ∨ x.st = 3 → ∃ u, exec (.flowReset port) s = .next u ∧
      u.flow f = { st := 1, keys := x.keys, keySet := x.keySet, tx := x.tx, rx := x.rx } ∧ (∀ g, g ≠ f → u.flow g = s.flow g) ∧ u.regs = s.regs) ∧
    (x.st = 1 → x.retireAt = none → bits x.keySet 11 8 = 15 → ∃ u, exec (.rxNext port) s = .next u ∧ (u.flow f).rxNext = some (x.keys.drop 8) ∧
      (u.flow f).keySet = x.keySet % 256 ∧ (u.flow f).rx = x.rx ∧ (u.flow f).rxEpoch = x.rxEpoch ∧ (u.flow f).err = 0 ∧ u.regs = s.regs) ∧
    (x.st = 1 → bits x.keySet 3 0 = 15 → ∃ u, exec (.switchTx port) s = .next u ∧ (u.flow f).tx = x.keys.take 4 ∧ (u.flow f).epoch = !x.epoch ∧
      (u.flow f).rx = x.rx ∧ (u.flow f).err = 0 ∧ u.mem = s.mem)) ∧
  (∀ s port value fl, s.alive = true → port < 2 → value < 2 ^ 64 → s.regsOpen = true → let g := s.field 0x400300 9 0
    let v := value &&& (ones 63 28 ||| 3)
    (s.grpBusy g = true → exec (.groupDefine port value) s = .next { s.barError port 0x400308 8 value with pending := s.pending }) ∧
    (s.grpBusy g = false → bit v 0 = true → 2 ≤ gRanks v → gRanks v ≤ 4096 → gRank v < gRanks v →
      s.flowList (gPart v) (gRanks v) (s.reg (selKey 0x400310 g)) = some fl →
      (∀ i f, fl[i]? = some f → i ≠ gRank v → (s.flow f).st = 1 ∧ s.flowPart f = gPart v) →
      ∃ u, exec (.groupDefine port value) s = .next u ∧ u.grp g = { flows := fl, ended := [] } ∧ u.grpDesc g = v ∧ u.mem = s.mem) ∧
    (s.grpBusy g = false → bit v 0 = false ∨ gRanks v < 2 ∨ 4096 < gRanks v ∨ gRanks v ≤ gRank v →
      ∃ u, exec (.groupDefine port value) s = .next u ∧ (u.grp g).flows = [] ∧ bit (u.grpDesc g) 0 = false ∧ u.mem = s.mem))

namespace Sys2Proof.Machine

/-- The next descriptor of task `task` of command `cid` can be taken as operation `o`, its read leaving `v`; `m` is the ring's size log₂
(R420-R422). -/
def State.Posts (s : State) (cid task kind : Nat) (host : HostView) (v : State) (o : QOp) (m : Nat) : Prop :=
  (∃ base z, (s.cmd cid).posts[task]? = some (base, m, z) ∧ ∃ d,
    s.unitRead cid ⟨4, s.postTile cid task / 16⟩ host (base + 64 * (s.posted cid task).head) 64 = (v, .ok d) ∧ o = v.descOp cid task d ∧
    v.descFaulty cid d o = false) ∧
  s.mayPost cid task = true ∧ (s.posted cid task).head ≠ (s.posted cid task).tail ∧ o.kind = kind ∧ (o.fence = true → v.fenceHolds o = false)

/-- The data of the packets of flow `f` that are sent and not acknowledged, then of those that wait. -/
def State.onFlow (s : State) (f : Nat) : List (List Nat × List Nat) := ((s.flow f).sent ++ (s.flow f).queue).map (fun k => (k.fields, k.data))

end Sys2Proof.Machine

/-- Quill operations (R420-R427, R432): a task's write moves its ring's tail; a posted put, get or atomic add becomes an operation whose
packets carry its bytes in order; a collective keeps its local data and sends each rank its part; a multicast keeps what it fans out; a
completed operation raises its token; an integer all-reduce sums modulo 2³². State `a` is that in which what the command moves is admitted
(log entry 196). -/
def Obligations.QuillPosts : Prop :=
  (∀ s q seq task tail r, s.alive = true → Instr.wf (.postWordWrite q seq task tail) = true → let cid := cidOf q seq
    (s.cmd cid).posts[task]? = some r → s.mayPost cid task = true → tail < 2 ^ r.2.1 → ∃ u, exec (.postWordWrite q seq task tail) s = .next u ∧
      u.posted cid task = { s.posted cid task with tail := tail } ∧ u.mem = s.mem ∧ u.regs = s.regs) ∧
  (∀ s q seq task host a v o m w d, s.alive = true → Instr.wf (.put q seq task host) = true → let cid := cidOf q seq
    let f := nth o.flows 0 0
    v.unitRead cid ⟨4, a.postTile cid task / 16⟩ host o.loc o.len = (w, .ok d) → let op := { o with id := w.fab.nextOp }
    (Ready s host.ecc (fun s => s.doPut q seq task host) a → a.Posts cid task 1 host v o m →
      ∃ u, exec (.put q seq task host) s = .next u ∧ op ∈ u.fab.ops ∧
      (u.posted cid task).head = ((a.posted cid task).head + 1) % 2 ^ m ∧ u.mem = w.mem ∧
      u.onFlow f = w.onFlow f ++ (dataPkts 1 op (v.maxPayload f) 0 d (fun off => o.rem + off) 0 0).map (fun k => (k.fields, k.data))) ∧
    (Ready s host.ecc (fun s => s.doAtomicAdd q seq task host) a → a.Posts cid task 3 host v o m →
      ∃ u, exec (.atomicAdd q seq task host) s = .next u ∧ op ∈ u.fab.ops ∧
      (u.posted cid task).head = ((a.posted cid task).head + 1) % 2 ^ m ∧ u.mem = w.mem ∧
      (redFloat o.dtype = true → bit (u.cmd cid).numsum 14 = true) ∧
      u.onFlow f = w.onFlow f ++ (dataPkts 4 op (w.maxPayload f) 0 d (fun off => o.rem + off) 0 (o.dtype + 16 * o.rop)).map (fun k => (k.fields, k.data)))) ∧
  (∀ kind o m d addr step info, 1 ≤ m → ((dataPkts kind o m 0 d addr step info).map (·.data)).flatten = d ∧
    ∀ k ∈ dataPkts kind o m 0 d addr step info, k.kind = kind ∧ 1 ≤ k.data.length ∧ k.data.length ≤ m ∧ nth k.fields 0 0 = addr k.off ∧
      nth k.fields 1 0 = k.data.length ∧ nth k.fields 2 0 = k.off) ∧
  (∀ s q seq task host a v o m, s.alive = true → Instr.wf (.get q seq task host) = true → let cid := cidOf q seq
    Ready s host.ecc (fun s => s.doGet q seq task host) a → a.Posts cid task 2 host v o m → let op := { o with id := v.fab.nextOp }
    ∃ u, exec (.get q seq task host) s = .next u ∧ op ∈ u.fab.ops ∧ (u.posted cid task).head = ((a.posted cid task).head + 1) % 2 ^ m ∧ u.mem = v.mem ∧
      u.onFlow (nth o.flows 0 0) = v.onFlow (nth o.flows 0 0) ++ (getPkts op).map (fun k => (k.fields, k.data))) ∧
  (∀ s q seq task host a v o m w d g, (∀ o ∈ w.fab.ops, o.id < w.fab.nextOp) → s.alive = true → Instr.wf (.allReduce q seq task host) = true → let cid := cidOf q seq
    Ready s host.ecc (fun s => s.doAllReduce q seq task host) a → a.Posts cid task 4 host v o m →
    v.unitRead cid ⟨4, a.postTile cid task / 16⟩ host o.loc o.len = (w, .ok d) → o.group = some g →
    (w.grp g).ended.contains o.seq = false → (∀ f ∈ o.uses, (w.flow f).st = 1) → 0 < (o.flows.length - 1) * o.chunkLen o.my →
    ∃ u, exec (.allReduce q seq task host) s = .next u ∧ { o with id := w.fab.nextOp, src := d } ∈ u.fab.ops ∧
      (u.posted cid task).head = ((a.posted cid task).head + 1) % 2 ^ m ∧ u.mem = w.mem) ∧
  (∀ s q seq task host a v o m w d g x y, s.alive = true → Instr.wf (.allToAll q seq task host) = true → let cid := cidOf q seq
    let unit : UnitId := ⟨4, a.postTile cid task / 16⟩
    o.group = some g → (w.grp g).ended.contains o.seq = false → (∀ f ∈ o.uses, (w.flow f).st = 1) →
    (Ready s host.ecc (fun s => s.doAllToAll q seq task host) a → a.Posts cid task 5 host v o m →
      v.unitRead cid unit host o.loc (o.len * o.flows.length) = (w, .ok d) →
      (w.addOp o).1.unitWrite cid unit host (o.rem + o.my * o.len) ((d.drop (o.my * o.len)).take o.len) = (x, .ok y) →
      ∃ u, exec (.allToAll q seq task host) s = .next u ∧ u.mem = x.mem ∧ (u.posted cid task).head = ((x.posted cid task).head + 1) % 2 ^ m) ∧
    (Ready s host.ecc (fun s => s.doAllGather q seq task host) a → a.Posts cid task 6 host v o m →
      v.unitRead cid unit host o.loc o.len = (w, .ok d) →
      (w.addOp o).1.unitWrite cid unit host (o.rem + o.my * o.len) d = (x, .ok y) →
      ∃ u, exec (.allGather q seq task host) s = .next u ∧ u.mem = x.mem ∧ (u.posted cid task).head = ((x.posted cid task).head + 1) % 2 ^ m)) ∧
  (∀ s q seq task host a v o m w d, s.alive = true → Instr.wf (.mcastPut q seq task host) = true → let cid := cidOf q seq
    Ready s host.ecc (fun s => s.doMcastPut q seq task host) a → a.Posts cid task 7 host v o m →
    v.unitRead cid ⟨4, a.postTile cid task / 16⟩ host o.loc o.len = (w, .ok d) → (∀ f ∈ o.uses, (w.flow f).st = 1) →
    ∃ u, exec (.mcastPut q seq task host) s = .next u ∧ (∃ op ∈ u.fab.ops, op.id = w.fab.nextOp ∧ op.src = d ∧ op.kind = 7) ∧
      (u.posted cid task).head = ((a.posted cid task).head + 1) % 2 ^ m ∧ u.mem = w.mem) ∧
  (∀ s op o k t, s.alive = true → s.fab.ops.find? (fun o => o.id == op) = some o → s.opDone o = true → o.token = some k →
    (Tbl.get {} s.saved (frameKey o.cid o.task)).task = none → s.taskTile o.cid o.task = some t → k < (s.tile t).tokens.length → nth (s.tile t).tokens k 0 < 255 →
    ∃ u, exec (.quillOperationComplete op) s = .next u ∧ (u.tile t).tokens = (s.tile t).tokens.set k (nth (s.tile t).tokens k 0 + 1) ∧
      (∀ x ∈ u.fab.ops, x.id ≠ op) ∧ u.mem = s.mem ∧ u.regs = s.regs) ∧
  (∀ xs : List Nat, xs ≠ [] → (∀ x ∈ xs, x < 2 ^ 32) → (collCombine 5 0 xs).1 = xs.sum % 2 ^ 32)

/-- The start, owner slots and boot firmware updates (R274, R435-R447, Table 19.5, Table 19.6): a valid image runs, the lead passes to C4, the
channels are reported and the self-test record is consumed, the start test runs without one, the committed folio decides PKG_STATE. -/
def Obligations.Start : Prop :=
  (∀ s, s.alive = true → s.stage = 0 → s.Shaped → let a := s.flash.bootSlot
    let img (k : Nat) : List Nat := nth s.flash.boot k []
    (∀ k, k < 2 → s.bfwValid (img k) = true → (k = a ∨ s.bfwValid (img a) = false) → ∃ u, exec .bootFirmwareStart s = .next u ∧ u.stage = 1 ∧
      u.flash = { s.flash with bootSlot := k } ∧ u.nib = { s.nib with bootRun := img k } ∧ u.field 0x800000 4 4 = k ∧ u.mem = s.mem) ∧
    (s.bfwValid (img a) = false → s.bfwValid (img (1 - a)) = false → ∃ u, exec .bootFirmwareStart s = .next u ∧ u.stage = 15 ∧ u.flash = s.flash ∧ u.nib = s.nib)) ∧
  (∀ s, s.alive = true → s.stage = 0 → 300000000 ≤ s.time → ∃ u, exec .bootLeadTimeout s = .next u ∧ u.leadDie = 4 ∧ u.stage = 0 ∧ u.mem = s.mem) ∧
  (∀ s mods, s.alive = true → Instr.wf (.trainingComplete mods) = true → s.stage = 1 → let code := s.recordCheck s.flash.record
    (code ≠ 0 → ∃ u, exec (.trainingComplete mods) s = .next u ∧ u.stage = 4 ∧ u.field 0x800000 23 16 = code ∧
      u.flash = { s.flash with record := s.flash.record.set 10 0 } ∧ u.mem = s.mem ∧
      ∀ d < 8, ∀ a b, mods[2 * d]? = some a → mods[2 * d + 1]? = some b →
        u.reg (0x104000 + 0x80 * d) = moduleStatus a (pairFault (2 * d) a b).isSome ∧ u.reg (0x104040 + 0x80 * d) = moduleStatus b (pairFault (2 * d) a b).isSome) ∧
    (code = 0 → ∃ u, exec (.trainingComplete mods) s = .next u ∧ u.stage = 5 ∧ u.field 0x800000 23 16 = 0 ∧ bit (u.reg 0x800000) 6 = true ∧
      u.flash.record = s.flash.record.set 10 0 ∧ u.nib.recDig = Config.sha384 s.flash.record)) ∧
  (∀ s fails, s.alive = true → Instr.wf (.startTestComplete fails) = true → s.stage = 4 → ∃ u, exec (.startTestComplete fails) s = .next u ∧
    u.stage = 5 ∧ bit (u.reg 0x800000) 7 = true) ∧
  (∀ s, s.alive = true → s.stage = 5 → s.nib.down = false →
    (Settled s → s.folio.op = none → s.nib.fatal = [] → ∃ u, exec .startDone s = .next u ∧ u.stage = 6 ∧ u.reg 0x800008 = s.time % 2 ^ 64 ∧
      u.pkgState = (if s.flash.committed.isNone then 0 else 3) ∧ u.folio = s.folio ∧ u.mem = s.mem) ∧
    (∀ a o k, Ready s [] State.doStartDone a → a.stage = 5 → a.nib.down = false → a.folio.op = some o → o.slot = some k → o.patches = [] → ∃ u, exec .startDone s = .next u ∧ u.stage = 6 ∧ u.folio.op = none ∧
      u.folio.active = o.config ∧ u.folio.full = o.image ∧ u.reg 0x20008 = folioSerial o.image % 2 ^ 64)) ∧
  (∀ s, s.alive = true → s.stage = 6 → s.memc.drainT2 = true → ∃ u, exec .t2ZeroingComplete s = .next u ∧ u.memc.drainT2 = false ∧ u.mem = s.mem) ∧
  (∀ s port value data, s.alive = true → port < 2 → value < 2 ^ 64 → bit value 0 = true → s.nib.owner = none →
    let good : Prop := data.length = 144 ∧ ∀ k, s.flash.owners.getLast? = some k →
      Config.ecdsaVerify k (data.take 48 ++ natBytes 8 Config.serial) (fieldOf data 48 96) = true
    (s.flash.owners.length < 4 → good → ∃ u, exec (.nibOwnerSet port value data) s = .next u ∧ u.nib = { s.nib with owner := some (fieldOf data 0 48) } ∧
      bit (u.reg 0x80003C) 16 = true ∧ u.field 0x80003C 15 8 = 0 ∧ u.flash = s.flash) ∧
    (4 ≤ s.flash.owners.length ∨ ¬ good → ∃ u, exec (.nibOwnerSet port value data) s = .next u ∧ u.nib = s.nib ∧
      u.field 0x80003C 15 8 = (if 4 ≤ s.flash.owners.length then 2 else 1))) ∧
  (∀ s d, s.alive = true → s.nib.owner = some d → ∃ u, exec .ownerSetComplete s = .next u ∧ u.flash = { s.flash with owners := s.flash.owners ++ [d] } ∧
    u.ownerKey = some d ∧ u.nib.owner = none ∧ bit (u.reg 0x80003C) 16 = false) ∧
  (∀ s port value data, s.alive = true → port < 2 → value < 2 ^ 64 → bit value 0 = true → s.nib.install = none → s.nib.down = false →
    let size := bits value 31 8
    (4096 ≤ size → size ≤ 8388608 → data.length = size → fieldOf data 16 4 = size → bfwSigned data = true → counterOf s.flash.bootRows ≤ bfwSecver data →
      ∃ u, exec (.nibBfwInstall port value data) s = .next u ∧ u.nib = { s.nib with install := some data } ∧ bit (u.reg 0x80002C) 0 = true ∧ u.flash = s.flash) ∧
    (bfwSigned data = false → ∃ u, exec (.nibBfwInstall port value data) s = .next u ∧ u.nib = s.nib ∧ u.field 0x80002C 15 8 ∈ [1, 3])) ∧
  (∀ s b, s.alive = true → s.nib.install = some b → s.Shaped → let k := 1 - s.flash.bootSlot
    (∃ u, exec (.bfwInstallComplete true) s = .next u ∧ u.flash = { s.flash with boot := s.flash.boot.set k b, bootSlot := k } ∧ u.nib.install = none ∧
      bit (u.reg 0x80002C) 0 = false ∧ bit (u.reg 0x80002C) 1 = true) ∧
    (∃ u, exec (.bfwInstallComplete false) s = .next u ∧ u.flash = s.flash ∧ u.nib.install = none ∧ u.field 0x80002C 15 8 = 4))

namespace Sys2Proof.Machine

/-- One answer on a port's function and nothing else. -/
def AnswersSpdm (i : Instr) (s : State) (port code : Nat) (fields : List Nat) : Prop :=
  exec i s = .next (s.emit (.spdm code (port :: fields)))

end Sys2Proof.Machine

/-- SPDM and the shutdown (R446-R451): while boot firmware runs and the port is up every request has its answer (codes and bits of DSP0274:
log entry 43); a shutdown quiesces, flushes, loses memory, tests at 0.80 V and writes its signed record, or goes straight to ready. -/
def Obligations.SpdmAndShutdown : Prop :=
  (∀ s port, s.alive = true → port < 2 → s.portUp port = true → 1 ≤ s.stage → s.stage ≤ 6 → s.phase ≠ 5 →
    AnswersSpdm (.getVersion port) s port 0x04 [0x12, 0x13] ∧ AnswersSpdm (.getCapabilities port) s port 0x61 [0x16] ∧
    AnswersSpdm (.negotiateAlgorithms port) s port 0x63 [0x80, 0x02, 0x04] ∧ AnswersSpdm (.getDigests port) s port 0x01 (natBytes 48 chainDigest) ∧
    (∀ off len, let l := (Config.certChain.drop off).take len
      (off < Config.certChain.length → AnswersSpdm (.getCertificate port off len) s port 0x02 ([l.length, Config.certChain.length - off - l.length] ++ l)) ∧
      (Config.certChain.length ≤ off → AnswersSpdm (.getCertificate port off len) s port 0x7F [1])) ∧
    (∀ nonce, let body := natBytes 48 chainDigest ++ natBytes 32 nonce
      AnswersSpdm (.challenge port nonce 0) s port 0x03 (body ++ natBytes 96 (Config.identitySign body)) ∧
      ∀ n, n ≠ 0 → n ≠ 1 → n ≠ 255 → AnswersSpdm (.challenge port nonce n) s port 0x7F [1]) ∧
    (∀ nonce, AnswersSpdm (.getMeasurements port 0 false nonce) s port 0x60 [10]) ∧
    (∀ i nonce, 1 ≤ i → i ≤ 10 → let l := 1 :: i :: measType i :: (s.meas i).length :: s.meas i
      AnswersSpdm (.getMeasurements port i false nonce) s port 0x60 l ∧
      AnswersSpdm (.getMeasurements port i true nonce) s port 0x60 (l ++ natBytes 96 (Config.identitySign (l ++ natBytes 32 nonce)))) ∧
    ∀ code, AnswersSpdm (.spdmUnsupportedRequest port code) s port 0x7F [7]) ∧
  (∀ s port value, s.alive = true → port < 2 → value < 2 ^ 32 →
    (s.nib.down = true → value % 4 = 1 → exec (.shutdownOff port value) s = .next { s.barError port 0x800010 4 value with pending := s.pending }) ∧
    (s.nib.down = false → value % 4 = 1 → ∃ u, exec (.shutdownOff port value) s = .next u ∧ u.nib = { s.nib with down := true, test := false, ddrTest := false } ∧
      (s.phase = 0 → s.folio.op = none → s.stage = 6 → u.phase = 1 ∧ ∀ p ∈ s.parts, s.serving p = true → u.partState p = 2)) ∧
    (s.nib.down = false → value % 4 = 2 → ∃ u, exec (.shutdownTest port value) s = .next u ∧
      u.nib = { s.nib with down := true, test := true, ddrTest := bit value 2 } ∧ (s.phase = 0 → s.folio.op = none → s.stage = 6 → u.phase = 1))) ∧
  (∀ s, s.alive = true → s.phase = 1 → (∀ c ∈ s.cids, (s.cmd c).st = .fetched) → ∃ u, exec .shutdownQuiesced s = .next u ∧ u.phase = 2 ∧ u.mem = s.mem ∧ u.sched = s.sched) ∧
  (∀ s, s.alive = true → s.phase = 2 → ∃ u, exec .shutdownFlushed s = .next u ∧ (∀ f, (u.flow f).st = 0) ∧
    (∀ a, memByte u.mem a = if 0x80000000000 ≤ a then memByte s.mem a else 0) ∧ u.tiles = [] ∧ u.caches = [] ∧ u.saved = [] ∧
    (s.nib.test = false → u.phase = 5) ∧ (s.nib.test = true → u.phase = 3 ∧ u.nib.from' = s.time ∧ ∀ d < 8, (u.diePace d).vcore = 800)) ∧
  (∀ s fails vmin tj, s.alive = true → s.phase = 3 → Instr.wf (.bistComplete fails vmin tj) = true → ∀ (i : Instr) (done : Bool),
    (i, done) = (.bistComplete fails vmin tj, true) ∨ (∃ die < 8, (i, done) = (.bistPauseLimit die fails vmin tj, false)) →
    ∃ u, exec i s = .next u ∧ u.phase = 4 ∧ u.field 0x800014 31 16 = fails.length ∧ bit (u.reg 0x800014) 3 = done ∧
      u.nib = { s.nib with complete := done, fails := fails, vmin := vmin, tjMax := tj, lasted := s.time - s.nib.from' } ∧ u.flash = s.flash) ∧
  (∀ s, s.alive = true → s.phase = 4 → let b := s.recordBody (s.flash.bistSeq + 1)
    ∃ u, exec .readyForOff s = .next u ∧ u.phase = 5 ∧ u.flash = { s.flash with
      bistSeq := s.flash.bistSeq + 1
      record := b.take 144 ++ natBytes 96 (Config.identitySign b) ++ b.drop 240 } ∧ u.mem = s.mem)

/-- Blot rings, probes, the suspect procedure and the hand-over (R456-R460, R463-R465, R470-R476): a record enters an enabled ring with room
under its next sequence and is counted lost otherwise; software enables a ring, releases records, clears counters; probes are queued, end and
confine a failing unit; a unit is restored, moves a stage on, or is retired; C4 takes the lead. -/
def Obligations.FaultsAndProbes : Prop :=
  (∀ (s : State) b r, r < 17 → s.ringOn r = true → s.ringFull r = false → s.ringBroken r = false → (s.ring r).held = [] → (s.ring r).lostN = 0 → let k := (s.ring r).k
    (s.blot b [r]).out = s.out ++ [.blot r (k % ringSize r) (s.reg (ringReg r) + 64 * (k % ringSize r))
      { b with time := s.time, copy := false, held := false, seq := k % 2 ^ 23, phase := k / ringSize r % 2 == 0 }] ∧
    ((s.blot b [r]).ring r).k = k + 1 ∧ (s.blot b [r]).mem = s.mem ∧ (s.blot b [r]).sched = s.sched) ∧
  (∀ (s : State) b r, r < 17 → s.ringOn r = false → (s.blot b [r]).out = s.out ∧ (s.blot b [r]).reg (ringReg r + 0x14) = min (s.reg (ringReg r + 0x14) + 1) (2 ^ 32 - 1)) ∧
  (∀ s port r, s.alive = true → port < 2 → r < 17 → s.regsOpen = true → s.ringOn r = false → ∃ u, exec (.blotRingEnable port r) s = .next u ∧ u.ringOn r = true ∧
    (u.ring r).k = 0 ∧ (u.ring r).released = 0 ∧ u.reg (ringReg r + 0xC) = 0 ∧ (∀ q, q ≠ r → u.ring q = s.ring q) ∧ u.mem = s.mem ∧ u.out = s.out) ∧
  (∀ s port r value, s.alive = true → port < 2 → r < 17 → value < 2 ^ 64 → s.regsOpen = true → let n := ringSize r
    let head := bits value 11 0
    let rel := (head + n - s.reg (ringReg r + 0xC)) % n
    (head < n → rel ≤ (s.ring r).k - (s.ring r).released → ∃ u, exec (.fltHeadWrite port r value) s = .next u ∧
      (u.ring r).released = (s.ring r).released + rel ∧ u.reg (ringReg r + 0xC) = head ∧
      ((s.ring r).held = [] → (s.ring r).lostN = 0 → (u.ring r).k = (s.ring r).k ∧ u.out = s.out)) ∧
    (n ≤ head ∨ (s.ring r).k - (s.ring r).released < rel →
      exec (.fltHeadWrite port r value) s = .next { s.barError port (ringReg r + 0xC) 4 (trunc 32 value) with pending := s.pending })) ∧
  (∀ s port value, s.alive = true → port < 2 → value < 2 ^ 64 → s.regsOpen = true → bit value 0 = true → ∃ u, exec (.fltOvfClear port value) s = .next u ∧
    u.flt = { s.flt with ovf := s.flt.ovf.filter (fun e => e.1 / 65536 != s.field 0x30400 20 16) } ∧ u.regs = s.regs ∧ u.mem = s.mem) ∧
  (∀ s t, s.alive = true → t < 128 → (s.tile t).task = none → s.tileConfined t = false → s.tileRetired t = false → s.probing 1 t = false →
    (s.probeDue t = true → ∃ u, exec (.probeSampleDue t) s = .next u ∧ u.flt = { s.flt with probes := s.flt.probes ++ [⟨1, t, 0x3F, 0⟩] } ∧ u.regs = s.regs) ∧
    (bit (s.reg 0x30800) 0 = true → ∃ u, exec (.probeIdleTimer t) s = .next u ∧ u.flt = { s.flt with probes := s.flt.probes ++ [⟨1, t, 0x3F, 1⟩] } ∧ u.regs = s.regs)) ∧
  (∀ s d, s.alive = true → d < 8 → bit (s.reg 0x30800) 8 = true → s.flt.probes = [] → s.units.te = [] → s.units.upd = [] → s.units.ses = [] → s.units.red = [] →
    (∀ n, n = 2 * d ∨ n = 2 * d + 1 → s.retired 2 n = false ∧ s.unitConfined 3 n = false) → ∃ u, exec (.idleUnitProbe d) s = .next u ∧ u.regs = s.regs ∧
      u.flt = { s.flt with probes := [⟨3, 2 * d, 0x40, 1⟩, ⟨3, 2 * d + 1, 0x40, 1⟩, ⟨4, d + 16, 0x80, 1⟩, ⟨4, d + 48, 0x100, 1⟩] }) ∧
  (∀ s port value, s.alive = true → port < 2 → value < 2 ^ 64 → s.regsOpen = true → let kind := bits value 15 12
    let bad : Prop := (kind ≠ 1 ∧ kind ≠ 3) ∨ (kind = 3 ∧ 16 ≤ bits value 6 0) ∨ bit (s.reg 0x30808) 0 = true
    (bad → exec (.fltProbeCmd port value) s = .next { s.barError port 0x30804 4 (trunc 32 value) with pending := s.pending }) ∧
    (¬ bad → kind = 1 → bits value 31 16 &&& 0x3F ≠ 0 → ∃ u, exec (.fltProbeCmd port value) s = .next u ∧ bit (u.reg 0x30808) 0 = true ∧
      u.flt = { s.flt with probes := s.flt.probes ++ [⟨1, bits value 6 0, bits value 31 16 &&& 0x3F, 2⟩] })) ∧
  (∀ s kind num failed p, s.alive = true → Instr.wf (.probeComplete kind num failed) = true → s.flt.probes.find? (fun p => p.kind == kind && p.num == num) = some p →
    s.probeFree kind num = true → ∃ u, exec (.probeComplete kind num failed) s = .next u ∧ u.flt.probes = s.flt.probes.erase p ∧
      u.reg 0x30810 = min (s.reg 0x30810 + popCount 16 p.sets) (2 ^ 64 - 1) ∧ u.reg 0x30818 = min (s.reg 0x30818 + popCount 16 (failed &&& p.sets)) (2 ^ 32 - 1) ∧
      (bitList 16 (failed &&& p.sets) ≠ [] → 1 ≤ kind → kind ≤ 3 → s.retired (kind - 1) num = false → u.unitConfined kind num = true)) ∧
  (∀ s die failed x, s.alive = true → die < 8 → s.flt.suspects.find? (fun u => u.running && dieOfUnit u.kind u.num == die) = some x →
    nth s.memc.halt die false = false → s.unitIdle (x.kind - 1) x.num = true → let bad := failed &&& setsOf x.kind
    let few : Prop := s.strikes x.kind x.num < s.field 0x30C00 4 1
    (few → x.stage < 7 → bad = 0 → ∃ u, exec (.suspectStageComplete die failed) s = .next u ∧ (u.susUnit x.kind x.num).kept = some x.stage ∧
      ∀ y ∈ u.flt.suspects, ¬ (y.kind = x.kind ∧ y.num = x.num)) ∧
    (∀ st, few → x.stage < 7 → bad ≠ 0 → nextStage x.kind (x.stage + 1) = some st → ∃ u, exec (.suspectStageComplete die failed) s = .next u ∧
      { x with stage := st } ∈ u.flt.suspects ∧ u.folio = s.folio) ∧
    (¬ few → bit (s.reg 0x30C00) 0 = true → ∃ u, exec (.suspectStageComplete die failed) s = .next u ∧ u.retired (x.kind - 1) x.num = true)) ∧
  (∀ s, s.alive = true → ∃ u, exec .heartbeatWrite s = .next u ∧ u.flt = { s.flt with beatAt := s.time } ∧ u.regs = s.regs ∧ u.mem = s.mem) ∧
  (∀ s, s.alive = true → s.stage = 6 → s.leadDie ≠ 4 → s.flt.beatAt + 1000000 ≤ s.time → ∃ u, exec .heartbeatTimeout s = .next u ∧ u.leadDie = 4 ∧ u.pace.syncs = 0)
end

