-- ==== Sys2Proof/Laws/Bytes.lean ====
section
/-!
SUPPORT. Numbers and byte strings: what a field of a byte string reads back.
-/
namespace Sys2Proof.Machine

@[simp] theorem bytesOf_length (n v : Nat) : (bytesOf n v).length = n := by
  induction n generalizing v with
  | zero => rfl
  | succ n ih => simp [bytesOf, ih]

@[simp] theorem natBytes_length (n v : Nat) : (natBytes n v).length = n := by simp [natBytes]

theorem natBytes_fold (n v : Nat) : (natBytes n v).foldr (fun b x => b % 256 + 256 * x) 0 = v % 256 ^ n := by
  induction n generalizing v with
  | zero => simp [natBytes, bytesOf, Nat.mod_one]
  | succ n ih =>
    have h := ih (v / 256)
    simp only [natBytes] at h
    simp only [natBytes, bytesOf, List.map_cons, List.foldr_cons, h, BitVec.toNat_ofNat, Nat.mod_mod, show (2 : Nat) ^ 8 = 256 from rfl]
    rw [Nat.pow_succ', Nat.mod_mul]

/-- A field that was put down as a number reads back as the number, modulo its size. -/
theorem fieldOf_natBytes (a c : List Nat) (n v : Nat) : fieldOf (a ++ natBytes n v ++ c) a.length n = v % 256 ^ n := by
  unfold fieldOf
  rw [List.append_assoc, List.drop_left, List.take_left' (natBytes_length n v), natBytes_fold]

end Sys2Proof.Machine
end

