-- ==== Sys2Proof/Laws/Table.lean ====
section
/-!
SUPPORT. The laws of sparse tables: what a read sees after a write, and that a write keeps the canonical form. None needs the
table to be canonical but those about the form itself.
-/
namespace Sys2Proof.Machine

variable {α : Type}

theorem Tbl.get_erase_same (d : α) (t : Tbl α) (k : Nat) : Tbl.get d (Tbl.erase t k) k = d := by
  induction t with
  | nil => rfl
  | cons e t ih =>
    obtain ⟨k', v⟩ := e
    by_cases h : k' = k <;> simp_all [Tbl.erase, Tbl.get]

theorem Tbl.get_erase_other (d : α) (t : Tbl α) {k j : Nat} (h : j ≠ k) : Tbl.get d (Tbl.erase t k) j = Tbl.get d t j := by
  induction t with
  | nil => rfl
  | cons e t ih =>
    obtain ⟨k', v⟩ := e
    by_cases hk : k' = k
    · subst hk; simpa [Tbl.erase, Tbl.get, h.symm] using ih
    · by_cases hj : k' = j <;> simp_all [Tbl.erase, Tbl.get]

theorem Tbl.get_insert_same (d : α) (t : Tbl α) (k : Nat) (v : α) : Tbl.get d (Tbl.insert t k v) k = v := by
  induction t with
  | nil => simp [Tbl.insert, Tbl.get]
  | cons e t ih =>
    obtain ⟨k', w⟩ := e
    simp only [Tbl.insert]
    split
    · simp [Tbl.get]
    · split
      · simp [Tbl.get]
      · simp [Tbl.get, ih]; omega

theorem Tbl.get_insert_other (d : α) (t : Tbl α) {k j : Nat} (v : α) (h : j ≠ k) :
    Tbl.get d (Tbl.insert t k v) j = Tbl.get d t j := by
  induction t with
  | nil => simp [Tbl.insert, Tbl.get, h.symm]
  | cons e t ih =>
    obtain ⟨k', w⟩ := e
    simp only [Tbl.insert]
    split
    · simp [Tbl.get, h.symm]
    · split
      · subst_vars; simp [Tbl.get, h.symm]
      · simp [Tbl.get, ih]

/-- A read of the key just written gives the value written. -/
@[simp] theorem Tbl.get_set_same [DecidableEq α] (d : α) (t : Tbl α) (k : Nat) (v : α) : Tbl.get d (Tbl.set d t k v) k = v := by
  unfold Tbl.set
  split
  · subst_vars; exact Tbl.get_erase_same v t k
  · exact Tbl.get_insert_same d t k v

/-- A write leaves every other key alone. -/
theorem Tbl.get_set_other [DecidableEq α] (d : α) (t : Tbl α) {k j : Nat} (v : α) (h : j ≠ k) :
    Tbl.get d (Tbl.set d t k v) j = Tbl.get d t j := by
  unfold Tbl.set
  split
  · exact Tbl.get_erase_other d t h
  · exact Tbl.get_insert_other d t v h

theorem Tbl.get_set [DecidableEq α] (d : α) (t : Tbl α) (k j : Nat) (v : α) :
    Tbl.get d (Tbl.set d t k v) j = if j = k then v else Tbl.get d t j := by
  split
  next h => rw [h]; exact Tbl.get_set_same d t k v
  next h => exact Tbl.get_set_other d t v h

@[simp] theorem Tbl.get_upd_same [DecidableEq α] (d : α) (t : Tbl α) (k : Nat) (f : α → α) :
    Tbl.get d (Tbl.upd d t k f) k = f (Tbl.get d t k) := Tbl.get_set_same ..

theorem Tbl.get_upd_other [DecidableEq α] (d : α) (t : Tbl α) {k j : Nat} (f : α → α) (h : j ≠ k) :
    Tbl.get d (Tbl.upd d t k f) j = Tbl.get d t j := Tbl.get_set_other d t _ h

/-! ## The canonical form -/

theorem Tbl.risingFrom_mono {t : Tbl α} {a b : Nat} (h : a ≤ b) (ht : Tbl.risingFrom (some b) t = true) :
    Tbl.risingFrom (some a) t = true := by
  cases t with
  | nil => rfl
  | cons e t => obtain ⟨k, v⟩ := e; simp [Tbl.risingFrom] at ht ⊢; exact ⟨by omega, ht.2⟩

theorem Tbl.risingFrom_none {t : Tbl α} {b : Nat} (ht : Tbl.risingFrom (some b) t = true) : Tbl.risingFrom none t = true := by
  cases t with
  | nil => rfl
  | cons e t => obtain ⟨k, v⟩ := e; simp [Tbl.risingFrom] at ht ⊢; exact ht.2

theorem Tbl.risingFrom_erase {t : Tbl α} (k : Nat) {lo : Option Nat} (h : Tbl.risingFrom lo t = true) :
    Tbl.risingFrom lo (Tbl.erase t k) = true := by
  induction t generalizing lo with
  | nil => exact h
  | cons e t ih =>
    obtain ⟨k', v⟩ := e
    have h2 : Tbl.risingFrom (some k') t = true := by simp [Tbl.risingFrom] at h; exact h.2
    by_cases hk : k' = k
    · have : Tbl.erase ((k', v) :: t) k = Tbl.erase t k := by simp [Tbl.erase, hk]
      rw [this]
      cases lo with
      | none => exact Tbl.risingFrom_none (ih h2)
      | some l =>
        refine Tbl.risingFrom_mono ?_ (ih h2)
        simp [Tbl.risingFrom] at h; omega
    · have : Tbl.erase ((k', v) :: t) k = (k', v) :: Tbl.erase t k := by simp [Tbl.erase, hk]
      rw [this]
      cases lo <;> simp [Tbl.risingFrom] at h ⊢ <;> simp [ih h2, h]

theorem Tbl.risingFrom_insert {t : Tbl α} (k : Nat) (v : α) {lo : Option Nat} (h : Tbl.risingFrom lo t = true)
    (hk : ∀ l, lo = some l → l < k) : Tbl.risingFrom lo (Tbl.insert t k v) = true := by
  induction t generalizing lo with
  | nil => cases lo <;> simp [Tbl.insert, Tbl.risingFrom, hk]
  | cons e t ih =>
    obtain ⟨k', w⟩ := e
    have h2 : Tbl.risingFrom (some k') t = true := by simp [Tbl.risingFrom] at h; exact h.2
    simp only [Tbl.insert]
    split
    · cases lo <;> simp_all [Tbl.risingFrom]
    · split
      · subst_vars; cases lo <;> simp_all [Tbl.risingFrom]
      · have := ih h2 (fun l hl => by cases hl; omega)
        cases lo <;> simp_all [Tbl.risingFrom]

/-- A write keeps the canonical form. -/
theorem Tbl.set_wf [DecidableEq α] {d : α} {t : Tbl α} (k : Nat) (v : α) (h : Tbl.wf d t = true) :
    Tbl.wf d (Tbl.set d t k v) = true := by
  simp only [Tbl.wf, Bool.and_eq_true, List.all_eq_true, decide_eq_true_eq] at h ⊢
  unfold Tbl.set
  split
  · exact ⟨Tbl.risingFrom_erase k h.1, fun e he => h.2 e (List.mem_filter.mp he |>.1)⟩
  · refine ⟨Tbl.risingFrom_insert k v h.1 (by simp), ?_⟩
    have ins : ∀ (t : Tbl α) (e : Nat × α), e ∈ Tbl.insert t k v → e = (k, v) ∨ e ∈ t := by
      intro t
      induction t with
      | nil => intro e he; simp [Tbl.insert] at he; exact .inl he
      | cons f t ih =>
        obtain ⟨k', w⟩ := f
        intro e he
        simp only [Tbl.insert] at he
        split at he
        · simpa using he
        · split at he
          · rcases List.mem_cons.mp he with h | h
            · exact .inl h
            · exact .inr (by simp [h])
          · rcases List.mem_cons.mp he with h | h
            · exact .inr (by simp [h])
            · rcases ih e h with h | h
              · exact .inl h
              · exact .inr (by simp [h])
    intro e he
    rcases ins t e he with rfl | h'
    · assumption
    · exact h.2 e h'

end Sys2Proof.Machine
end

