-- ==== Sys2Proof/Laws/State.lean ====
section
/-!
SUPPORT. The laws of the state's updates: one lemma per update and field it leaves alone, and what each update leaves in the
field it changes.
-/
namespace Sys2Proof.Machine

/-! ## What each update leaves alone -/

@[simp] theorem State.setReg_pending (s : State) (k v : Nat) : (s.setReg k v).pending = s.pending := rfl
@[simp] theorem State.setReg_latch (s : State) (k v : Nat) : (s.setReg k v).latch = s.latch := rfl
@[simp] theorem State.setReg_held (s : State) (k v : Nat) : (s.setReg k v).held = s.held := rfl
@[simp] theorem State.setReg_mem (s : State) (k v : Nat) : (s.setReg k v).mem = s.mem := rfl
@[simp] theorem State.setReg_pace (s : State) (k v : Nat) : (s.setReg k v).pace = s.pace := rfl
@[simp] theorem State.setReg_flt (s : State) (k v : Nat) : (s.setReg k v).flt = s.flt := rfl
@[simp] theorem State.setReg_host (s : State) (k v : Nat) : (s.setReg k v).host = s.host := rfl
@[simp] theorem State.setReg_xlat (s : State) (k v : Nat) : (s.setReg k v).xlat = s.xlat := rfl
@[simp] theorem State.setReg_sched (s : State) (k v : Nat) : (s.setReg k v).sched = s.sched := rfl
@[simp] theorem State.setReg_folio (s : State) (k v : Nat) : (s.setReg k v).folio = s.folio := rfl
@[simp] theorem State.setReg_tiles (s : State) (k v : Nat) : (s.setReg k v).tiles = s.tiles := rfl
@[simp] theorem State.setReg_saved (s : State) (k v : Nat) : (s.setReg k v).saved = s.saved := rfl
@[simp] theorem State.setReg_units (s : State) (k v : Nat) : (s.setReg k v).units = s.units := rfl
@[simp] theorem State.setReg_fab (s : State) (k v : Nat) : (s.setReg k v).fab = s.fab := rfl
@[simp] theorem State.setReg_caches (s : State) (k v : Nat) : (s.setReg k v).caches = s.caches := rfl
@[simp] theorem State.setReg_merges (s : State) (k v : Nat) : (s.setReg k v).merges = s.merges := rfl
@[simp] theorem State.setReg_memc (s : State) (k v : Nat) : (s.setReg k v).memc = s.memc := rfl
@[simp] theorem State.setReg_flash (s : State) (k v : Nat) : (s.setReg k v).flash = s.flash := rfl
@[simp] theorem State.setReg_nib (s : State) (k v : Nat) : (s.setReg k v).nib = s.nib := rfl
@[simp] theorem State.setReg_pins (s : State) (k v : Nat) : (s.setReg k v).pins = s.pins := rfl
@[simp] theorem State.setReg_free (s : State) (k v : Nat) : (s.setReg k v).free = s.free := rfl
@[simp] theorem State.setReg_out (s : State) (k v : Nat) : (s.setReg k v).out = s.out := rfl

@[simp] theorem State.setField_pending (s : State) (k hi lo x : Nat) : (s.setField k hi lo x).pending = s.pending := rfl
@[simp] theorem State.setField_latch (s : State) (k hi lo x : Nat) : (s.setField k hi lo x).latch = s.latch := rfl
@[simp] theorem State.setField_held (s : State) (k hi lo x : Nat) : (s.setField k hi lo x).held = s.held := rfl
@[simp] theorem State.setField_mem (s : State) (k hi lo x : Nat) : (s.setField k hi lo x).mem = s.mem := rfl
@[simp] theorem State.setField_pace (s : State) (k hi lo x : Nat) : (s.setField k hi lo x).pace = s.pace := rfl
@[simp] theorem State.setField_flt (s : State) (k hi lo x : Nat) : (s.setField k hi lo x).flt = s.flt := rfl
@[simp] theorem State.setField_host (s : State) (k hi lo x : Nat) : (s.setField k hi lo x).host = s.host := rfl
@[simp] theorem State.setField_xlat (s : State) (k hi lo x : Nat) : (s.setField k hi lo x).xlat = s.xlat := rfl
@[simp] theorem State.setField_sched (s : State) (k hi lo x : Nat) : (s.setField k hi lo x).sched = s.sched := rfl
@[simp] theorem State.setField_folio (s : State) (k hi lo x : Nat) : (s.setField k hi lo x).folio = s.folio := rfl
@[simp] theorem State.setField_tiles (s : State) (k hi lo x : Nat) : (s.setField k hi lo x).tiles = s.tiles := rfl
@[simp] theorem State.setField_saved (s : State) (k hi lo x : Nat) : (s.setField k hi lo x).saved = s.saved := rfl
@[simp] theorem State.setField_units (s : State) (k hi lo x : Nat) : (s.setField k hi lo x).units = s.units := rfl
@[simp] theorem State.setField_fab (s : State) (k hi lo x : Nat) : (s.setField k hi lo x).fab = s.fab := rfl
@[simp] theorem State.setField_caches (s : State) (k hi lo x : Nat) : (s.setField k hi lo x).caches = s.caches := rfl
@[simp] theorem State.setField_merges (s : State) (k hi lo x : Nat) : (s.setField k hi lo x).merges = s.merges := rfl
@[simp] theorem State.setField_memc (s : State) (k hi lo x : Nat) : (s.setField k hi lo x).memc = s.memc := rfl
@[simp] theorem State.setField_flash (s : State) (k hi lo x : Nat) : (s.setField k hi lo x).flash = s.flash := rfl
@[simp] theorem State.setField_nib (s : State) (k hi lo x : Nat) : (s.setField k hi lo x).nib = s.nib := rfl
@[simp] theorem State.setField_pins (s : State) (k hi lo x : Nat) : (s.setField k hi lo x).pins = s.pins := rfl
@[simp] theorem State.setField_free (s : State) (k hi lo x : Nat) : (s.setField k hi lo x).free = s.free := rfl
@[simp] theorem State.setField_out (s : State) (k hi lo x : Nat) : (s.setField k hi lo x).out = s.out := rfl

@[simp] theorem State.bump_pending (s : State) (k w n : Nat) : (s.bump k w n).pending = s.pending := rfl
@[simp] theorem State.bump_latch (s : State) (k w n : Nat) : (s.bump k w n).latch = s.latch := rfl
@[simp] theorem State.bump_held (s : State) (k w n : Nat) : (s.bump k w n).held = s.held := rfl
@[simp] theorem State.bump_mem (s : State) (k w n : Nat) : (s.bump k w n).mem = s.mem := rfl
@[simp] theorem State.bump_pace (s : State) (k w n : Nat) : (s.bump k w n).pace = s.pace := rfl
@[simp] theorem State.bump_flt (s : State) (k w n : Nat) : (s.bump k w n).flt = s.flt := rfl
@[simp] theorem State.bump_host (s : State) (k w n : Nat) : (s.bump k w n).host = s.host := rfl
@[simp] theorem State.bump_xlat (s : State) (k w n : Nat) : (s.bump k w n).xlat = s.xlat := rfl
@[simp] theorem State.bump_sched (s : State) (k w n : Nat) : (s.bump k w n).sched = s.sched := rfl
@[simp] theorem State.bump_folio (s : State) (k w n : Nat) : (s.bump k w n).folio = s.folio := rfl
@[simp] theorem State.bump_tiles (s : State) (k w n : Nat) : (s.bump k w n).tiles = s.tiles := rfl
@[simp] theorem State.bump_saved (s : State) (k w n : Nat) : (s.bump k w n).saved = s.saved := rfl
@[simp] theorem State.bump_units (s : State) (k w n : Nat) : (s.bump k w n).units = s.units := rfl
@[simp] theorem State.bump_fab (s : State) (k w n : Nat) : (s.bump k w n).fab = s.fab := rfl
@[simp] theorem State.bump_caches (s : State) (k w n : Nat) : (s.bump k w n).caches = s.caches := rfl
@[simp] theorem State.bump_merges (s : State) (k w n : Nat) : (s.bump k w n).merges = s.merges := rfl
@[simp] theorem State.bump_memc (s : State) (k w n : Nat) : (s.bump k w n).memc = s.memc := rfl
@[simp] theorem State.bump_flash (s : State) (k w n : Nat) : (s.bump k w n).flash = s.flash := rfl
@[simp] theorem State.bump_nib (s : State) (k w n : Nat) : (s.bump k w n).nib = s.nib := rfl
@[simp] theorem State.bump_pins (s : State) (k w n : Nat) : (s.bump k w n).pins = s.pins := rfl
@[simp] theorem State.bump_free (s : State) (k w n : Nat) : (s.bump k w n).free = s.free := rfl
@[simp] theorem State.bump_out (s : State) (k w n : Nat) : (s.bump k w n).out = s.out := rfl

@[simp] theorem State.maxReg_pending (s : State) (k w n : Nat) : (s.maxReg k w n).pending = s.pending := rfl
@[simp] theorem State.maxReg_latch (s : State) (k w n : Nat) : (s.maxReg k w n).latch = s.latch := rfl
@[simp] theorem State.maxReg_held (s : State) (k w n : Nat) : (s.maxReg k w n).held = s.held := rfl
@[simp] theorem State.maxReg_mem (s : State) (k w n : Nat) : (s.maxReg k w n).mem = s.mem := rfl
@[simp] theorem State.maxReg_pace (s : State) (k w n : Nat) : (s.maxReg k w n).pace = s.pace := rfl
@[simp] theorem State.maxReg_flt (s : State) (k w n : Nat) : (s.maxReg k w n).flt = s.flt := rfl
@[simp] theorem State.maxReg_host (s : State) (k w n : Nat) : (s.maxReg k w n).host = s.host := rfl
@[simp] theorem State.maxReg_xlat (s : State) (k w n : Nat) : (s.maxReg k w n).xlat = s.xlat := rfl
@[simp] theorem State.maxReg_sched (s : State) (k w n : Nat) : (s.maxReg k w n).sched = s.sched := rfl
@[simp] theorem State.maxReg_folio (s : State) (k w n : Nat) : (s.maxReg k w n).folio = s.folio := rfl
@[simp] theorem State.maxReg_tiles (s : State) (k w n : Nat) : (s.maxReg k w n).tiles = s.tiles := rfl
@[simp] theorem State.maxReg_saved (s : State) (k w n : Nat) : (s.maxReg k w n).saved = s.saved := rfl
@[simp] theorem State.maxReg_units (s : State) (k w n : Nat) : (s.maxReg k w n).units = s.units := rfl
@[simp] theorem State.maxReg_fab (s : State) (k w n : Nat) : (s.maxReg k w n).fab = s.fab := rfl
@[simp] theorem State.maxReg_caches (s : State) (k w n : Nat) : (s.maxReg k w n).caches = s.caches := rfl
@[simp] theorem State.maxReg_merges (s : State) (k w n : Nat) : (s.maxReg k w n).merges = s.merges := rfl
@[simp] theorem State.maxReg_memc (s : State) (k w n : Nat) : (s.maxReg k w n).memc = s.memc := rfl
@[simp] theorem State.maxReg_flash (s : State) (k w n : Nat) : (s.maxReg k w n).flash = s.flash := rfl
@[simp] theorem State.maxReg_nib (s : State) (k w n : Nat) : (s.maxReg k w n).nib = s.nib := rfl
@[simp] theorem State.maxReg_pins (s : State) (k w n : Nat) : (s.maxReg k w n).pins = s.pins := rfl
@[simp] theorem State.maxReg_free (s : State) (k w n : Nat) : (s.maxReg k w n).free = s.free := rfl
@[simp] theorem State.maxReg_out (s : State) (k w n : Nat) : (s.maxReg k w n).out = s.out := rfl

@[simp] theorem State.emit_pending (s : State) (o : Out) : (s.emit o).pending = s.pending := rfl
@[simp] theorem State.emit_regs (s : State) (o : Out) : (s.emit o).regs = s.regs := rfl
@[simp] theorem State.emit_latch (s : State) (o : Out) : (s.emit o).latch = s.latch := rfl
@[simp] theorem State.emit_held (s : State) (o : Out) : (s.emit o).held = s.held := rfl
@[simp] theorem State.emit_mem (s : State) (o : Out) : (s.emit o).mem = s.mem := rfl
@[simp] theorem State.emit_pace (s : State) (o : Out) : (s.emit o).pace = s.pace := rfl
@[simp] theorem State.emit_flt (s : State) (o : Out) : (s.emit o).flt = s.flt := rfl
@[simp] theorem State.emit_host (s : State) (o : Out) : (s.emit o).host = s.host := rfl
@[simp] theorem State.emit_xlat (s : State) (o : Out) : (s.emit o).xlat = s.xlat := rfl
@[simp] theorem State.emit_sched (s : State) (o : Out) : (s.emit o).sched = s.sched := rfl
@[simp] theorem State.emit_folio (s : State) (o : Out) : (s.emit o).folio = s.folio := rfl
@[simp] theorem State.emit_tiles (s : State) (o : Out) : (s.emit o).tiles = s.tiles := rfl
@[simp] theorem State.emit_saved (s : State) (o : Out) : (s.emit o).saved = s.saved := rfl
@[simp] theorem State.emit_units (s : State) (o : Out) : (s.emit o).units = s.units := rfl
@[simp] theorem State.emit_fab (s : State) (o : Out) : (s.emit o).fab = s.fab := rfl
@[simp] theorem State.emit_caches (s : State) (o : Out) : (s.emit o).caches = s.caches := rfl
@[simp] theorem State.emit_merges (s : State) (o : Out) : (s.emit o).merges = s.merges := rfl
@[simp] theorem State.emit_memc (s : State) (o : Out) : (s.emit o).memc = s.memc := rfl
@[simp] theorem State.emit_flash (s : State) (o : Out) : (s.emit o).flash = s.flash := rfl
@[simp] theorem State.emit_nib (s : State) (o : Out) : (s.emit o).nib = s.nib := rfl
@[simp] theorem State.emit_pins (s : State) (o : Out) : (s.emit o).pins = s.pins := rfl
@[simp] theorem State.emit_free (s : State) (o : Out) : (s.emit o).free = s.free := rfl

@[simp] theorem State.useFree_pending (s : State) : (s.useFree).pending = s.pending := rfl
@[simp] theorem State.useFree_regs (s : State) : (s.useFree).regs = s.regs := rfl
@[simp] theorem State.useFree_latch (s : State) : (s.useFree).latch = s.latch := rfl
@[simp] theorem State.useFree_held (s : State) : (s.useFree).held = s.held := rfl
@[simp] theorem State.useFree_mem (s : State) : (s.useFree).mem = s.mem := rfl
@[simp] theorem State.useFree_pace (s : State) : (s.useFree).pace = s.pace := rfl
@[simp] theorem State.useFree_flt (s : State) : (s.useFree).flt = s.flt := rfl
@[simp] theorem State.useFree_host (s : State) : (s.useFree).host = s.host := rfl
@[simp] theorem State.useFree_xlat (s : State) : (s.useFree).xlat = s.xlat := rfl
@[simp] theorem State.useFree_sched (s : State) : (s.useFree).sched = s.sched := rfl
@[simp] theorem State.useFree_folio (s : State) : (s.useFree).folio = s.folio := rfl
@[simp] theorem State.useFree_tiles (s : State) : (s.useFree).tiles = s.tiles := rfl
@[simp] theorem State.useFree_saved (s : State) : (s.useFree).saved = s.saved := rfl
@[simp] theorem State.useFree_units (s : State) : (s.useFree).units = s.units := rfl
@[simp] theorem State.useFree_fab (s : State) : (s.useFree).fab = s.fab := rfl
@[simp] theorem State.useFree_caches (s : State) : (s.useFree).caches = s.caches := rfl
@[simp] theorem State.useFree_merges (s : State) : (s.useFree).merges = s.merges := rfl
@[simp] theorem State.useFree_memc (s : State) : (s.useFree).memc = s.memc := rfl
@[simp] theorem State.useFree_flash (s : State) : (s.useFree).flash = s.flash := rfl
@[simp] theorem State.useFree_nib (s : State) : (s.useFree).nib = s.nib := rfl
@[simp] theorem State.useFree_pins (s : State) : (s.useFree).pins = s.pins := rfl
@[simp] theorem State.useFree_out (s : State) : (s.useFree).out = s.out := rfl

@[simp] theorem State.setTile_pending (s : State) (t : Nat) (x : Tile) : (s.setTile t x).pending = s.pending := rfl
@[simp] theorem State.setTile_regs (s : State) (t : Nat) (x : Tile) : (s.setTile t x).regs = s.regs := rfl
@[simp] theorem State.setTile_latch (s : State) (t : Nat) (x : Tile) : (s.setTile t x).latch = s.latch := rfl
@[simp] theorem State.setTile_held (s : State) (t : Nat) (x : Tile) : (s.setTile t x).held = s.held := rfl
@[simp] theorem State.setTile_mem (s : State) (t : Nat) (x : Tile) : (s.setTile t x).mem = s.mem := rfl
@[simp] theorem State.setTile_pace (s : State) (t : Nat) (x : Tile) : (s.setTile t x).pace = s.pace := rfl
@[simp] theorem State.setTile_flt (s : State) (t : Nat) (x : Tile) : (s.setTile t x).flt = s.flt := rfl
@[simp] theorem State.setTile_host (s : State) (t : Nat) (x : Tile) : (s.setTile t x).host = s.host := rfl
@[simp] theorem State.setTile_xlat (s : State) (t : Nat) (x : Tile) : (s.setTile t x).xlat = s.xlat := rfl
@[simp] theorem State.setTile_sched (s : State) (t : Nat) (x : Tile) : (s.setTile t x).sched = s.sched := rfl
@[simp] theorem State.setTile_folio (s : State) (t : Nat) (x : Tile) : (s.setTile t x).folio = s.folio := rfl
@[simp] theorem State.setTile_saved (s : State) (t : Nat) (x : Tile) : (s.setTile t x).saved = s.saved := rfl
@[simp] theorem State.setTile_units (s : State) (t : Nat) (x : Tile) : (s.setTile t x).units = s.units := rfl
@[simp] theorem State.setTile_fab (s : State) (t : Nat) (x : Tile) : (s.setTile t x).fab = s.fab := rfl
@[simp] theorem State.setTile_caches (s : State) (t : Nat) (x : Tile) : (s.setTile t x).caches = s.caches := rfl
@[simp] theorem State.setTile_merges (s : State) (t : Nat) (x : Tile) : (s.setTile t x).merges = s.merges := rfl
@[simp] theorem State.setTile_memc (s : State) (t : Nat) (x : Tile) : (s.setTile t x).memc = s.memc := rfl
@[simp] theorem State.setTile_flash (s : State) (t : Nat) (x : Tile) : (s.setTile t x).flash = s.flash := rfl
@[simp] theorem State.setTile_nib (s : State) (t : Nat) (x : Tile) : (s.setTile t x).nib = s.nib := rfl
@[simp] theorem State.setTile_pins (s : State) (t : Nat) (x : Tile) : (s.setTile t x).pins = s.pins := rfl
@[simp] theorem State.setTile_free (s : State) (t : Nat) (x : Tile) : (s.setTile t x).free = s.free := rfl
@[simp] theorem State.setTile_out (s : State) (t : Nat) (x : Tile) : (s.setTile t x).out = s.out := rfl

@[simp] theorem State.updTile_pending (s : State) (t : Nat) (f : Tile → Tile) : (s.updTile t f).pending = s.pending := rfl
@[simp] theorem State.updTile_regs (s : State) (t : Nat) (f : Tile → Tile) : (s.updTile t f).regs = s.regs := rfl
@[simp] theorem State.updTile_latch (s : State) (t : Nat) (f : Tile → Tile) : (s.updTile t f).latch = s.latch := rfl
@[simp] theorem State.updTile_held (s : State) (t : Nat) (f : Tile → Tile) : (s.updTile t f).held = s.held := rfl
@[simp] theorem State.updTile_mem (s : State) (t : Nat) (f : Tile → Tile) : (s.updTile t f).mem = s.mem := rfl
@[simp] theorem State.updTile_pace (s : State) (t : Nat) (f : Tile → Tile) : (s.updTile t f).pace = s.pace := rfl
@[simp] theorem State.updTile_flt (s : State) (t : Nat) (f : Tile → Tile) : (s.updTile t f).flt = s.flt := rfl
@[simp] theorem State.updTile_host (s : State) (t : Nat) (f : Tile → Tile) : (s.updTile t f).host = s.host := rfl
@[simp] theorem State.updTile_xlat (s : State) (t : Nat) (f : Tile → Tile) : (s.updTile t f).xlat = s.xlat := rfl
@[simp] theorem State.updTile_sched (s : State) (t : Nat) (f : Tile → Tile) : (s.updTile t f).sched = s.sched := rfl
@[simp] theorem State.updTile_folio (s : State) (t : Nat) (f : Tile → Tile) : (s.updTile t f).folio = s.folio := rfl
@[simp] theorem State.updTile_saved (s : State) (t : Nat) (f : Tile → Tile) : (s.updTile t f).saved = s.saved := rfl
@[simp] theorem State.updTile_units (s : State) (t : Nat) (f : Tile → Tile) : (s.updTile t f).units = s.units := rfl
@[simp] theorem State.updTile_fab (s : State) (t : Nat) (f : Tile → Tile) : (s.updTile t f).fab = s.fab := rfl
@[simp] theorem State.updTile_caches (s : State) (t : Nat) (f : Tile → Tile) : (s.updTile t f).caches = s.caches := rfl
@[simp] theorem State.updTile_merges (s : State) (t : Nat) (f : Tile → Tile) : (s.updTile t f).merges = s.merges := rfl
@[simp] theorem State.updTile_memc (s : State) (t : Nat) (f : Tile → Tile) : (s.updTile t f).memc = s.memc := rfl
@[simp] theorem State.updTile_flash (s : State) (t : Nat) (f : Tile → Tile) : (s.updTile t f).flash = s.flash := rfl
@[simp] theorem State.updTile_nib (s : State) (t : Nat) (f : Tile → Tile) : (s.updTile t f).nib = s.nib := rfl
@[simp] theorem State.updTile_pins (s : State) (t : Nat) (f : Tile → Tile) : (s.updTile t f).pins = s.pins := rfl
@[simp] theorem State.updTile_free (s : State) (t : Nat) (f : Tile → Tile) : (s.updTile t f).free = s.free := rfl
@[simp] theorem State.updTile_out (s : State) (t : Nat) (f : Tile → Tile) : (s.updTile t f).out = s.out := rfl

@[simp] theorem State.updChan_pending (s : State) (t c : Nat) (f : Chan → Chan) : (s.updChan t c f).pending = s.pending := rfl
@[simp] theorem State.updChan_regs (s : State) (t c : Nat) (f : Chan → Chan) : (s.updChan t c f).regs = s.regs := rfl
@[simp] theorem State.updChan_latch (s : State) (t c : Nat) (f : Chan → Chan) : (s.updChan t c f).latch = s.latch := rfl
@[simp] theorem State.updChan_held (s : State) (t c : Nat) (f : Chan → Chan) : (s.updChan t c f).held = s.held := rfl
@[simp] theorem State.updChan_mem (s : State) (t c : Nat) (f : Chan → Chan) : (s.updChan t c f).mem = s.mem := rfl
@[simp] theorem State.updChan_pace (s : State) (t c : Nat) (f : Chan → Chan) : (s.updChan t c f).pace = s.pace := rfl
@[simp] theorem State.updChan_flt (s : State) (t c : Nat) (f : Chan → Chan) : (s.updChan t c f).flt = s.flt := rfl
@[simp] theorem State.updChan_host (s : State) (t c : Nat) (f : Chan → Chan) : (s.updChan t c f).host = s.host := rfl
@[simp] theorem State.updChan_xlat (s : State) (t c : Nat) (f : Chan → Chan) : (s.updChan t c f).xlat = s.xlat := rfl
@[simp] theorem State.updChan_sched (s : State) (t c : Nat) (f : Chan → Chan) : (s.updChan t c f).sched = s.sched := rfl
@[simp] theorem State.updChan_folio (s : State) (t c : Nat) (f : Chan → Chan) : (s.updChan t c f).folio = s.folio := rfl
@[simp] theorem State.updChan_saved (s : State) (t c : Nat) (f : Chan → Chan) : (s.updChan t c f).saved = s.saved := rfl
@[simp] theorem State.updChan_units (s : State) (t c : Nat) (f : Chan → Chan) : (s.updChan t c f).units = s.units := rfl
@[simp] theorem State.updChan_fab (s : State) (t c : Nat) (f : Chan → Chan) : (s.updChan t c f).fab = s.fab := rfl
@[simp] theorem State.updChan_caches (s : State) (t c : Nat) (f : Chan → Chan) : (s.updChan t c f).caches = s.caches := rfl
@[simp] theorem State.updChan_merges (s : State) (t c : Nat) (f : Chan → Chan) : (s.updChan t c f).merges = s.merges := rfl
@[simp] theorem State.updChan_memc (s : State) (t c : Nat) (f : Chan → Chan) : (s.updChan t c f).memc = s.memc := rfl
@[simp] theorem State.updChan_flash (s : State) (t c : Nat) (f : Chan → Chan) : (s.updChan t c f).flash = s.flash := rfl
@[simp] theorem State.updChan_nib (s : State) (t c : Nat) (f : Chan → Chan) : (s.updChan t c f).nib = s.nib := rfl
@[simp] theorem State.updChan_pins (s : State) (t c : Nat) (f : Chan → Chan) : (s.updChan t c f).pins = s.pins := rfl
@[simp] theorem State.updChan_free (s : State) (t c : Nat) (f : Chan → Chan) : (s.updChan t c f).free = s.free := rfl
@[simp] theorem State.updChan_out (s : State) (t c : Nat) (f : Chan → Chan) : (s.updChan t c f).out = s.out := rfl

@[simp] theorem State.updEng_pending (s : State) (t e : Nat) (f : Eng → Eng) : (s.updEng t e f).pending = s.pending := rfl
@[simp] theorem State.updEng_regs (s : State) (t e : Nat) (f : Eng → Eng) : (s.updEng t e f).regs = s.regs := rfl
@[simp] theorem State.updEng_latch (s : State) (t e : Nat) (f : Eng → Eng) : (s.updEng t e f).latch = s.latch := rfl
@[simp] theorem State.updEng_held (s : State) (t e : Nat) (f : Eng → Eng) : (s.updEng t e f).held = s.held := rfl
@[simp] theorem State.updEng_mem (s : State) (t e : Nat) (f : Eng → Eng) : (s.updEng t e f).mem = s.mem := rfl
@[simp] theorem State.updEng_pace (s : State) (t e : Nat) (f : Eng → Eng) : (s.updEng t e f).pace = s.pace := rfl
@[simp] theorem State.updEng_flt (s : State) (t e : Nat) (f : Eng → Eng) : (s.updEng t e f).flt = s.flt := rfl
@[simp] theorem State.updEng_host (s : State) (t e : Nat) (f : Eng → Eng) : (s.updEng t e f).host = s.host := rfl
@[simp] theorem State.updEng_xlat (s : State) (t e : Nat) (f : Eng → Eng) : (s.updEng t e f).xlat = s.xlat := rfl
@[simp] theorem State.updEng_sched (s : State) (t e : Nat) (f : Eng → Eng) : (s.updEng t e f).sched = s.sched := rfl
@[simp] theorem State.updEng_folio (s : State) (t e : Nat) (f : Eng → Eng) : (s.updEng t e f).folio = s.folio := rfl
@[simp] theorem State.updEng_saved (s : State) (t e : Nat) (f : Eng → Eng) : (s.updEng t e f).saved = s.saved := rfl
@[simp] theorem State.updEng_units (s : State) (t e : Nat) (f : Eng → Eng) : (s.updEng t e f).units = s.units := rfl
@[simp] theorem State.updEng_fab (s : State) (t e : Nat) (f : Eng → Eng) : (s.updEng t e f).fab = s.fab := rfl
@[simp] theorem State.updEng_caches (s : State) (t e : Nat) (f : Eng → Eng) : (s.updEng t e f).caches = s.caches := rfl
@[simp] theorem State.updEng_merges (s : State) (t e : Nat) (f : Eng → Eng) : (s.updEng t e f).merges = s.merges := rfl
@[simp] theorem State.updEng_memc (s : State) (t e : Nat) (f : Eng → Eng) : (s.updEng t e f).memc = s.memc := rfl
@[simp] theorem State.updEng_flash (s : State) (t e : Nat) (f : Eng → Eng) : (s.updEng t e f).flash = s.flash := rfl
@[simp] theorem State.updEng_nib (s : State) (t e : Nat) (f : Eng → Eng) : (s.updEng t e f).nib = s.nib := rfl
@[simp] theorem State.updEng_pins (s : State) (t e : Nat) (f : Eng → Eng) : (s.updEng t e f).pins = s.pins := rfl
@[simp] theorem State.updEng_free (s : State) (t e : Nat) (f : Eng → Eng) : (s.updEng t e f).free = s.free := rfl
@[simp] theorem State.updEng_out (s : State) (t e : Nat) (f : Eng → Eng) : (s.updEng t e f).out = s.out := rfl

@[simp] theorem State.updQueue_pending (s : State) (q : Nat) (f : Queue → Queue) : (s.updQueue q f).pending = s.pending := rfl
@[simp] theorem State.updQueue_regs (s : State) (q : Nat) (f : Queue → Queue) : (s.updQueue q f).regs = s.regs := rfl
@[simp] theorem State.updQueue_latch (s : State) (q : Nat) (f : Queue → Queue) : (s.updQueue q f).latch = s.latch := rfl
@[simp] theorem State.updQueue_held (s : State) (q : Nat) (f : Queue → Queue) : (s.updQueue q f).held = s.held := rfl
@[simp] theorem State.updQueue_mem (s : State) (q : Nat) (f : Queue → Queue) : (s.updQueue q f).mem = s.mem := rfl
@[simp] theorem State.updQueue_pace (s : State) (q : Nat) (f : Queue → Queue) : (s.updQueue q f).pace = s.pace := rfl
@[simp] theorem State.updQueue_flt (s : State) (q : Nat) (f : Queue → Queue) : (s.updQueue q f).flt = s.flt := rfl
@[simp] theorem State.updQueue_host (s : State) (q : Nat) (f : Queue → Queue) : (s.updQueue q f).host = s.host := rfl
@[simp] theorem State.updQueue_xlat (s : State) (q : Nat) (f : Queue → Queue) : (s.updQueue q f).xlat = s.xlat := rfl
@[simp] theorem State.updQueue_folio (s : State) (q : Nat) (f : Queue → Queue) : (s.updQueue q f).folio = s.folio := rfl
@[simp] theorem State.updQueue_tiles (s : State) (q : Nat) (f : Queue → Queue) : (s.updQueue q f).tiles = s.tiles := rfl
@[simp] theorem State.updQueue_saved (s : State) (q : Nat) (f : Queue → Queue) : (s.updQueue q f).saved = s.saved := rfl
@[simp] theorem State.updQueue_units (s : State) (q : Nat) (f : Queue → Queue) : (s.updQueue q f).units = s.units := rfl
@[simp] theorem State.updQueue_fab (s : State) (q : Nat) (f : Queue → Queue) : (s.updQueue q f).fab = s.fab := rfl
@[simp] theorem State.updQueue_caches (s : State) (q : Nat) (f : Queue → Queue) : (s.updQueue q f).caches = s.caches := rfl
@[simp] theorem State.updQueue_merges (s : State) (q : Nat) (f : Queue → Queue) : (s.updQueue q f).merges = s.merges := rfl
@[simp] theorem State.updQueue_memc (s : State) (q : Nat) (f : Queue → Queue) : (s.updQueue q f).memc = s.memc := rfl
@[simp] theorem State.updQueue_flash (s : State) (q : Nat) (f : Queue → Queue) : (s.updQueue q f).flash = s.flash := rfl
@[simp] theorem State.updQueue_nib (s : State) (q : Nat) (f : Queue → Queue) : (s.updQueue q f).nib = s.nib := rfl
@[simp] theorem State.updQueue_pins (s : State) (q : Nat) (f : Queue → Queue) : (s.updQueue q f).pins = s.pins := rfl
@[simp] theorem State.updQueue_free (s : State) (q : Nat) (f : Queue → Queue) : (s.updQueue q f).free = s.free := rfl
@[simp] theorem State.updQueue_out (s : State) (q : Nat) (f : Queue → Queue) : (s.updQueue q f).out = s.out := rfl

@[simp] theorem State.setCmd_pending (s : State) (cid : Nat) (c : Cmd) : (s.setCmd cid c).pending = s.pending := rfl
@[simp] theorem State.setCmd_regs (s : State) (cid : Nat) (c : Cmd) : (s.setCmd cid c).regs = s.regs := rfl
@[simp] theorem State.setCmd_latch (s : State) (cid : Nat) (c : Cmd) : (s.setCmd cid c).latch = s.latch := rfl
@[simp] theorem State.setCmd_held (s : State) (cid : Nat) (c : Cmd) : (s.setCmd cid c).held = s.held := rfl
@[simp] theorem State.setCmd_mem (s : State) (cid : Nat) (c : Cmd) : (s.setCmd cid c).mem = s.mem := rfl
@[simp] theorem State.setCmd_pace (s : State) (cid : Nat) (c : Cmd) : (s.setCmd cid c).pace = s.pace := rfl
@[simp] theorem State.setCmd_flt (s : State) (cid : Nat) (c : Cmd) : (s.setCmd cid c).flt = s.flt := rfl
@[simp] theorem State.setCmd_host (s : State) (cid : Nat) (c : Cmd) : (s.setCmd cid c).host = s.host := rfl
@[simp] theorem State.setCmd_xlat (s : State) (cid : Nat) (c : Cmd) : (s.setCmd cid c).xlat = s.xlat := rfl
@[simp] theorem State.setCmd_folio (s : State) (cid : Nat) (c : Cmd) : (s.setCmd cid c).folio = s.folio := rfl
@[simp] theorem State.setCmd_tiles (s : State) (cid : Nat) (c : Cmd) : (s.setCmd cid c).tiles = s.tiles := rfl
@[simp] theorem State.setCmd_saved (s : State) (cid : Nat) (c : Cmd) : (s.setCmd cid c).saved = s.saved := rfl
@[simp] theorem State.setCmd_units (s : State) (cid : Nat) (c : Cmd) : (s.setCmd cid c).units = s.units := rfl
@[simp] theorem State.setCmd_fab (s : State) (cid : Nat) (c : Cmd) : (s.setCmd cid c).fab = s.fab := rfl
@[simp] theorem State.setCmd_caches (s : State) (cid : Nat) (c : Cmd) : (s.setCmd cid c).caches = s.caches := rfl
@[simp] theorem State.setCmd_merges (s : State) (cid : Nat) (c : Cmd) : (s.setCmd cid c).merges = s.merges := rfl
@[simp] theorem State.setCmd_memc (s : State) (cid : Nat) (c : Cmd) : (s.setCmd cid c).memc = s.memc := rfl
@[simp] theorem State.setCmd_flash (s : State) (cid : Nat) (c : Cmd) : (s.setCmd cid c).flash = s.flash := rfl
@[simp] theorem State.setCmd_nib (s : State) (cid : Nat) (c : Cmd) : (s.setCmd cid c).nib = s.nib := rfl
@[simp] theorem State.setCmd_pins (s : State) (cid : Nat) (c : Cmd) : (s.setCmd cid c).pins = s.pins := rfl
@[simp] theorem State.setCmd_free (s : State) (cid : Nat) (c : Cmd) : (s.setCmd cid c).free = s.free := rfl
@[simp] theorem State.setCmd_out (s : State) (cid : Nat) (c : Cmd) : (s.setCmd cid c).out = s.out := rfl

@[simp] theorem State.updCmd_pending (s : State) (cid : Nat) (f : Cmd → Cmd) : (s.updCmd cid f).pending = s.pending := rfl
@[simp] theorem State.updCmd_regs (s : State) (cid : Nat) (f : Cmd → Cmd) : (s.updCmd cid f).regs = s.regs := rfl
@[simp] theorem State.updCmd_latch (s : State) (cid : Nat) (f : Cmd → Cmd) : (s.updCmd cid f).latch = s.latch := rfl
@[simp] theorem State.updCmd_held (s : State) (cid : Nat) (f : Cmd → Cmd) : (s.updCmd cid f).held = s.held := rfl
@[simp] theorem State.updCmd_mem (s : State) (cid : Nat) (f : Cmd → Cmd) : (s.updCmd cid f).mem = s.mem := rfl
@[simp] theorem State.updCmd_pace (s : State) (cid : Nat) (f : Cmd → Cmd) : (s.updCmd cid f).pace = s.pace := rfl
@[simp] theorem State.updCmd_flt (s : State) (cid : Nat) (f : Cmd → Cmd) : (s.updCmd cid f).flt = s.flt := rfl
@[simp] theorem State.updCmd_host (s : State) (cid : Nat) (f : Cmd → Cmd) : (s.updCmd cid f).host = s.host := rfl
@[simp] theorem State.updCmd_xlat (s : State) (cid : Nat) (f : Cmd → Cmd) : (s.updCmd cid f).xlat = s.xlat := rfl
@[simp] theorem State.updCmd_folio (s : State) (cid : Nat) (f : Cmd → Cmd) : (s.updCmd cid f).folio = s.folio := rfl
@[simp] theorem State.updCmd_tiles (s : State) (cid : Nat) (f : Cmd → Cmd) : (s.updCmd cid f).tiles = s.tiles := rfl
@[simp] theorem State.updCmd_saved (s : State) (cid : Nat) (f : Cmd → Cmd) : (s.updCmd cid f).saved = s.saved := rfl
@[simp] theorem State.updCmd_units (s : State) (cid : Nat) (f : Cmd → Cmd) : (s.updCmd cid f).units = s.units := rfl
@[simp] theorem State.updCmd_fab (s : State) (cid : Nat) (f : Cmd → Cmd) : (s.updCmd cid f).fab = s.fab := rfl
@[simp] theorem State.updCmd_caches (s : State) (cid : Nat) (f : Cmd → Cmd) : (s.updCmd cid f).caches = s.caches := rfl
@[simp] theorem State.updCmd_merges (s : State) (cid : Nat) (f : Cmd → Cmd) : (s.updCmd cid f).merges = s.merges := rfl
@[simp] theorem State.updCmd_memc (s : State) (cid : Nat) (f : Cmd → Cmd) : (s.updCmd cid f).memc = s.memc := rfl
@[simp] theorem State.updCmd_flash (s : State) (cid : Nat) (f : Cmd → Cmd) : (s.updCmd cid f).flash = s.flash := rfl
@[simp] theorem State.updCmd_nib (s : State) (cid : Nat) (f : Cmd → Cmd) : (s.updCmd cid f).nib = s.nib := rfl
@[simp] theorem State.updCmd_pins (s : State) (cid : Nat) (f : Cmd → Cmd) : (s.updCmd cid f).pins = s.pins := rfl
@[simp] theorem State.updCmd_free (s : State) (cid : Nat) (f : Cmd → Cmd) : (s.updCmd cid f).free = s.free := rfl
@[simp] theorem State.updCmd_out (s : State) (cid : Nat) (f : Cmd → Cmd) : (s.updCmd cid f).out = s.out := rfl

@[simp] theorem State.updSector_pending (s : State) (a : Nat) (f : Sector → Sector) : (s.updSector a f).pending = s.pending := rfl
@[simp] theorem State.updSector_regs (s : State) (a : Nat) (f : Sector → Sector) : (s.updSector a f).regs = s.regs := rfl
@[simp] theorem State.updSector_latch (s : State) (a : Nat) (f : Sector → Sector) : (s.updSector a f).latch = s.latch := rfl
@[simp] theorem State.updSector_held (s : State) (a : Nat) (f : Sector → Sector) : (s.updSector a f).held = s.held := rfl
@[simp] theorem State.updSector_mem (s : State) (a : Nat) (f : Sector → Sector) : (s.updSector a f).mem = s.mem := rfl
@[simp] theorem State.updSector_pace (s : State) (a : Nat) (f : Sector → Sector) : (s.updSector a f).pace = s.pace := rfl
@[simp] theorem State.updSector_flt (s : State) (a : Nat) (f : Sector → Sector) : (s.updSector a f).flt = s.flt := rfl
@[simp] theorem State.updSector_host (s : State) (a : Nat) (f : Sector → Sector) : (s.updSector a f).host = s.host := rfl
@[simp] theorem State.updSector_xlat (s : State) (a : Nat) (f : Sector → Sector) : (s.updSector a f).xlat = s.xlat := rfl
@[simp] theorem State.updSector_sched (s : State) (a : Nat) (f : Sector → Sector) : (s.updSector a f).sched = s.sched := rfl
@[simp] theorem State.updSector_folio (s : State) (a : Nat) (f : Sector → Sector) : (s.updSector a f).folio = s.folio := rfl
@[simp] theorem State.updSector_tiles (s : State) (a : Nat) (f : Sector → Sector) : (s.updSector a f).tiles = s.tiles := rfl
@[simp] theorem State.updSector_saved (s : State) (a : Nat) (f : Sector → Sector) : (s.updSector a f).saved = s.saved := rfl
@[simp] theorem State.updSector_units (s : State) (a : Nat) (f : Sector → Sector) : (s.updSector a f).units = s.units := rfl
@[simp] theorem State.updSector_fab (s : State) (a : Nat) (f : Sector → Sector) : (s.updSector a f).fab = s.fab := rfl
@[simp] theorem State.updSector_caches (s : State) (a : Nat) (f : Sector → Sector) : (s.updSector a f).caches = s.caches := rfl
@[simp] theorem State.updSector_merges (s : State) (a : Nat) (f : Sector → Sector) : (s.updSector a f).merges = s.merges := rfl
@[simp] theorem State.updSector_flash (s : State) (a : Nat) (f : Sector → Sector) : (s.updSector a f).flash = s.flash := rfl
@[simp] theorem State.updSector_nib (s : State) (a : Nat) (f : Sector → Sector) : (s.updSector a f).nib = s.nib := rfl
@[simp] theorem State.updSector_pins (s : State) (a : Nat) (f : Sector → Sector) : (s.updSector a f).pins = s.pins := rfl
@[simp] theorem State.updSector_free (s : State) (a : Nat) (f : Sector → Sector) : (s.updSector a f).free = s.free := rfl
@[simp] theorem State.updSector_out (s : State) (a : Nat) (f : Sector → Sector) : (s.updSector a f).out = s.out := rfl

@[simp] theorem State.updRing_pending (s : State) (r : Nat) (f : Ring → Ring) : (s.updRing r f).pending = s.pending := rfl
@[simp] theorem State.updRing_regs (s : State) (r : Nat) (f : Ring → Ring) : (s.updRing r f).regs = s.regs := rfl
@[simp] theorem State.updRing_latch (s : State) (r : Nat) (f : Ring → Ring) : (s.updRing r f).latch = s.latch := rfl
@[simp] theorem State.updRing_held (s : State) (r : Nat) (f : Ring → Ring) : (s.updRing r f).held = s.held := rfl
@[simp] theorem State.updRing_mem (s : State) (r : Nat) (f : Ring → Ring) : (s.updRing r f).mem = s.mem := rfl
@[simp] theorem State.updRing_pace (s : State) (r : Nat) (f : Ring → Ring) : (s.updRing r f).pace = s.pace := rfl
@[simp] theorem State.updRing_host (s : State) (r : Nat) (f : Ring → Ring) : (s.updRing r f).host = s.host := rfl
@[simp] theorem State.updRing_xlat (s : State) (r : Nat) (f : Ring → Ring) : (s.updRing r f).xlat = s.xlat := rfl
@[simp] theorem State.updRing_sched (s : State) (r : Nat) (f : Ring → Ring) : (s.updRing r f).sched = s.sched := rfl
@[simp] theorem State.updRing_folio (s : State) (r : Nat) (f : Ring → Ring) : (s.updRing r f).folio = s.folio := rfl
@[simp] theorem State.updRing_tiles (s : State) (r : Nat) (f : Ring → Ring) : (s.updRing r f).tiles = s.tiles := rfl
@[simp] theorem State.updRing_saved (s : State) (r : Nat) (f : Ring → Ring) : (s.updRing r f).saved = s.saved := rfl
@[simp] theorem State.updRing_units (s : State) (r : Nat) (f : Ring → Ring) : (s.updRing r f).units = s.units := rfl
@[simp] theorem State.updRing_fab (s : State) (r : Nat) (f : Ring → Ring) : (s.updRing r f).fab = s.fab := rfl
@[simp] theorem State.updRing_caches (s : State) (r : Nat) (f : Ring → Ring) : (s.updRing r f).caches = s.caches := rfl
@[simp] theorem State.updRing_merges (s : State) (r : Nat) (f : Ring → Ring) : (s.updRing r f).merges = s.merges := rfl
@[simp] theorem State.updRing_memc (s : State) (r : Nat) (f : Ring → Ring) : (s.updRing r f).memc = s.memc := rfl
@[simp] theorem State.updRing_flash (s : State) (r : Nat) (f : Ring → Ring) : (s.updRing r f).flash = s.flash := rfl
@[simp] theorem State.updRing_nib (s : State) (r : Nat) (f : Ring → Ring) : (s.updRing r f).nib = s.nib := rfl
@[simp] theorem State.updRing_pins (s : State) (r : Nat) (f : Ring → Ring) : (s.updRing r f).pins = s.pins := rfl
@[simp] theorem State.updRing_free (s : State) (r : Nat) (f : Ring → Ring) : (s.updRing r f).free = s.free := rfl
@[simp] theorem State.updRing_out (s : State) (r : Nat) (f : Ring → Ring) : (s.updRing r f).out = s.out := rfl

/-! ## What each update leaves in its field -/

@[simp] theorem State.setReg_reg_same (s : State) (k v : Nat) : (s.setReg k v).reg k = v % 2 ^ 64 := by
  simp [State.reg, State.setReg]

theorem State.setReg_reg_other (s : State) {k j : Nat} (v : Nat) (h : j ≠ k) : (s.setReg k v).reg j = s.reg j := by
  have aux : ∀ (d e : Word) (t : Tbl Word), Tbl.get e (Tbl.set d t k (BitVec.ofNat 64 v)) j = Tbl.get e t j := by
    intro d e t
    unfold Tbl.set
    split
    · exact Tbl.get_erase_other e t h
    · exact Tbl.get_insert_other e t _ h
  simp [State.reg, State.setReg, aux]

/-- What a register reads after one is set. -/
theorem State.setReg_reg (s : State) (k j v : Nat) : (s.setReg k v).reg j = if j = k then v % 2 ^ 64 else s.reg j := by
  split
  next h => subst h; exact s.setReg_reg_same j v
  next h => exact s.setReg_reg_other v h

theorem State.setField_reg_other (s : State) {k j : Nat} (hi lo x : Nat) (h : j ≠ k) : (s.setField k hi lo x).reg j = s.reg j :=
  s.setReg_reg_other _ h

theorem State.bump_reg_other (s : State) {k j : Nat} (w n : Nat) (h : j ≠ k) : (s.bump k w n).reg j = s.reg j :=
  s.setReg_reg_other _ h

theorem State.maxReg_reg_other (s : State) {k j : Nat} (w n : Nat) (h : j ≠ k) : (s.maxReg k w n).reg j = s.reg j :=
  s.setReg_reg_other _ h

@[simp] theorem State.reg_lt (s : State) (k : Nat) : s.reg k < 2 ^ 64 := (Tbl.get (BitVec.ofNat 64 (regReset k)) s.regs k).isLt

/-- A register reads by the stored registers alone. -/
theorem State.reg_congr {s s' : State} (h : s'.regs = s.regs) (k : Nat) : s'.reg k = s.reg k := by simp [State.reg, h]

@[simp] theorem State.emit_out (s : State) (o : Out) : (s.emit o).out = s.out ++ [o] := rfl
@[simp] theorem State.useFree_free (s : State) : s.useFree.free = s.free + 1 := rfl

@[simp] theorem State.setTile_tile_same (s : State) (t : Nat) (x : Tile) : (s.setTile t x).tile t = x := by
  simp [State.tile, State.setTile]

theorem State.setTile_tile_other (s : State) {t u : Nat} (x : Tile) (h : u ≠ t) : (s.setTile t x).tile u = s.tile u :=
  Tbl.get_set_other _ _ _ h

@[simp] theorem State.updTile_tile_same (s : State) (t : Nat) (f : Tile → Tile) : (s.updTile t f).tile t = f (s.tile t) := by
  simp [State.updTile]

theorem State.updTile_tile_other (s : State) {t u : Nat} (f : Tile → Tile) (h : u ≠ t) : (s.updTile t f).tile u = s.tile u :=
  s.setTile_tile_other _ h

/-- A tile reads by the stored tiles alone. -/
theorem State.tile_congr {s s' : State} (h : s'.tiles = s.tiles) (t : Nat) : s'.tile t = s.tile t := by simp [State.tile, h]

@[simp] theorem Tile.setChan_chan_same (x : Tile) (c : Nat) (y : Chan) : (x.setChan c y).chan c = y := by
  simp [Tile.chan, Tile.setChan]

theorem Tile.setChan_chan_other (x : Tile) {c b : Nat} (y : Chan) (h : b ≠ c) : (x.setChan c y).chan b = x.chan b :=
  Tbl.get_set_other _ _ _ h

@[simp] theorem State.updChan_chan_same (s : State) (t c : Nat) (f : Chan → Chan) :
    (s.updChan t c f).chan t c = f (s.chan t c) := by
  simp [State.chan, State.updChan]

theorem State.updChan_chan_other (s : State) {t u c b : Nat} (f : Chan → Chan) (h : u ≠ t ∨ b ≠ c) :
    (s.updChan t c f).chan u b = s.chan u b := by
  by_cases hu : u = t
  · subst hu
    have hb : b ≠ c := by simpa using h
    simp [State.chan, State.updChan, Tile.setChan_chan_other _ _ hb]
  · simp [State.chan, State.updChan, State.updTile_tile_other _ _ hu]

/-- A channel's update leaves the rest of its tile alone. -/
@[simp] theorem State.updChan_vec (s : State) (t c u : Nat) (f : Chan → Chan) : ((s.updChan t c f).tile u).vec = (s.tile u).vec := by
  by_cases h : u = t
  · subst h; simp [State.updChan, Tile.setChan]
  · simp [State.updChan, State.updTile_tile_other _ _ h]

@[simp] theorem State.updChan_task (s : State) (t c u : Nat) (f : Chan → Chan) : ((s.updChan t c f).tile u).task = (s.tile u).task := by
  by_cases h : u = t
  · subst h; simp [State.updChan, Tile.setChan]
  · simp [State.updChan, State.updTile_tile_other _ _ h]

@[simp] theorem State.updChan_tokens (s : State) (t c u : Nat) (f : Chan → Chan) :
    ((s.updChan t c f).tile u).tokens = (s.tile u).tokens := by
  by_cases h : u = t
  · subst h; simp [State.updChan, Tile.setChan]
  · simp [State.updChan, State.updTile_tile_other _ _ h]

@[simp] theorem State.setCmd_cmd_same (s : State) (cid : Nat) (c : Cmd) : (s.setCmd cid c).cmd cid = c := by
  simp [State.cmd, State.setCmd]

theorem State.setCmd_cmd_other (s : State) {cid d : Nat} (c : Cmd) (h : d ≠ cid) : (s.setCmd cid c).cmd d = s.cmd d :=
  Tbl.get_set_other _ _ _ h

@[simp] theorem State.updCmd_cmd_same (s : State) (cid : Nat) (f : Cmd → Cmd) : (s.updCmd cid f).cmd cid = f (s.cmd cid) := by
  simp [State.updCmd]

theorem State.updCmd_cmd_other (s : State) {cid d : Nat} (f : Cmd → Cmd) (h : d ≠ cid) : (s.updCmd cid f).cmd d = s.cmd d :=
  s.setCmd_cmd_other _ h

/-- A command reads by the scheduler's state alone. -/
theorem State.cmd_congr {s s' : State} (h : s'.sched = s.sched) (cid : Nat) : s'.cmd cid = s.cmd cid := by simp [State.cmd, h]

@[simp] theorem State.updQueue_queue_same (s : State) (q : Nat) (f : Queue → Queue) : (s.updQueue q f).queue q = f (s.queue q) := by
  simp [State.queue, State.updQueue]

theorem State.updQueue_queue_other (s : State) {q r : Nat} (f : Queue → Queue) (h : r ≠ q) : (s.updQueue q f).queue r = s.queue r :=
  Tbl.get_set_other _ _ _ h


@[simp] theorem State.updSector_sector_same (s : State) (a : Nat) (f : Sector → Sector) : (s.updSector a f).sector a = f (s.sector a) := by
  simp [State.sector, State.updSector]

theorem State.updSector_sector_other (s : State) {a b : Nat} (f : Sector → Sector) (h : b / 64 ≠ a / 64) :
    (s.updSector a f).sector b = s.sector b := Tbl.get_set_other _ _ _ h

@[simp] theorem State.updRing_ring_same (s : State) (r : Nat) (f : Ring → Ring) : (s.updRing r f).ring r = f (s.ring r) := by
  simp [State.ring, State.updRing]

theorem State.updRing_ring_other (s : State) {r q : Nat} (f : Ring → Ring) (h : q ≠ r) : (s.updRing r f).ring q = s.ring q :=
  Tbl.get_set_other _ _ _ h

/-! ## What the accessors see through an update -/

@[simp] theorem State.setReg_tile (s : State) (k v : Nat) (u : Nat) : (s.setReg k v).tile u = s.tile u := rfl
@[simp] theorem State.setReg_chan (s : State) (k v : Nat) (u b : Nat) : (s.setReg k v).chan u b = s.chan u b := rfl
@[simp] theorem State.setReg_cmd (s : State) (k v : Nat) (d : Nat) : (s.setReg k v).cmd d = s.cmd d := rfl
@[simp] theorem State.setReg_queue (s : State) (k v : Nat) (p : Nat) : (s.setReg k v).queue p = s.queue p := rfl
@[simp] theorem State.setReg_sector (s : State) (k v : Nat) (b : Nat) : (s.setReg k v).sector b = s.sector b := rfl
@[simp] theorem State.setReg_ring (s : State) (k v : Nat) (j : Nat) : (s.setReg k v).ring j = s.ring j := rfl
@[simp] theorem State.setReg_time (s : State) (k v : Nat) : (s.setReg k v).time = s.time := rfl
@[simp] theorem State.setReg_alive (s : State) (k v : Nat) : (s.setReg k v).alive = s.alive := rfl

@[simp] theorem State.setField_tile (s : State) (k hi lo x : Nat) (u : Nat) : (s.setField k hi lo x).tile u = s.tile u := rfl
@[simp] theorem State.setField_chan (s : State) (k hi lo x : Nat) (u b : Nat) : (s.setField k hi lo x).chan u b = s.chan u b := rfl
@[simp] theorem State.setField_cmd (s : State) (k hi lo x : Nat) (d : Nat) : (s.setField k hi lo x).cmd d = s.cmd d := rfl
@[simp] theorem State.setField_queue (s : State) (k hi lo x : Nat) (p : Nat) : (s.setField k hi lo x).queue p = s.queue p := rfl
@[simp] theorem State.setField_sector (s : State) (k hi lo x : Nat) (b : Nat) : (s.setField k hi lo x).sector b = s.sector b := rfl
@[simp] theorem State.setField_ring (s : State) (k hi lo x : Nat) (j : Nat) : (s.setField k hi lo x).ring j = s.ring j := rfl
@[simp] theorem State.setField_time (s : State) (k hi lo x : Nat) : (s.setField k hi lo x).time = s.time := rfl
@[simp] theorem State.setField_alive (s : State) (k hi lo x : Nat) : (s.setField k hi lo x).alive = s.alive := rfl

@[simp] theorem State.bump_tile (s : State) (k w n : Nat) (u : Nat) : (s.bump k w n).tile u = s.tile u := rfl
@[simp] theorem State.bump_chan (s : State) (k w n : Nat) (u b : Nat) : (s.bump k w n).chan u b = s.chan u b := rfl
@[simp] theorem State.bump_cmd (s : State) (k w n : Nat) (d : Nat) : (s.bump k w n).cmd d = s.cmd d := rfl
@[simp] theorem State.bump_queue (s : State) (k w n : Nat) (p : Nat) : (s.bump k w n).queue p = s.queue p := rfl
@[simp] theorem State.bump_sector (s : State) (k w n : Nat) (b : Nat) : (s.bump k w n).sector b = s.sector b := rfl
@[simp] theorem State.bump_ring (s : State) (k w n : Nat) (j : Nat) : (s.bump k w n).ring j = s.ring j := rfl
@[simp] theorem State.bump_time (s : State) (k w n : Nat) : (s.bump k w n).time = s.time := rfl
@[simp] theorem State.bump_alive (s : State) (k w n : Nat) : (s.bump k w n).alive = s.alive := rfl

@[simp] theorem State.maxReg_tile (s : State) (k w n : Nat) (u : Nat) : (s.maxReg k w n).tile u = s.tile u := rfl
@[simp] theorem State.maxReg_chan (s : State) (k w n : Nat) (u b : Nat) : (s.maxReg k w n).chan u b = s.chan u b := rfl
@[simp] theorem State.maxReg_cmd (s : State) (k w n : Nat) (d : Nat) : (s.maxReg k w n).cmd d = s.cmd d := rfl
@[simp] theorem State.maxReg_queue (s : State) (k w n : Nat) (p : Nat) : (s.maxReg k w n).queue p = s.queue p := rfl
@[simp] theorem State.maxReg_sector (s : State) (k w n : Nat) (b : Nat) : (s.maxReg k w n).sector b = s.sector b := rfl
@[simp] theorem State.maxReg_ring (s : State) (k w n : Nat) (j : Nat) : (s.maxReg k w n).ring j = s.ring j := rfl
@[simp] theorem State.maxReg_time (s : State) (k w n : Nat) : (s.maxReg k w n).time = s.time := rfl
@[simp] theorem State.maxReg_alive (s : State) (k w n : Nat) : (s.maxReg k w n).alive = s.alive := rfl

@[simp] theorem State.emit_tile (s : State) (o : Out) (u : Nat) : (s.emit o).tile u = s.tile u := rfl
@[simp] theorem State.emit_chan (s : State) (o : Out) (u b : Nat) : (s.emit o).chan u b = s.chan u b := rfl
@[simp] theorem State.emit_cmd (s : State) (o : Out) (d : Nat) : (s.emit o).cmd d = s.cmd d := rfl
@[simp] theorem State.emit_queue (s : State) (o : Out) (p : Nat) : (s.emit o).queue p = s.queue p := rfl
@[simp] theorem State.emit_sector (s : State) (o : Out) (b : Nat) : (s.emit o).sector b = s.sector b := rfl
@[simp] theorem State.emit_ring (s : State) (o : Out) (j : Nat) : (s.emit o).ring j = s.ring j := rfl
@[simp] theorem State.emit_reg (s : State) (o : Out) (j : Nat) : (s.emit o).reg j = s.reg j := rfl
@[simp] theorem State.emit_time (s : State) (o : Out) : (s.emit o).time = s.time := rfl
@[simp] theorem State.emit_alive (s : State) (o : Out) : (s.emit o).alive = s.alive := rfl

@[simp] theorem State.useFree_tile (s : State) (u : Nat) : (s.useFree).tile u = s.tile u := rfl
@[simp] theorem State.useFree_chan (s : State) (u b : Nat) : (s.useFree).chan u b = s.chan u b := rfl
@[simp] theorem State.useFree_cmd (s : State) (d : Nat) : (s.useFree).cmd d = s.cmd d := rfl
@[simp] theorem State.useFree_queue (s : State) (p : Nat) : (s.useFree).queue p = s.queue p := rfl
@[simp] theorem State.useFree_sector (s : State) (b : Nat) : (s.useFree).sector b = s.sector b := rfl
@[simp] theorem State.useFree_ring (s : State) (j : Nat) : (s.useFree).ring j = s.ring j := rfl
@[simp] theorem State.useFree_reg (s : State) (j : Nat) : (s.useFree).reg j = s.reg j := rfl
@[simp] theorem State.useFree_time (s : State) : (s.useFree).time = s.time := rfl
@[simp] theorem State.useFree_alive (s : State) : (s.useFree).alive = s.alive := rfl

@[simp] theorem State.setTile_cmd (s : State) (t : Nat) (x : Tile) (d : Nat) : (s.setTile t x).cmd d = s.cmd d := rfl
@[simp] theorem State.setTile_queue (s : State) (t : Nat) (x : Tile) (p : Nat) : (s.setTile t x).queue p = s.queue p := rfl
@[simp] theorem State.setTile_sector (s : State) (t : Nat) (x : Tile) (b : Nat) : (s.setTile t x).sector b = s.sector b := rfl
@[simp] theorem State.setTile_ring (s : State) (t : Nat) (x : Tile) (j : Nat) : (s.setTile t x).ring j = s.ring j := rfl
@[simp] theorem State.setTile_reg (s : State) (t : Nat) (x : Tile) (j : Nat) : (s.setTile t x).reg j = s.reg j := rfl
@[simp] theorem State.setTile_time (s : State) (t : Nat) (x : Tile) : (s.setTile t x).time = s.time := rfl
@[simp] theorem State.setTile_alive (s : State) (t : Nat) (x : Tile) : (s.setTile t x).alive = s.alive := rfl

@[simp] theorem State.updTile_cmd (s : State) (t : Nat) (f : Tile → Tile) (d : Nat) : (s.updTile t f).cmd d = s.cmd d := rfl
@[simp] theorem State.updTile_queue (s : State) (t : Nat) (f : Tile → Tile) (p : Nat) : (s.updTile t f).queue p = s.queue p := rfl
@[simp] theorem State.updTile_sector (s : State) (t : Nat) (f : Tile → Tile) (b : Nat) : (s.updTile t f).sector b = s.sector b := rfl
@[simp] theorem State.updTile_ring (s : State) (t : Nat) (f : Tile → Tile) (j : Nat) : (s.updTile t f).ring j = s.ring j := rfl
@[simp] theorem State.updTile_reg (s : State) (t : Nat) (f : Tile → Tile) (j : Nat) : (s.updTile t f).reg j = s.reg j := rfl
@[simp] theorem State.updTile_time (s : State) (t : Nat) (f : Tile → Tile) : (s.updTile t f).time = s.time := rfl
@[simp] theorem State.updTile_alive (s : State) (t : Nat) (f : Tile → Tile) : (s.updTile t f).alive = s.alive := rfl

@[simp] theorem State.updChan_cmd (s : State) (t c : Nat) (f : Chan → Chan) (d : Nat) : (s.updChan t c f).cmd d = s.cmd d := rfl
@[simp] theorem State.updChan_queue (s : State) (t c : Nat) (f : Chan → Chan) (p : Nat) : (s.updChan t c f).queue p = s.queue p := rfl
@[simp] theorem State.updChan_sector (s : State) (t c : Nat) (f : Chan → Chan) (b : Nat) : (s.updChan t c f).sector b = s.sector b := rfl
@[simp] theorem State.updChan_ring (s : State) (t c : Nat) (f : Chan → Chan) (j : Nat) : (s.updChan t c f).ring j = s.ring j := rfl
@[simp] theorem State.updChan_reg (s : State) (t c : Nat) (f : Chan → Chan) (j : Nat) : (s.updChan t c f).reg j = s.reg j := rfl
@[simp] theorem State.updChan_time (s : State) (t c : Nat) (f : Chan → Chan) : (s.updChan t c f).time = s.time := rfl
@[simp] theorem State.updChan_alive (s : State) (t c : Nat) (f : Chan → Chan) : (s.updChan t c f).alive = s.alive := rfl

@[simp] theorem State.updEng_cmd (s : State) (t e : Nat) (f : Eng → Eng) (d : Nat) : (s.updEng t e f).cmd d = s.cmd d := rfl
@[simp] theorem State.updEng_queue (s : State) (t e : Nat) (f : Eng → Eng) (p : Nat) : (s.updEng t e f).queue p = s.queue p := rfl
@[simp] theorem State.updEng_sector (s : State) (t e : Nat) (f : Eng → Eng) (b : Nat) : (s.updEng t e f).sector b = s.sector b := rfl
@[simp] theorem State.updEng_ring (s : State) (t e : Nat) (f : Eng → Eng) (j : Nat) : (s.updEng t e f).ring j = s.ring j := rfl
@[simp] theorem State.updEng_reg (s : State) (t e : Nat) (f : Eng → Eng) (j : Nat) : (s.updEng t e f).reg j = s.reg j := rfl
@[simp] theorem State.updEng_time (s : State) (t e : Nat) (f : Eng → Eng) : (s.updEng t e f).time = s.time := rfl
@[simp] theorem State.updEng_alive (s : State) (t e : Nat) (f : Eng → Eng) : (s.updEng t e f).alive = s.alive := rfl

@[simp] theorem State.updQueue_tile (s : State) (q : Nat) (f : Queue → Queue) (u : Nat) : (s.updQueue q f).tile u = s.tile u := rfl
@[simp] theorem State.updQueue_chan (s : State) (q : Nat) (f : Queue → Queue) (u b : Nat) : (s.updQueue q f).chan u b = s.chan u b := rfl
@[simp] theorem State.updQueue_sector (s : State) (q : Nat) (f : Queue → Queue) (b : Nat) : (s.updQueue q f).sector b = s.sector b := rfl
@[simp] theorem State.updQueue_ring (s : State) (q : Nat) (f : Queue → Queue) (j : Nat) : (s.updQueue q f).ring j = s.ring j := rfl
@[simp] theorem State.updQueue_reg (s : State) (q : Nat) (f : Queue → Queue) (j : Nat) : (s.updQueue q f).reg j = s.reg j := rfl
@[simp] theorem State.updQueue_time (s : State) (q : Nat) (f : Queue → Queue) : (s.updQueue q f).time = s.time := rfl
@[simp] theorem State.updQueue_alive (s : State) (q : Nat) (f : Queue → Queue) : (s.updQueue q f).alive = s.alive := rfl

@[simp] theorem State.setCmd_tile (s : State) (cid : Nat) (c : Cmd) (u : Nat) : (s.setCmd cid c).tile u = s.tile u := rfl
@[simp] theorem State.setCmd_chan (s : State) (cid : Nat) (c : Cmd) (u b : Nat) : (s.setCmd cid c).chan u b = s.chan u b := rfl
@[simp] theorem State.setCmd_sector (s : State) (cid : Nat) (c : Cmd) (b : Nat) : (s.setCmd cid c).sector b = s.sector b := rfl
@[simp] theorem State.setCmd_ring (s : State) (cid : Nat) (c : Cmd) (j : Nat) : (s.setCmd cid c).ring j = s.ring j := rfl
@[simp] theorem State.setCmd_reg (s : State) (cid : Nat) (c : Cmd) (j : Nat) : (s.setCmd cid c).reg j = s.reg j := rfl
@[simp] theorem State.setCmd_time (s : State) (cid : Nat) (c : Cmd) : (s.setCmd cid c).time = s.time := rfl
@[simp] theorem State.setCmd_alive (s : State) (cid : Nat) (c : Cmd) : (s.setCmd cid c).alive = s.alive := rfl

@[simp] theorem State.updCmd_tile (s : State) (cid : Nat) (f : Cmd → Cmd) (u : Nat) : (s.updCmd cid f).tile u = s.tile u := rfl
@[simp] theorem State.updCmd_chan (s : State) (cid : Nat) (f : Cmd → Cmd) (u b : Nat) : (s.updCmd cid f).chan u b = s.chan u b := rfl
@[simp] theorem State.updCmd_sector (s : State) (cid : Nat) (f : Cmd → Cmd) (b : Nat) : (s.updCmd cid f).sector b = s.sector b := rfl
@[simp] theorem State.updCmd_ring (s : State) (cid : Nat) (f : Cmd → Cmd) (j : Nat) : (s.updCmd cid f).ring j = s.ring j := rfl
@[simp] theorem State.updCmd_reg (s : State) (cid : Nat) (f : Cmd → Cmd) (j : Nat) : (s.updCmd cid f).reg j = s.reg j := rfl
@[simp] theorem State.updCmd_time (s : State) (cid : Nat) (f : Cmd → Cmd) : (s.updCmd cid f).time = s.time := rfl
@[simp] theorem State.updCmd_alive (s : State) (cid : Nat) (f : Cmd → Cmd) : (s.updCmd cid f).alive = s.alive := rfl

@[simp] theorem State.updSector_tile (s : State) (a : Nat) (f : Sector → Sector) (u : Nat) : (s.updSector a f).tile u = s.tile u := rfl
@[simp] theorem State.updSector_chan (s : State) (a : Nat) (f : Sector → Sector) (u b : Nat) : (s.updSector a f).chan u b = s.chan u b := rfl
@[simp] theorem State.updSector_cmd (s : State) (a : Nat) (f : Sector → Sector) (d : Nat) : (s.updSector a f).cmd d = s.cmd d := rfl
@[simp] theorem State.updSector_queue (s : State) (a : Nat) (f : Sector → Sector) (p : Nat) : (s.updSector a f).queue p = s.queue p := rfl
@[simp] theorem State.updSector_ring (s : State) (a : Nat) (f : Sector → Sector) (j : Nat) : (s.updSector a f).ring j = s.ring j := rfl
@[simp] theorem State.updSector_reg (s : State) (a : Nat) (f : Sector → Sector) (j : Nat) : (s.updSector a f).reg j = s.reg j := rfl
@[simp] theorem State.updSector_time (s : State) (a : Nat) (f : Sector → Sector) : (s.updSector a f).time = s.time := rfl
@[simp] theorem State.updSector_alive (s : State) (a : Nat) (f : Sector → Sector) : (s.updSector a f).alive = s.alive := rfl

@[simp] theorem State.updRing_tile (s : State) (r : Nat) (f : Ring → Ring) (u : Nat) : (s.updRing r f).tile u = s.tile u := rfl
@[simp] theorem State.updRing_chan (s : State) (r : Nat) (f : Ring → Ring) (u b : Nat) : (s.updRing r f).chan u b = s.chan u b := rfl
@[simp] theorem State.updRing_cmd (s : State) (r : Nat) (f : Ring → Ring) (d : Nat) : (s.updRing r f).cmd d = s.cmd d := rfl
@[simp] theorem State.updRing_queue (s : State) (r : Nat) (f : Ring → Ring) (p : Nat) : (s.updRing r f).queue p = s.queue p := rfl
@[simp] theorem State.updRing_sector (s : State) (r : Nat) (f : Ring → Ring) (b : Nat) : (s.updRing r f).sector b = s.sector b := rfl
@[simp] theorem State.updRing_reg (s : State) (r : Nat) (f : Ring → Ring) (j : Nat) : (s.updRing r f).reg j = s.reg j := rfl
@[simp] theorem State.updRing_time (s : State) (r : Nat) (f : Ring → Ring) : (s.updRing r f).time = s.time := rfl
@[simp] theorem State.updRing_alive (s : State) (r : Nat) (f : Ring → Ring) : (s.updRing r f).alive = s.alive := rfl

@[simp] theorem State.updQueue_cmd (s : State) (q cid : Nat) (f : Queue → Queue) : (s.updQueue q f).cmd cid = s.cmd cid := rfl
@[simp] theorem State.updCmd_queue (s : State) (q cid : Nat) (f : Cmd → Cmd) : (s.updCmd cid f).queue q = s.queue q := rfl
@[simp] theorem State.setCmd_queue (s : State) (q cid : Nat) (c : Cmd) : (s.setCmd cid c).queue q = s.queue q := rfl

/-! ## Reset -/

@[simp] theorem State.reset_reg (k : Nat) : State.reset.reg k = regReset k % 2 ^ 64 := by simp [State.reg, State.reset, Tbl.get]
theorem State.reset_mem_wf : Memory.wf State.reset.mem = true := rfl

end Sys2Proof.Machine
end

