-- ==== Sys2Proof/Laws/Ops.lean ====
section
/-!
SUPPORT. The laws of the named operations of Machine/Ops.lean: all that a report to the blot rings can change, reads and writes of
device memory, and the form of a meaning.
-/
namespace Sys2Proof.Machine

/-! ## Reports -/

/-- `s'` differs from `s` by reports alone: registers, fault state, MSI-X messages due, and what the block has emitted. -/
def State.Reported (s s' : State) : Prop :=
  ∃ r f d o, s' = { s with regs := r, flt := f, host := { s.host with msixDue := d }, out := o }

theorem State.Reported.refl (s : State) : s.Reported s := ⟨s.regs, s.flt, s.host.msixDue, s.out, rfl⟩

theorem State.Reported.trans {a b c : State} (h : a.Reported b) (k : b.Reported c) : a.Reported c := by
  obtain ⟨r, f, d, o, rfl⟩ := h
  obtain ⟨r', f', d', o', rfl⟩ := k
  exact ⟨r', f', d', o', rfl⟩

theorem State.setReg_reported (s : State) (k v : Nat) : s.Reported (s.setReg k v) := ⟨_, s.flt, s.host.msixDue, s.out, rfl⟩
theorem State.emit_reported (s : State) (o : Out) : s.Reported (s.emit o) := ⟨s.regs, s.flt, s.host.msixDue, _, rfl⟩
theorem State.updRing_reported (s : State) (r : Nat) (f : Ring → Ring) : s.Reported (s.updRing r f) :=
  ⟨s.regs, _, s.host.msixDue, s.out, rfl⟩

theorem State.msixDue_reported (s : State) (d v : Nat) : s.Reported (s.msixDue d v) := by
  unfold State.msixDue
  split
  · exact .refl s
  · split
    · exact .refl s
    · exact ⟨s.regs, s.flt, _, s.out, rfl⟩

theorem State.ringPut_reported (s : State) (r : Nat) (b : Blot) : s.Reported (s.ringPut r b) := by
  unfold State.ringPut
  refine .trans ?_ (State.msixDue_reported ..)
  refine .trans ?_ (State.updRing_reported ..)
  split
  · exact .trans (State.emit_reported ..) (State.setReg_reported ..)
  · exact State.emit_reported ..

theorem State.ringLose_reported (s : State) (r : Nat) (b : Blot) : s.Reported (s.ringLose r b) := by
  have h : ∀ f : FltSt, (s.bump (ringReg r + 0x14) 32 1).Reported { s.bump (ringReg r + 0x14) 32 1 with flt := f } :=
    fun f => ⟨_, f, s.host.msixDue, s.out, rfl⟩
  have h0 : s.Reported (s.bump (ringReg r + 0x14) 32 1) := State.setReg_reported ..
  unfold State.ringLose
  simp only
  split
  · refine .trans ?_ (State.msixDue_reported ..)
    refine .trans ?_ (State.setReg_reported ..)
    exact (h0.trans (h _)).trans (State.updRing_reported ..)
  · exact (h0.trans (h _)).trans (State.updRing_reported ..)

theorem State.ringFlush_reported (fuel : Nat) (s : State) (r : Nat) : s.Reported (State.ringFlush fuel s r) := by
  induction fuel generalizing s with
  | zero => exact .refl s
  | succ n ih =>
    unfold State.ringFlush
    split
    · exact .refl s
    · split
      · exact .trans (.trans (State.updRing_reported ..) (State.ringPut_reported ..)) (ih _)
      · simp only
        split
        · exact .refl s
        · exact .trans (State.updRing_reported ..) (State.ringPut_reported ..)

/-- A fold of operations that only report only reports. -/
theorem State.foldl_reported {α : Type} (f : State → α → State) (h : ∀ (s : State) (a : α), s.Reported (f s a)) (l : List α) (s : State) :
    s.Reported (l.foldl f s) := by
  induction l generalizing s with
  | nil => exact .refl s
  | cons a l ih => exact .trans (h s a) (ih _)

/-- All that a blot can change (R456-R460). -/
theorem State.blot_reported (s : State) (b : Blot) (rs : List Nat) : s.Reported (s.blot b rs) := by
  unfold State.blot
  refine .trans (State.foldl_reported (fun s r => State.ringFlush 4200 s r) (fun s r => State.ringFlush_reported 4200 s r)
    rs.eraseDups s) ?_
  apply State.foldl_reported
  intro s f
  split
  · exact State.ringPut_reported ..
  · exact State.updRing_reported ..
  · exact State.ringLose_reported ..

theorem State.barError_reported (s : State) (port off size data : Nat) : s.Reported (s.barError port off size data) :=
  State.blot_reported ..


theorem State.Reported.pending {s s' : State} (h : s.Reported s') : s'.pending = s.pending := by obtain ⟨_, _, _, _, rfl⟩ := h; rfl
theorem State.Reported.latch {s s' : State} (h : s.Reported s') : s'.latch = s.latch := by obtain ⟨_, _, _, _, rfl⟩ := h; rfl
theorem State.Reported.held {s s' : State} (h : s.Reported s') : s'.held = s.held := by obtain ⟨_, _, _, _, rfl⟩ := h; rfl
theorem State.Reported.mem {s s' : State} (h : s.Reported s') : s'.mem = s.mem := by obtain ⟨_, _, _, _, rfl⟩ := h; rfl
theorem State.Reported.pace {s s' : State} (h : s.Reported s') : s'.pace = s.pace := by obtain ⟨_, _, _, _, rfl⟩ := h; rfl
theorem State.Reported.xlat {s s' : State} (h : s.Reported s') : s'.xlat = s.xlat := by obtain ⟨_, _, _, _, rfl⟩ := h; rfl
theorem State.Reported.sched {s s' : State} (h : s.Reported s') : s'.sched = s.sched := by obtain ⟨_, _, _, _, rfl⟩ := h; rfl
theorem State.Reported.folio {s s' : State} (h : s.Reported s') : s'.folio = s.folio := by obtain ⟨_, _, _, _, rfl⟩ := h; rfl
theorem State.Reported.tiles {s s' : State} (h : s.Reported s') : s'.tiles = s.tiles := by obtain ⟨_, _, _, _, rfl⟩ := h; rfl
theorem State.Reported.saved {s s' : State} (h : s.Reported s') : s'.saved = s.saved := by obtain ⟨_, _, _, _, rfl⟩ := h; rfl
theorem State.Reported.units {s s' : State} (h : s.Reported s') : s'.units = s.units := by obtain ⟨_, _, _, _, rfl⟩ := h; rfl
theorem State.Reported.fab {s s' : State} (h : s.Reported s') : s'.fab = s.fab := by obtain ⟨_, _, _, _, rfl⟩ := h; rfl
theorem State.Reported.caches {s s' : State} (h : s.Reported s') : s'.caches = s.caches := by obtain ⟨_, _, _, _, rfl⟩ := h; rfl
theorem State.Reported.merges {s s' : State} (h : s.Reported s') : s'.merges = s.merges := by obtain ⟨_, _, _, _, rfl⟩ := h; rfl
theorem State.Reported.memc {s s' : State} (h : s.Reported s') : s'.memc = s.memc := by obtain ⟨_, _, _, _, rfl⟩ := h; rfl
theorem State.Reported.flash {s s' : State} (h : s.Reported s') : s'.flash = s.flash := by obtain ⟨_, _, _, _, rfl⟩ := h; rfl
theorem State.Reported.nib {s s' : State} (h : s.Reported s') : s'.nib = s.nib := by obtain ⟨_, _, _, _, rfl⟩ := h; rfl
theorem State.Reported.pins {s s' : State} (h : s.Reported s') : s'.pins = s.pins := by obtain ⟨_, _, _, _, rfl⟩ := h; rfl
theorem State.Reported.free {s s' : State} (h : s.Reported s') : s'.free = s.free := by obtain ⟨_, _, _, _, rfl⟩ := h; rfl

@[simp] theorem State.blot_pending (s : State) (b : Blot) (rs : List Nat) : (s.blot b rs).pending = s.pending := (s.blot_reported b rs).pending
@[simp] theorem State.blot_latch (s : State) (b : Blot) (rs : List Nat) : (s.blot b rs).latch = s.latch := (s.blot_reported b rs).latch
@[simp] theorem State.blot_held (s : State) (b : Blot) (rs : List Nat) : (s.blot b rs).held = s.held := (s.blot_reported b rs).held
@[simp] theorem State.blot_mem (s : State) (b : Blot) (rs : List Nat) : (s.blot b rs).mem = s.mem := (s.blot_reported b rs).mem
@[simp] theorem State.blot_pace (s : State) (b : Blot) (rs : List Nat) : (s.blot b rs).pace = s.pace := (s.blot_reported b rs).pace
@[simp] theorem State.blot_xlat (s : State) (b : Blot) (rs : List Nat) : (s.blot b rs).xlat = s.xlat := (s.blot_reported b rs).xlat
@[simp] theorem State.blot_sched (s : State) (b : Blot) (rs : List Nat) : (s.blot b rs).sched = s.sched := (s.blot_reported b rs).sched
@[simp] theorem State.blot_folio (s : State) (b : Blot) (rs : List Nat) : (s.blot b rs).folio = s.folio := (s.blot_reported b rs).folio
@[simp] theorem State.blot_tiles (s : State) (b : Blot) (rs : List Nat) : (s.blot b rs).tiles = s.tiles := (s.blot_reported b rs).tiles
@[simp] theorem State.blot_saved (s : State) (b : Blot) (rs : List Nat) : (s.blot b rs).saved = s.saved := (s.blot_reported b rs).saved
@[simp] theorem State.blot_units (s : State) (b : Blot) (rs : List Nat) : (s.blot b rs).units = s.units := (s.blot_reported b rs).units
@[simp] theorem State.blot_fab (s : State) (b : Blot) (rs : List Nat) : (s.blot b rs).fab = s.fab := (s.blot_reported b rs).fab
@[simp] theorem State.blot_caches (s : State) (b : Blot) (rs : List Nat) : (s.blot b rs).caches = s.caches := (s.blot_reported b rs).caches
@[simp] theorem State.blot_merges (s : State) (b : Blot) (rs : List Nat) : (s.blot b rs).merges = s.merges := (s.blot_reported b rs).merges
@[simp] theorem State.blot_memc (s : State) (b : Blot) (rs : List Nat) : (s.blot b rs).memc = s.memc := (s.blot_reported b rs).memc
@[simp] theorem State.blot_flash (s : State) (b : Blot) (rs : List Nat) : (s.blot b rs).flash = s.flash := (s.blot_reported b rs).flash
@[simp] theorem State.blot_nib (s : State) (b : Blot) (rs : List Nat) : (s.blot b rs).nib = s.nib := (s.blot_reported b rs).nib
@[simp] theorem State.blot_pins (s : State) (b : Blot) (rs : List Nat) : (s.blot b rs).pins = s.pins := (s.blot_reported b rs).pins
@[simp] theorem State.blot_free (s : State) (b : Blot) (rs : List Nat) : (s.blot b rs).free = s.free := (s.blot_reported b rs).free

@[simp] theorem State.barError_pending (s : State) (port off size data : Nat) : (s.barError port off size data).pending = s.pending := (s.barError_reported port off size data).pending
@[simp] theorem State.barError_latch (s : State) (port off size data : Nat) : (s.barError port off size data).latch = s.latch := (s.barError_reported port off size data).latch
@[simp] theorem State.barError_held (s : State) (port off size data : Nat) : (s.barError port off size data).held = s.held := (s.barError_reported port off size data).held
@[simp] theorem State.barError_mem (s : State) (port off size data : Nat) : (s.barError port off size data).mem = s.mem := (s.barError_reported port off size data).mem
@[simp] theorem State.barError_pace (s : State) (port off size data : Nat) : (s.barError port off size data).pace = s.pace := (s.barError_reported port off size data).pace
@[simp] theorem State.barError_xlat (s : State) (port off size data : Nat) : (s.barError port off size data).xlat = s.xlat := (s.barError_reported port off size data).xlat
@[simp] theorem State.barError_sched (s : State) (port off size data : Nat) : (s.barError port off size data).sched = s.sched := (s.barError_reported port off size data).sched
@[simp] theorem State.barError_folio (s : State) (port off size data : Nat) : (s.barError port off size data).folio = s.folio := (s.barError_reported port off size data).folio
@[simp] theorem State.barError_tiles (s : State) (port off size data : Nat) : (s.barError port off size data).tiles = s.tiles := (s.barError_reported port off size data).tiles
@[simp] theorem State.barError_saved (s : State) (port off size data : Nat) : (s.barError port off size data).saved = s.saved := (s.barError_reported port off size data).saved
@[simp] theorem State.barError_units (s : State) (port off size data : Nat) : (s.barError port off size data).units = s.units := (s.barError_reported port off size data).units
@[simp] theorem State.barError_fab (s : State) (port off size data : Nat) : (s.barError port off size data).fab = s.fab := (s.barError_reported port off size data).fab
@[simp] theorem State.barError_caches (s : State) (port off size data : Nat) : (s.barError port off size data).caches = s.caches := (s.barError_reported port off size data).caches
@[simp] theorem State.barError_merges (s : State) (port off size data : Nat) : (s.barError port off size data).merges = s.merges := (s.barError_reported port off size data).merges
@[simp] theorem State.barError_memc (s : State) (port off size data : Nat) : (s.barError port off size data).memc = s.memc := (s.barError_reported port off size data).memc
@[simp] theorem State.barError_flash (s : State) (port off size data : Nat) : (s.barError port off size data).flash = s.flash := (s.barError_reported port off size data).flash
@[simp] theorem State.barError_nib (s : State) (port off size data : Nat) : (s.barError port off size data).nib = s.nib := (s.barError_reported port off size data).nib
@[simp] theorem State.barError_pins (s : State) (port off size data : Nat) : (s.barError port off size data).pins = s.pins := (s.barError_reported port off size data).pins
@[simp] theorem State.barError_free (s : State) (port off size data : Nat) : (s.barError port off size data).free = s.free := (s.barError_reported port off size data).free

@[simp] theorem State.ringPut_pending (s : State) (r : Nat) (b : Blot) : (s.ringPut r b).pending = s.pending := (s.ringPut_reported r b).pending
@[simp] theorem State.ringPut_latch (s : State) (r : Nat) (b : Blot) : (s.ringPut r b).latch = s.latch := (s.ringPut_reported r b).latch
@[simp] theorem State.ringPut_held (s : State) (r : Nat) (b : Blot) : (s.ringPut r b).held = s.held := (s.ringPut_reported r b).held
@[simp] theorem State.ringPut_mem (s : State) (r : Nat) (b : Blot) : (s.ringPut r b).mem = s.mem := (s.ringPut_reported r b).mem
@[simp] theorem State.ringPut_pace (s : State) (r : Nat) (b : Blot) : (s.ringPut r b).pace = s.pace := (s.ringPut_reported r b).pace
@[simp] theorem State.ringPut_xlat (s : State) (r : Nat) (b : Blot) : (s.ringPut r b).xlat = s.xlat := (s.ringPut_reported r b).xlat
@[simp] theorem State.ringPut_sched (s : State) (r : Nat) (b : Blot) : (s.ringPut r b).sched = s.sched := (s.ringPut_reported r b).sched
@[simp] theorem State.ringPut_folio (s : State) (r : Nat) (b : Blot) : (s.ringPut r b).folio = s.folio := (s.ringPut_reported r b).folio
@[simp] theorem State.ringPut_tiles (s : State) (r : Nat) (b : Blot) : (s.ringPut r b).tiles = s.tiles := (s.ringPut_reported r b).tiles
@[simp] theorem State.ringPut_saved (s : State) (r : Nat) (b : Blot) : (s.ringPut r b).saved = s.saved := (s.ringPut_reported r b).saved
@[simp] theorem State.ringPut_units (s : State) (r : Nat) (b : Blot) : (s.ringPut r b).units = s.units := (s.ringPut_reported r b).units
@[simp] theorem State.ringPut_fab (s : State) (r : Nat) (b : Blot) : (s.ringPut r b).fab = s.fab := (s.ringPut_reported r b).fab
@[simp] theorem State.ringPut_caches (s : State) (r : Nat) (b : Blot) : (s.ringPut r b).caches = s.caches := (s.ringPut_reported r b).caches
@[simp] theorem State.ringPut_merges (s : State) (r : Nat) (b : Blot) : (s.ringPut r b).merges = s.merges := (s.ringPut_reported r b).merges
@[simp] theorem State.ringPut_memc (s : State) (r : Nat) (b : Blot) : (s.ringPut r b).memc = s.memc := (s.ringPut_reported r b).memc
@[simp] theorem State.ringPut_flash (s : State) (r : Nat) (b : Blot) : (s.ringPut r b).flash = s.flash := (s.ringPut_reported r b).flash
@[simp] theorem State.ringPut_nib (s : State) (r : Nat) (b : Blot) : (s.ringPut r b).nib = s.nib := (s.ringPut_reported r b).nib
@[simp] theorem State.ringPut_pins (s : State) (r : Nat) (b : Blot) : (s.ringPut r b).pins = s.pins := (s.ringPut_reported r b).pins
@[simp] theorem State.ringPut_free (s : State) (r : Nat) (b : Blot) : (s.ringPut r b).free = s.free := (s.ringPut_reported r b).free

@[simp] theorem State.ringLose_pending (s : State) (r : Nat) (b : Blot) : (s.ringLose r b).pending = s.pending := (s.ringLose_reported r b).pending
@[simp] theorem State.ringLose_latch (s : State) (r : Nat) (b : Blot) : (s.ringLose r b).latch = s.latch := (s.ringLose_reported r b).latch
@[simp] theorem State.ringLose_held (s : State) (r : Nat) (b : Blot) : (s.ringLose r b).held = s.held := (s.ringLose_reported r b).held
@[simp] theorem State.ringLose_mem (s : State) (r : Nat) (b : Blot) : (s.ringLose r b).mem = s.mem := (s.ringLose_reported r b).mem
@[simp] theorem State.ringLose_pace (s : State) (r : Nat) (b : Blot) : (s.ringLose r b).pace = s.pace := (s.ringLose_reported r b).pace
@[simp] theorem State.ringLose_xlat (s : State) (r : Nat) (b : Blot) : (s.ringLose r b).xlat = s.xlat := (s.ringLose_reported r b).xlat
@[simp] theorem State.ringLose_sched (s : State) (r : Nat) (b : Blot) : (s.ringLose r b).sched = s.sched := (s.ringLose_reported r b).sched
@[simp] theorem State.ringLose_folio (s : State) (r : Nat) (b : Blot) : (s.ringLose r b).folio = s.folio := (s.ringLose_reported r b).folio
@[simp] theorem State.ringLose_tiles (s : State) (r : Nat) (b : Blot) : (s.ringLose r b).tiles = s.tiles := (s.ringLose_reported r b).tiles
@[simp] theorem State.ringLose_saved (s : State) (r : Nat) (b : Blot) : (s.ringLose r b).saved = s.saved := (s.ringLose_reported r b).saved
@[simp] theorem State.ringLose_units (s : State) (r : Nat) (b : Blot) : (s.ringLose r b).units = s.units := (s.ringLose_reported r b).units
@[simp] theorem State.ringLose_fab (s : State) (r : Nat) (b : Blot) : (s.ringLose r b).fab = s.fab := (s.ringLose_reported r b).fab
@[simp] theorem State.ringLose_caches (s : State) (r : Nat) (b : Blot) : (s.ringLose r b).caches = s.caches := (s.ringLose_reported r b).caches
@[simp] theorem State.ringLose_merges (s : State) (r : Nat) (b : Blot) : (s.ringLose r b).merges = s.merges := (s.ringLose_reported r b).merges
@[simp] theorem State.ringLose_memc (s : State) (r : Nat) (b : Blot) : (s.ringLose r b).memc = s.memc := (s.ringLose_reported r b).memc
@[simp] theorem State.ringLose_flash (s : State) (r : Nat) (b : Blot) : (s.ringLose r b).flash = s.flash := (s.ringLose_reported r b).flash
@[simp] theorem State.ringLose_nib (s : State) (r : Nat) (b : Blot) : (s.ringLose r b).nib = s.nib := (s.ringLose_reported r b).nib
@[simp] theorem State.ringLose_pins (s : State) (r : Nat) (b : Blot) : (s.ringLose r b).pins = s.pins := (s.ringLose_reported r b).pins
@[simp] theorem State.ringLose_free (s : State) (r : Nat) (b : Blot) : (s.ringLose r b).free = s.free := (s.ringLose_reported r b).free

@[simp] theorem State.msixDue_pending (s : State) (d v : Nat) : (s.msixDue d v).pending = s.pending := (s.msixDue_reported d v).pending
@[simp] theorem State.msixDue_latch (s : State) (d v : Nat) : (s.msixDue d v).latch = s.latch := (s.msixDue_reported d v).latch
@[simp] theorem State.msixDue_held (s : State) (d v : Nat) : (s.msixDue d v).held = s.held := (s.msixDue_reported d v).held
@[simp] theorem State.msixDue_mem (s : State) (d v : Nat) : (s.msixDue d v).mem = s.mem := (s.msixDue_reported d v).mem
@[simp] theorem State.msixDue_pace (s : State) (d v : Nat) : (s.msixDue d v).pace = s.pace := (s.msixDue_reported d v).pace
@[simp] theorem State.msixDue_xlat (s : State) (d v : Nat) : (s.msixDue d v).xlat = s.xlat := (s.msixDue_reported d v).xlat
@[simp] theorem State.msixDue_sched (s : State) (d v : Nat) : (s.msixDue d v).sched = s.sched := (s.msixDue_reported d v).sched
@[simp] theorem State.msixDue_folio (s : State) (d v : Nat) : (s.msixDue d v).folio = s.folio := (s.msixDue_reported d v).folio
@[simp] theorem State.msixDue_tiles (s : State) (d v : Nat) : (s.msixDue d v).tiles = s.tiles := (s.msixDue_reported d v).tiles
@[simp] theorem State.msixDue_saved (s : State) (d v : Nat) : (s.msixDue d v).saved = s.saved := (s.msixDue_reported d v).saved
@[simp] theorem State.msixDue_units (s : State) (d v : Nat) : (s.msixDue d v).units = s.units := (s.msixDue_reported d v).units
@[simp] theorem State.msixDue_fab (s : State) (d v : Nat) : (s.msixDue d v).fab = s.fab := (s.msixDue_reported d v).fab
@[simp] theorem State.msixDue_caches (s : State) (d v : Nat) : (s.msixDue d v).caches = s.caches := (s.msixDue_reported d v).caches
@[simp] theorem State.msixDue_merges (s : State) (d v : Nat) : (s.msixDue d v).merges = s.merges := (s.msixDue_reported d v).merges
@[simp] theorem State.msixDue_memc (s : State) (d v : Nat) : (s.msixDue d v).memc = s.memc := (s.msixDue_reported d v).memc
@[simp] theorem State.msixDue_flash (s : State) (d v : Nat) : (s.msixDue d v).flash = s.flash := (s.msixDue_reported d v).flash
@[simp] theorem State.msixDue_nib (s : State) (d v : Nat) : (s.msixDue d v).nib = s.nib := (s.msixDue_reported d v).nib
@[simp] theorem State.msixDue_pins (s : State) (d v : Nat) : (s.msixDue d v).pins = s.pins := (s.msixDue_reported d v).pins
@[simp] theorem State.msixDue_free (s : State) (d v : Nat) : (s.msixDue d v).free = s.free := (s.msixDue_reported d v).free

@[simp] theorem State.msixDue_regs (s : State) (d v : Nat) : (s.msixDue d v).regs = s.regs := by
  unfold State.msixDue
  split
  · rfl
  · split <;> rfl

@[simp] theorem State.msixDue_out (s : State) (d v : Nat) : (s.msixDue d v).out = s.out := by
  unfold State.msixDue
  split
  · rfl
  · split <;> rfl

/-! ## What the accessors see through a report -/

@[simp] theorem State.blot_tile (s : State) (x : Blot) (rs : List Nat) (u : Nat) : (s.blot x rs).tile u = s.tile u := by simp [State.tile]
@[simp] theorem State.blot_chan (s : State) (x : Blot) (rs : List Nat) (u b : Nat) : (s.blot x rs).chan u b = s.chan u b := by simp [State.chan, State.tile]
@[simp] theorem State.blot_cmd (s : State) (x : Blot) (rs : List Nat) (d : Nat) : (s.blot x rs).cmd d = s.cmd d := by simp [State.cmd]
@[simp] theorem State.blot_queue (s : State) (x : Blot) (rs : List Nat) (p : Nat) : (s.blot x rs).queue p = s.queue p := by simp [State.queue]
@[simp] theorem State.blot_sector (s : State) (x : Blot) (rs : List Nat) (b : Nat) : (s.blot x rs).sector b = s.sector b := by simp [State.sector]
@[simp] theorem State.blot_time (s : State) (x : Blot) (rs : List Nat) : (s.blot x rs).time = s.time := by simp [State.time]
@[simp] theorem State.blot_alive (s : State) (x : Blot) (rs : List Nat) : (s.blot x rs).alive = s.alive := by simp [State.alive]

@[simp] theorem State.barError_tile (s : State) (port off size data : Nat) (u : Nat) : (s.barError port off size data).tile u = s.tile u := by simp [State.tile]
@[simp] theorem State.barError_chan (s : State) (port off size data : Nat) (u b : Nat) : (s.barError port off size data).chan u b = s.chan u b := by simp [State.chan, State.tile]
@[simp] theorem State.barError_cmd (s : State) (port off size data : Nat) (d : Nat) : (s.barError port off size data).cmd d = s.cmd d := by simp [State.cmd]
@[simp] theorem State.barError_queue (s : State) (port off size data : Nat) (p : Nat) : (s.barError port off size data).queue p = s.queue p := by simp [State.queue]
@[simp] theorem State.barError_sector (s : State) (port off size data : Nat) (b : Nat) : (s.barError port off size data).sector b = s.sector b := by simp [State.sector]
@[simp] theorem State.barError_time (s : State) (port off size data : Nat) : (s.barError port off size data).time = s.time := by simp [State.time]
@[simp] theorem State.barError_alive (s : State) (port off size data : Nat) : (s.barError port off size data).alive = s.alive := by simp [State.alive]

@[simp] theorem State.ringPut_tile (s : State) (r : Nat) (x : Blot) (u : Nat) : (s.ringPut r x).tile u = s.tile u := by simp [State.tile]
@[simp] theorem State.ringPut_chan (s : State) (r : Nat) (x : Blot) (u b : Nat) : (s.ringPut r x).chan u b = s.chan u b := by simp [State.chan, State.tile]
@[simp] theorem State.ringPut_cmd (s : State) (r : Nat) (x : Blot) (d : Nat) : (s.ringPut r x).cmd d = s.cmd d := by simp [State.cmd]
@[simp] theorem State.ringPut_queue (s : State) (r : Nat) (x : Blot) (p : Nat) : (s.ringPut r x).queue p = s.queue p := by simp [State.queue]
@[simp] theorem State.ringPut_sector (s : State) (r : Nat) (x : Blot) (b : Nat) : (s.ringPut r x).sector b = s.sector b := by simp [State.sector]
@[simp] theorem State.ringPut_time (s : State) (r : Nat) (x : Blot) : (s.ringPut r x).time = s.time := by simp [State.time]
@[simp] theorem State.ringPut_alive (s : State) (r : Nat) (x : Blot) : (s.ringPut r x).alive = s.alive := by simp [State.alive]

@[simp] theorem State.msixDue_tile (s : State) (e v : Nat) (u : Nat) : (s.msixDue e v).tile u = s.tile u := by simp [State.tile]
@[simp] theorem State.msixDue_chan (s : State) (e v : Nat) (u b : Nat) : (s.msixDue e v).chan u b = s.chan u b := by simp [State.chan, State.tile]
@[simp] theorem State.msixDue_cmd (s : State) (e v : Nat) (d : Nat) : (s.msixDue e v).cmd d = s.cmd d := by simp [State.cmd]
@[simp] theorem State.msixDue_queue (s : State) (e v : Nat) (p : Nat) : (s.msixDue e v).queue p = s.queue p := by simp [State.queue]
@[simp] theorem State.msixDue_sector (s : State) (e v : Nat) (b : Nat) : (s.msixDue e v).sector b = s.sector b := by simp [State.sector]
@[simp] theorem State.msixDue_time (s : State) (e v : Nat) : (s.msixDue e v).time = s.time := by simp [State.time]
@[simp] theorem State.msixDue_alive (s : State) (e v : Nat) : (s.msixDue e v).alive = s.alive := by simp [State.alive]

/-! ## Device memory -/

/-- What a byte reads after a write: the byte written, or what it read before. -/
theorem memByte_memWrite (m : List Host.Cell) (a : Nat) (bs : List Nat) (x : Nat) :
    memByte (memWrite m a bs) x = if a ≤ x ∧ x < a + bs.length then BitVec.ofNat 8 (nth bs (x - a) 0) else memByte m x := by
  induction bs generalizing m a with
  | nil => exact (if_neg (fun h => by have := h.2; simp only [List.length_nil] at this; omega)).symm
  | cons b bs ih =>
    simp only [memWrite, ih, List.length_cons]
    by_cases hx : x = a
    · subst hx
      have h1 : ¬(x + 1 ≤ x ∧ x < x + 1 + bs.length) := by omega
      have h2 : x ≤ x ∧ x < x + (bs.length + 1) := by omega
      rw [if_neg h1, if_pos h2]
      simp [memByte, nth]
    · have h3 : memByte (Tbl.set 0 m a (BitVec.ofNat 8 b)) x = memByte m x := Tbl.get_set_other _ _ _ hx
      by_cases h : a + 1 ≤ x ∧ x < a + 1 + bs.length
      · have h2 : a ≤ x ∧ x < a + (bs.length + 1) := by omega
        rw [if_pos h, if_pos h2]
        have : x - a = (x - (a + 1)) + 1 := by omega
        simp [nth, this]
      · have h2 : ¬(a ≤ x ∧ x < a + (bs.length + 1)) := by omega
        rw [if_neg h, if_neg h2, h3]

/-- A write of device memory keeps its canonical form. -/
theorem memWrite_wf {m : List Host.Cell} (h : Memory.wf m = true) (a : Nat) (bs : List Nat) : Memory.wf (memWrite m a bs) = true := by
  induction bs generalizing m a with
  | nil => exact h
  | cons b bs ih => exact ih (Tbl.set_wf a _ h) (a + 1)

/-! ## The form of a meaning -/

/-- A meaning stops only for a command that is not well formed. -/
theorem run_cases (ok : Bool) (s : State) (f : State → State) :
    (ok = true ∧ s.alive = true ∧ run ok s f = .next { f s with pending := s.pending }) ∨
    (ok = true ∧ s.alive = false ∧ run ok s f = .next s) ∨
    (ok = false ∧ run ok s f = .fault .noSuchUnit) := by
  unfold run; cases ok <;> cases s.alive <;> simp

/-- A well-formed command of a living block has its effect. -/
theorem run_alive {ok : Bool} {s : State} (f : State → State) (hok : ok = true) (ha : s.alive = true) :
    run ok s f = .next { f s with pending := s.pending } := by simp [run, hok, ha]

end Sys2Proof.Machine
end

