-- ==== Sys2Proof/Laws/Mem.lean ====
section
/-!
SUPPORT. The laws of the memory controllers' operations of Machine/Mem.lean: what a write of a sector can change in device memory, and that
it keeps its canonical form.
-/
namespace Sys2Proof.Machine

@[simp] theorem State.corrected_mem (s : State) (a : Nat) : (s.corrected a).mem = s.mem := by
  simp [State.corrected, apply_ite State.mem]
@[simp] theorem State.ddrRetries_mem (s : State) (a n : Nat) : (s.ddrRetries a n).mem = s.mem := by
  simp [State.ddrRetries, apply_ite State.mem]
@[simp] theorem State.poison_mem (s : State) (a : Nat) : (s.poison a).mem = s.mem := by
  simp [State.poison, apply_ite State.mem]
@[simp] theorem State.t3Emit_mem (s : State) (a : Nat) (w : Bool) (d : List Nat) : (s.t3Emit a w d).mem = s.mem := by
  simp [State.t3Emit, apply_ite State.mem]

/-- The read of the old sector changes memory only where an error goes unseen (R280): there the whole sector. -/
theorem State.oldSector_mem (s : State) (a : Nat) :
    (s.oldSector a).mem = s.mem ∨ ∃ n, (s.oldSector a).mem = memWrite s.mem (s.cellOf a) (natBytes 64 n) := by
  unfold State.oldSector
  split <;> try exact .inl (by simp)
  exact .inr ⟨s.freeVal % 2 ^ 512, by simp only [State.wrongData, apply_ite State.mem, State.corrected_mem, ite_self]; rfl⟩

/-- A write of a sector that turns out clean: a retired page keeps its bytes, any other takes exactly those written (R281, R290). -/
theorem State.commit_mem (s : State) (a : Nat) (data : List Nat) (h : s.outcome (a / 64 * 64) = .ok) :
    (s.commit a data).1.mem = if s.pageRetired a then s.mem else memWrite s.mem (s.cellOf a) data := by
  simp only [State.commit, State.oldSector, h, Bool.and_false, Bool.false_eq_true, if_false, ite_self, apply_ite State.mem, apply_ite Prod.fst,
    State.setReg_mem, State.updSector_mem, State.t3Emit_mem]

/-- A write of a sector keeps the memory's form, whatever its outcome. -/
theorem State.commit_mem_wf {s : State} (h : Memory.wf s.mem = true) (a : Nat) (data : List Nat) :
    Memory.wf (s.commit a data).1.mem = true := by
  have hold : Memory.wf (s.oldSector (a / 64 * 64)).mem = true := by
    obtain e | ⟨n, e⟩ := s.oldSector_mem (a / 64 * 64) <;> rw [e]
    · exact h
    · exact memWrite_wf h _ _
  simp only [State.commit, apply_ite Prod.fst, apply_ite State.mem, State.setReg_mem, State.updSector_mem, State.t3Emit_mem,
    State.ddrRetries_mem, ite_self]
  refine iteInduction (motive := fun m => Memory.wf m = true) (fun _ => h)
    (fun _ => iteInduction (motive := fun m => Memory.wf m = true) (fun _ => h) (fun _ => memWrite_wf ?_ _ _))
  split
  · split <;> simpa using h
  · exact hold

theorem State.devWrite_mem_wf {s : State} (h : Memory.wf s.mem = true) (cid : Option Nat) (a : Nat) (data : List Nat) :
    Memory.wf (s.devWrite cid a data).1.mem = true := by
  unfold State.devWrite
  dsimp only
  split <;> exact State.commit_mem_wf (by exact h) a data

/-- So does a write of many sectors by a shared unit. -/
theorem State.devWriteAll_mem_wf (fuel : Nat) {s : State} (h : Memory.wf s.mem = true) (cid : Option Nat) (a : Nat) (data : List Nat) :
    Memory.wf (State.devWriteAll fuel s cid a data).1.mem = true := by
  induction fuel generalizing s a data with
  | zero => exact h
  | succ n ih =>
    unfold State.devWriteAll
    split
    · exact h
    · refine ih ?_ _ _
      split
      · exact State.devWrite_mem_wf h _ _ _
      · exact h

end Sys2Proof.Machine
end

