-- ==== Sys2Proof/Laws/Paid.lean ====
section
/-!
SUPPORT. The law of a command that moves bytes or writes memory: in a state in which its traffic is admitted it has its effect, and what
paying for it can change is the buckets and what waits for the host alone.
-/
namespace Sys2Proof.Machine

/-- Taking amounts from what was admitted changes the buckets alone. -/
theorem State.spend_buckets (ds : List Due) (s : State) : ∃ b, s.spend ds = { s with memc := { s.memc with buckets := b } } := by
  induction ds generalizing s with
  | nil => exact ⟨s.memc.buckets, rfl⟩
  | cons d ds ih =>
    obtain ⟨b, h⟩ := ih (s.updBucket d.part d.slot (fun b => { b with grants := setCid b.grants d.cid (ofCid b.grants d.cid - d.bytes) }))
    exact ⟨b, h⟩

/-- All that a command's end can differ in from its effect: buckets, what is due, the outcomes, and what waits for the host. -/
theorem doneAs_frame (s a : State) (f : State → State) : ∃ m h, doneAs s a f = { f a with memc := m, host := h, pending := s.pending } := by
  obtain ⟨b, h⟩ := (f a).spend_buckets (f a).memc.due
  exact ⟨_, _, by unfold doneAs; rw [h]; rfl⟩

@[simp] theorem doneAs_mem (s a : State) (f : State → State) : (doneAs s a f).mem = (f a).mem := by
  obtain ⟨m, h, e⟩ := doneAs_frame s a f; rw [e]
@[simp] theorem doneAs_regs (s a : State) (f : State → State) : (doneAs s a f).regs = (f a).regs := by
  obtain ⟨m, h, e⟩ := doneAs_frame s a f; rw [e]
@[simp] theorem doneAs_tiles (s a : State) (f : State → State) : (doneAs s a f).tiles = (f a).tiles := by
  obtain ⟨m, h, e⟩ := doneAs_frame s a f; rw [e]
@[simp] theorem doneAs_sched (s a : State) (f : State → State) : (doneAs s a f).sched = (f a).sched := by
  obtain ⟨m, h, e⟩ := doneAs_frame s a f; rw [e]
@[simp] theorem doneAs_units (s a : State) (f : State → State) : (doneAs s a f).units = (f a).units := by
  obtain ⟨m, h, e⟩ := doneAs_frame s a f; rw [e]
@[simp] theorem doneAs_fab (s a : State) (f : State → State) : (doneAs s a f).fab = (f a).fab := by
  obtain ⟨m, h, e⟩ := doneAs_frame s a f; rw [e]
@[simp] theorem doneAs_flt (s a : State) (f : State → State) : (doneAs s a f).flt = (f a).flt := by
  obtain ⟨m, h, e⟩ := doneAs_frame s a f; rw [e]
@[simp] theorem doneAs_folio (s a : State) (f : State → State) : (doneAs s a f).folio = (f a).folio := by
  obtain ⟨m, h, e⟩ := doneAs_frame s a f; rw [e]
@[simp] theorem doneAs_out (s a : State) (f : State → State) : (doneAs s a f).out = (f a).out := by
  obtain ⟨m, h, e⟩ := doneAs_frame s a f; rw [e]
@[simp] theorem doneAs_pending (s a : State) (f : State → State) : (doneAs s a f).pending = s.pending := by
  obtain ⟨m, h, e⟩ := doneAs_frame s a f; rw [e]

/-- Nothing to pay for and nothing to be released: what paying would do is nothing. -/
theorem State.settle_nothing (t : State) (hd : t.memc.due = []) (hn : t.host.needs = []) : ((t.spend t.memc.due).settled).useTokens = t := by
  have hb : t.host.biWait.filter (fun w => !t.host.needs.any (fun n => w.token n.2)) = t.host.biWait := by simp [hn]
  simp only [hd, State.spend, List.foldl_nil, State.settled, State.useTokens, hb]
  rw [show ([] : List (Option Nat × Nat)) = t.host.needs from hn.symm, show ([] : List Due) = t.memc.due from hd.symm]

/-- A command that reaches memory has its effect in the state in which it is ready. -/
theorem runMem_ready {s a : State} {ecc : Sectors} {f : State → State} (hs : s.alive = true) (h : Ready s ecc f a) :
    runMem true ecc s f = .next (doneAs s a f) := by
  have key : (s.setMed ecc).paid f = ((f a).spend (f a).memc.due).settled.useTokens := by
    unfold Ready at h
    unfold State.paid
    by_cases hc : (f (s.setMed ecc)).memc.due = [] ∧ (f (s.setMed ecc)).host.needs = []
    · simp only [hc, and_self, if_true] at h
      subst h
      simp only [hc.1, hc.2, List.isEmpty_nil, Bool.and_self, if_true]
      have := State.settle_nothing _ hc.1 hc.2
      rw [hc.1] at this
      exact this.symm
    · simp only [hc, if_false] at h
      obtain ⟨rfl, hg, hk⟩ := h
      have he : ((f (s.setMed ecc)).memc.due.isEmpty && (f (s.setMed ecc)).host.needs.isEmpty) = false := by
        simpa [List.isEmpty_iff] using hc
      simp only [he, hg, hk, Bool.and_self, if_true, Bool.false_eq_true, if_false]
  simp only [runMem, run, hs, key, doneAs]
  rfl

end Sys2Proof.Machine
end

