-- ==== Sys2Proof/Tests/Slice0.lean ====
section
/-!
SUPPORT. Tests of single commands on small states, an ill-formed term for each check of WellFormed, and for every statement with
hypotheses a theorem that shows states and operands that meet them.
-/
namespace Sys2Proof.Tests
set_option Elab.async false
open Sys2Proof Sys2Proof.Machine

/-! ## States to start from -/

def ln (n v : Nat) : List Nat := natBytes n v
def zs (n : Nat) : List Nat := List.replicate n 0

/-- Partition 0 on cluster 0 with segments 0 to 2 of T1, queue 1, model 7. -/
def recPkg : Rec := ⟨1, ln 4 0 ++ ln 2 6400 ++ zs 10⟩
def recPart : Rec := ⟨2, ln 2 0 ++ ln 2 1500 ++ ln 4 1 ++ ln 4 0 ++ ln 2 100 ++ ln 1 7 ++ ln 1 10 ++ ln 4 16 ++ ln 4 0 ++ ln 8 0x40000000 ++ zs 16
  ++ ln 4 4 ++ zs 12⟩
def recSeg (id tier cls base lim : Nat) : Rec := ⟨3, ln 1 0 ++ ln 1 tier ++ ln 1 cls ++ ln 1 15 ++ ln 2 id ++ zs 2 ++ ln 8 base ++ ln 8 lim ++ zs 8⟩
def recReg : Rec := ⟨4, zs 4 ++ ln 4 100000 ++ ln 4 200000 ++ zs 4⟩
def recQ : Rec := ⟨5, ln 2 1 ++ ln 1 0 ++ ln 1 3 ++ ln 2 5 ++ ln 1 10 ++ zs 1 ++ ln 4 100 ++ zs 4⟩
def recModel : Rec := ⟨6, ln 4 7 ++ zs 4 ++ ln 4 0x100 ++ ln 4 0 ++ zs 48⟩
def cfg : List Rec := [recPkg, recPart, recSeg 0 1 0 0x200000 0x3FFFFF, recSeg 1 1 0 0x400000 0x5FFFFF, recSeg 2 1 0 0x600000 0x7FFFFF, recReg, recQ,
  recModel]

/-- The block in service at STAGE 6 with both ports up in mode 3, all of `cfg` in force. -/
def run6 : State :=
  let s := { State.reset with pins := ⟨true, [true, true], true, true⟩ }
  let s := { s with folio := { s.folio with active := cfg, full := [0] } }
  let s := ((s.setField 0x800000 3 0 6).setField 0x20000 11 8 1).setReg 0x20100 1
  s

/-- Launch 0 of queue 1 running on tile 0. -/
def launch1 : Cmd := { st := .running, queue := 1, part := some 0, opcode := 1, model := 7, tiles := [0], sess := true, look := true }
def task1 : Task := { cid := cidOf 1 0, idx := 0, shadow := false, st := .run }
def onTile (x : Tile) : State :=
  { run6 with sched := { run6.sched with cmds := [(cidOf 1 0, launch1)] }, tiles := [(0, { x with task := some task1 })] }


/-- The state in which effect `f` of a command on `s` takes place, where what it moves has been admitted and released. -/
def readyIn (s : State) (ecc : Sectors) (f : State → State) : State :=
  ((s.setMed ecc).ask (f (s.setMed ecc)).memc.due).claim (f (s.setMed ecc)).host.needs
/-- All that effect `f` moves has been admitted and released in `readyIn s ecc f`. -/
def isReady (s : State) (ecc : Sectors) (f : State → State) : Bool :=
  let t := f (s.setMed ecc)
  (readyIn s ecc f).granted t.memc.due && (readyIn s ecc f).hostClaimed t.host.needs

theorem ready_in {s : State} {ecc : Sectors} {f : State → State} (h : isReady s ecc f = true) : Ready s ecc f (readyIn s ecc f) := by
  unfold isReady at h
  simp only [Bool.and_eq_true] at h
  unfold Ready
  by_cases k : (f (s.setMed ecc)).memc.due = [] ∧ (f (s.setMed ecc)).host.needs = []
  · simp only [k, and_self, if_true]
    unfold readyIn
    rw [k.1, k.2]
    rfl
  · simp only [k, if_false]
    exact ⟨rfl, h.1, h.2⟩

/-- The amounts that effect `f` of a command on `s` takes, admitted beforehand. -/
def admitted (s : State) (ecc : Sectors) (f : State → State) : State :=
  (f (s.setMed ecc)).memc.due.foldl (fun s d =>
    s.updBucket d.part d.slot (fun b => { b with grants := setCid b.grants d.cid (ofCid b.grants d.cid + d.bytes) })) s

def readied (s : State) (ecc : Sectors) (f : State → State) : State := readyIn (admitted s ecc f) ecc f
/-- `readied s ecc f` is where a command of effect `f` that begins in `admitted s ecc f` is ready. -/
def readies (s : State) (ecc : Sectors) (f : State → State) : Bool := (admitted s ecc f).alive && isReady (admitted s ecc f) ecc f

/-- Bytes that the identity maps and that take a write at once. -/
def plainAt (s : State) (a n : Nat) : Bool :=
  decide (a % 64 + n ≤ 64) && (List.range n).all (fun i => s.phys (a + i) == some (a + i)) && tierOf a != 3 && !s.hostFirst a && !s.biHeld a &&
  !s.unzeroed (a / 64 * 64) 64 && !s.pageRetired a

theorem plain_at {s : State} {a n : Nat} (h : plainAt s a n = true) : s.PlainBytes a n := by
  simp only [plainAt, Bool.and_eq_true, decide_eq_true_eq, Bool.not_eq_true', bne_iff_ne, List.all_eq_true, List.mem_range, beq_iff_eq] at h
  obtain ⟨⟨⟨⟨⟨⟨h1, h2⟩, h3⟩, h4⟩, h5⟩, h6⟩, h7⟩ := h
  exact ⟨h1, a, h2, h3, h4, h5, h6, h7⟩

def hv : HostView := ⟨[], [], [], []⟩

/-- Command `c` completes on `s` in a state of which `p` holds. -/
def gives (c : Instr) (s : State) (p : State → Bool) : Bool := match exec c s with | .next u => p u | _ => false
/-- Command `c` completes on `s`. -/
def runs (c : Instr) (s : State) : Bool := gives c s (fun _ => true)


/-! ## The vector unit -/

/-- A vector instruction of all-zero fields but those given. -/
def vi (vd va vb vc fmt imm : Nat) : VIns := ⟨vd, va, vb, vc, 0, false, fmt, 0, imm⟩
/-- Words written out in the places of Table 7.1 (CLASS, OP, VD, VA, VB, VC, MASK, MZ, FMT, CVT_CTRL, IMM): VADD, VCMPLE, SINS, and two that
are reserved. -/
theorem test_vector_words :
    vecCode 0b000_0000000_00011_00001_00010_00000_101_1_0001_00_000000000000000000000000 = 0 ∧
    vinsOf 0b000_0000000_00011_00001_00010_00000_101_1_0001_00_000000000000000000000000 = ⟨3, 1, 2, 0, 5, true, 1, 0, 0⟩ ∧
    vecCode 0b010_0000010_00111_11111_00100_00000_000_0_1101_00_100000000000000000000001 = 258 ∧
    vinsOf 0b010_0000010_00111_11111_00100_00000_000_0_1101_00_100000000000000000000001 = ⟨7, 31, 4, 0, 0, false, 13, 0, 2 ^ 23 + 1⟩ ∧
    vecCode 0b101_0000001_00000_00110_01000_10000_111_0_0000_11_000000000000000000000000 = 641 ∧
    vinsOf 0b101_0000001_00000_00110_01000_10000_111_0_0000_11_000000000000000000000000 = ⟨0, 6, 8, 16, 7, false, 0, 3, 0⟩ ∧
    vecReserved 0b110_0000000_00000_00000_00000_00000_000_0_0000_00_000000000000000000000000 = true ∧
    vecReserved 0b000_0001110_00000_00000_00000_00000_000_0_0000_00_000000000000000000000000 = true := by decide +kernel

/-- A line of 256 bytes waiting in IN, and 32 lines in OUT. -/
def line256 : PLine := ⟨0, 0, false, List.replicate 4 (some (List.replicate 64 1)), []⟩
def vecTile : Tile := { chans := [(13, { active := true, lines := [line256] }), (14, { active := true, items := List.replicate 32 ⟨[], 0, [], false, 0⟩ })] }
def vecS : State := onTile vecTile

/-- Every opcode can issue: from registers to a register, and from IN to OUT with OUT one line short of full. -/
theorem test_vector_ready : VecReady vecS 0 (vi 3 1 2 4 1 0) [1, 2, 4] 0 ∧ VecReady vecS 0 (vi 31 31 31 31 13 (2 ^ 23)) [31, 31, 31] 1 ∧
    arithImm (vi 31 31 31 31 13 (2 ^ 23)) = true := by
  unfold VecReady; decide +kernel

/-- Every format an opcode accepts, its sources all IN and its destinations all OUT, with the fields its immediate may carry. -/
theorem test_vector_forms :
    (∀ f ∈ [0, 1, 2, 3, 9, 13], VecReady vecS 0 (vi 31 31 31 31 f 0xF0000) (twoSrcs (vi 31 31 31 31 f 0xF0000) ++ [31]) (outLines [31]) ∧
      arithImm (vi 31 31 31 31 f 0xF0000) = true) ∧
    VecReady vecS 0 (vi 31 0 0 0 13 0) [] (outLines [31]) ∧ VecReady vecS 0 (vi 8 31 31 0 2 0) [31, 31] 0 ∧ VecReady vecS 0 (vi 0 9 15 0 0 0) [] 0 := by
  unfold VecReady; decide +kernel

/-- Selection, lane moves and conversions, the stochastic form to OUT among them; COMPRESS writes both its values to OUT. -/
theorem test_select_pack_convert_ready :
    let s := onTile { chans := [(13, { lines := [line256] }), (14, { items := List.replicate 31 ⟨[], 0, [], false, 0⟩ })], vec := { s := 64 :: List.replicate 15 0 } }
    VecReady s 0 (vi 31 31 2 31 1 255) [31] (outLines [31, 31]) ∧ VecReady s 0 (vi 31 31 2 31 1 0) [31] 1 ∧ (s.tile 0).vec.scalar 0 ≤ elemCount 1 ∧
    VecReady s 0 (vi 31 31 0 0 5 31) [31] 1 ∧ VecReady s 0 { vi 31 31 0 0 2 31 with cvt := 3 % 2 } [31] 1 ∧ bit 3 1 = true ∧
    VecReady s 0 (vi 31 31 0 0 1 (63 - 16 + 12)) [31] 1 ∧ bits (63 - 16 + 12) 3 0 ∈ [4, 5, 6, 7, 8, 10, 11, 12] := by
  unfold VecReady; decide +kernel

/-- Claims of the vector unit: bank 3 claimed, bank 2 asked for and waiting, an image of zeros in IN behind 4,095 bytes taken. -/
def zeroLine : PLine := ⟨0, 0, false, List.replicate 4 (some (zs 64)), []⟩
def accTile : Tile := { vec := { claims := 8, aload := zs 4095 }, chans := [(13, { lines := [zeroLine] })] }

theorem test_accumulator_ready :
    VecReady (onTile accTile) 0 (vi 3 0 0 0 0 15) [] (outLines [3]) ∧ bit ((onTile accTile).tile 0).vec.claims (15 % 4) = true ∧
    VecReady (onTile accTile) 0 (vi 31 0 0 0 0 65343) [] 1 ∧ bits 65343 7 6 = 0 ∧ bit ((onTile accTile).tile 0).vec.claims (65343 % 4) = true ∧
    VecReady (onTile accTile) 0 (vi 0 0 0 0 0 3) [] 17 ∧
    (onTile { accTile with vec := { accTile.vec with claimWait := some 2 } }).tileRuns 0 = true ∧
    ((onTile { accTile with vec := { accTile.vec with claimWait := some 2 } }).tile 0).vec.claimWait = some 2 := by
  unfold VecReady; decide +kernel

theorem byteField_zeros (n o k : Nat) : byteField (List.replicate n 0#8) o k = 0 := by
  unfold byteField
  rw [List.drop_replicate, List.take_replicate]
  generalize min k (n - o) = m
  induction m with
  | zero => rfl
  | succ m ih => simp [List.replicate_succ, ofBytes, ih]

theorem imageOk_zeros : imageOk (List.replicate 4224 0#8) = true := by
  unfold imageOk
  simp only [byteField_zeros]
  decide +kernel
theorem test_aload_ready :
    let s := onTile accTile
    let ls := (((s.chan 0 13).lines).takeWhile PLine.complete).take ((4224 - (s.tile 0).vec.aload.length + 255) / 256)
    let bytes := (s.tile 0).vec.aload ++ (ls.map (fun l => l.bytes.take 256)).flatten
    4224 ≤ bytes.length ∧ imageOk ((bytes.take 4224).map (BitVec.ofNat 8)) = true := by
  have h : (((onTile accTile).chan 0 13).lines).takeWhile PLine.complete = [zeroLine] := by decide +kernel
  have k : ((onTile accTile).tile 0).vec.aload = zs 4095 := rfl
  have z : zeroLine.bytes = List.replicate 256 0 := by decide +kernel
  simp only [h, k, zs, List.take_succ_cons, List.take_zero, List.map_cons, List.map_nil, z, List.flatten_cons, List.flatten_nil, List.append_nil,
    List.take_replicate, List.replicate_append_replicate, List.length_replicate, List.map_replicate]
  exact ⟨by decide, imageOk_zeros⟩

/-- A bank that meets the premise of the round trip: an anchored bank with a finite, an infinite and a NaN accumulator at its two ends. -/
def bankT : Bank := { Bank.clear with anchor := some 255, kgroup := 9, acc := [(0, { LAcc.clear with val := -(2 ^ 127) }),
  (7, { LAcc.clear with cls := .nan, pay := 2 ^ 32 - 1 }), (255, { LAcc.clear with cls := .posInf, sticky := true })] }

theorem test_bank_premise : Tbl.wf LAcc.clear bankT.acc = true ∧ (∀ e ∈ bankT.acc, e.1 < 256) ∧
    (∀ i < 256, match (bankT.get i).cls with
      | .finite => (bankT.get i).pay = 0 ∧ (bankT.get i).sign = false ∧ -(2 ^ 127 : Int) ≤ (bankT.get i).val ∧ (bankT.get i).val < 2 ^ 127 ∧
          (bankT.anchor = none → (bankT.get i).val = 0)
      | .nan => (bankT.get i).val = 0 ∧ (bankT.get i).pay < 2 ^ 32
      | _ => (bankT.get i).val = 0 ∧ (bankT.get i).pay = 0 ∧ (bankT.get i).sign = false) := by
  refine ⟨by decide +kernel, by decide +kernel, fun i hi => ?_⟩
  by_cases h : i = 0 ∨ i = 7 ∨ i = 255
  · obtain rfl | rfl | rfl := h
    · exact ⟨rfl, rfl, by decide +kernel, by decide +kernel, fun h => nomatch h⟩
    · exact ⟨rfl, by decide +kernel⟩
    · exact ⟨rfl, rfl, rfl⟩
  · have e : bankT.get i = LAcc.clear := by
      have k : ∀ i < 256, ¬ (i = 0 ∨ i = 7 ∨ i = 255) → bankT.get i = LAcc.clear := by decide +kernel
      exact k i hi h
    rw [e]; exact ⟨rfl, rfl, by decide +kernel, by decide +kernel, fun _ => rfl⟩

/-- A group of zeros in the FP8 class whose slice is exact in column 3, with two wrong contributions there. -/
theorem test_checksum_slice_premises :
    let a : List (List NumVal) := List.replicate 16 (List.replicate (kappa 1) NumVal.zero)
    widthClass 4 = 1 ∧ (∀ r ∈ a ++ a, r.length = kappa 1) ∧ a.length = 16 ∧ groupApprox a (kappa 1) = false ∧
    bit (skippedCols (groupContribs 4 false a a)) 3 = false ∧ (∀ x ∈ ([(3, 5, -2), (19, 1, 7)] : List (Nat × Int × Int)), x.1 < 256 ∧ -2 ≤ x.2.2) := by
  decide +kernel

/-- Selection on tile 0, 64 lanes short of the limit of R159, with two lines free in OUT. -/
def selTile : Tile := { sel := { init := true, k := 64 }, chans := [(13, { lines := [line256] }), (14, { items := List.replicate 31 ⟨[], 0, [], false, 0⟩ })] }
def selS : State := (onTile selTile).setReg (tileBase 0 + 0x218) (65536 - 64)
def merge0 (die : Nat) (members : List Nat) (c full : Option Nat) (unit : Bool) : Merge := ⟨die, cidOf 1 0, false, 2, members, c, full, unit, []⟩
/-- The merge of the launch, with tile 1 in it; complete; and with a merge unit. -/
def mergeS (m : List Merge) : State :=
  let ts := selS.tiles ++ [(1, { selTile with task := some { task1 with idx := 1 } })]
  { selS with merges := m, tiles := ts, sched := { selS.sched with cmds := [(cidOf 1 0, { launch1 with tiles := [0, 1] })] } }

theorem test_selection_ready :
    VecReady selS 0 (vi 0 0 0 0 0 1) [] 0 ∧ VecReady selS 0 (vi 0 0 0 0 0 (2048 + 1024)) [] 0 ∧ VecReady selS 0 (vi 0 31 31 0 0 0) [31, 31] 0 ∧
    (selS.tile 0).sel.init = true ∧ selS.reg (tileBase 0 + 0x218) + ((List.range 64).filter (bit (maskOf selS 0 0))).length = 65536 ∧
    VecReady selS 0 (vi 31 0 0 31 0 255) [] (outLines [31, 31]) ∧ VecReady selS 0 (vi 0 0 0 0 0 240) [] 0 ∧ 240 % 16 < ((selS.tile 0).sel.k + 63) / 64 ∧
    selS.tileCmd 0 = some (cidOf 1 0) := by
  unfold VecReady; decide +kernel

theorem test_merge_premises :
    let mine (m : Merge) : Bool := m.die == 0 && m.cid == cidOf 1 0 && m.shadow == selS.tileShadow 0 && m.full.isNone
    let m := merge0 0 [1] none none false
    VecReady (mergeS [m]) 0 (vi 0 0 0 0 0 34) [] 0 ∧ VecReady (mergeS []) 0 (vi 0 0 0 0 0 34) [] 0 ∧ (mergeS []).merges.find? mine = none ∧
    (((mergeS [m]).cmd (cidOf 1 0)).mergeTiles ((mergeS [m]).tileShadow 0) 0).length = 34 % 32 ∧ (mergeS [m]).merges.find? mine = some m ∧ m.lists = 34 % 32 ∧
    m.collector = none ∧ m.full = none ∧ (∀ v ∈ m.members, ((mergeS [m]).tile v).sel.k = ((mergeS [m]).tile 0).sel.k ∧
      ((mergeS [m]).tile v).sel.ord = ((mergeS [m]).tile 0).sel.ord) := by
  unfold VecReady; decide +kernel

theorem test_merge_unit_premises :
    let f := merge0 0 [0, 1] (some 0) (some 5) false
    let u := merge0 0 [0, 1] (some 0) (some 5) true
    Instr.wf (.mergeUnitTaken 0 1 0) = true ∧ (mergeS [f, u, u, u]).mergeTurn 0 = some f.asks ∧
    (mergeS [f, u, u, u]).findMerge 0 (cidOf 1 0) (fun m => m.full.isSome && !m.unit && (mergeS [f, u, u, u]).mergeTurn 0 == some m.asks) = some f ∧
    ((mergeS [f, u, u, u]).merges.filter (fun x => x.die == 0 && x.unit)).length < 4 ∧ (mergeS [u]).alive = true ∧
    Instr.wf (.mergeComplete 0 1 0) = true ∧ (mergeS [u]).findMerge 0 (cidOf 1 0) (fun m => m.unit) = some u ∧ u.collector = some 0 ∧
    (∀ v ∈ (mergeS [u]).tilesOf u.cid, (mergeS [u]).tileRuns v = true) := by
  decide +kernel

theorem test_selection_order_premises :
    ({} : Sel).list = [] ∧ [(0, 2 ^ 32 - 1), (0x80000000, 3), (0, 2 ^ 32 - 1)].Perm [(0x80000000, 3), (0, 2 ^ 32 - 1), (0, 2 ^ 32 - 1)] ∧
    ∀ p ∈ [(0, 2 ^ 32 - 1), (0x80000000, 3), (0, 2 ^ 32 - 1)], p.1 < 2 ^ 32 ∧ p.2 < 2 ^ 32 := by
  refine ⟨rfl, List.Perm.swap _ _ _, by decide⟩

/-- The opcodes of the frame run on the states of the theorems above, with a mask and a format of each kind. -/
theorem test_vector_frame_runs :
    runs (.vadd 0 (vword 0 (vi 31 31 31 0 1 0))) vecS = true ∧ runs (.vcmpeq 0 (vword 256 (vi 8 31 31 0 1 0))) vecS = true ∧
    runs (.mand 0 (vword 264 (vi 8 1 2 0 15 0))) vecS = true := by
  decide +kernel

theorem test_invalid_vector_premises : vecS.vecTakes 0 = true ∧ vecS.tileCmd 0 = some (cidOf 1 0) ∧ VIns.ok { vi 0 0 0 0 0 0 with cvt := 2 } = true ∧
    VIns.ok (vi 0 0 0 0 4 0) = true ∧ vecReserved (2 ^ 64 - 1) = true ∧
    (4 : Nat) ∉ [0, 1, 2, 3, 9, 13] ∧ Live vecS (cidOf 1 0) := by
  unfold Live; decide +kernel

/-! ## The matrix engines and the strokes -/

/-- Engine 0 of tile 0 busy with FP8 E4M3 operands and one complete line in each feeder; `inj` arms the checksum test. -/
def matTile (inj : Option (Nat × Nat)) : Tile :=
  { eng := [{ busy := true, inject := inj }, {}], chans := [(1, { active := true, lines := [⟨0, 0, false, List.replicate 4 (some (List.replicate 32 0x38)), []⟩] }),
      (3, { active := true, lines := [⟨0, 0, false, List.replicate 4 (some (List.replicate 32 0x40)), []⟩] }), (4, { active := true })] }
def matS (inj : Option (Nat × Nat)) : State := (onTile (matTile inj)).setReg (engBase 0 0) 0x44
def matCols (inj : Option (Nat × Nat)) : Nat :=
  let s := matS inj
  let x := operand 1 4 0 (padLine s 128 (List.replicate 128 0x38)) []
  let y := operand 1 4 0 (padLine s 128 (List.replicate 128 0x40)) []
  skippedCols (groupContribs 4 false x y)
/-- The slice of the same group finds column `j` wrong when the array's contributions are off by `err` (Table 5.6). -/
def matFound (err : List (Nat × Int × Int)) (j : Nat) : Bool :=
  let s := matS none
  let x := operand 1 4 0 (padLine s 128 (List.replicate 128 0x38)) []
  let y := operand 1 4 0 (padLine s 128 (List.replicate 128 0x40)) []
  chkMismatch 1 false x y (withErrors err (groupContribs 4 false x y)) j

theorem test_engine_premises :
    let s := matS none
    s.tileRuns 0 = true ∧ s.tileCmd 0 = some (cidOf 1 0) ∧ ((s.tile 0).engine 0).busy = true ∧ (s.feeders 0 0).isSome = true ∧
    nth ((s.tile 0).engine 0).owners 1 0 < 2 ∧ s.reg (engBase 0 0) = 0x44 ∧ widthClass (bits 0x44 3 0) = 1 ∧ 0 + 4224 ≤ scratchSize := by decide +kernel

/-- No column is skipped, so a column that the hardware got wrong, or the armed one, is a wrong column. -/
theorem test_engine_wrong_column : matCols (some (0, 15)) = 0 ∧ matFound [(15, 1, 0)] 15 = true ∧ matFound [] 15 = false ∧
    matFound [(15, 1, 0), (31, -1, 0)] 15 = false := by decide +kernel

/-- A product group of eight products of 1 by 2 in FP8: the last accumulator of the bank holds 16, and one step is counted (Table 5.1). -/
theorem test_engine_step : gives (.engineStep 0 0 1 true none []) (matS none) (fun u =>
    let b := nth ((u.tile 0).engine 0).banks 1 Bank.clear
    ((b.get 255).toNum b.anchor).eqv (decodeNum 1 0x41800000) && (u.chan 0 1).lines.isEmpty && u.reg (engBase 0 0 + 0x10) == 1) = true := by
  decide +kernel

theorem test_drain_premises :
    let s := matS none
    let w (n : Nat) := (s.updChan 0 4 (fun c => { c with items := List.replicate n ⟨[], 0, [], false, 0⟩ })).setReg (engBase 0 0) (2 ^ 31)
    nth ((s.tile 0).engine 0).owners 0 0 < 2 ∧ (w 0).reg (engBase 0 0) = 2 ^ 31 ∧
    ((w 0).chan 0 4).items.length + (drainItems (nth (((w 0).tile 0).engine 0).banks 0 Bank.clear) (2 ^ 31)).length ≤ 33 ∧
    Instr.wf (.chkTestWrite 0 1 0 256) = true ∧ run6.regsOpen = true ∧ (run6.tile 1).task = none ∧ fmtBits 4 = 8 ∧ bits (4 * 2 ^ 24) 27 24 = 4 ∧
    fmtBits (bits (8 * 2 ^ 24) 27 24) = 4 := by decide +kernel

/-- A channel with its program at instruction `w`. -/
def chanAt (c w : Nat) (x : Chan) : State := onTile { chans := [(c, { x with active := true, prog := [w] })], tokens := 3 :: List.replicate 15 0 }
def sop (o : Nat) : Nat := o * 2 ^ 59

theorem test_stroke_premises :
    StrokeAt (chanAt 15 (sop 1 + 2 ^ 57 + 2 ^ 55 + 2 ^ 54 + 2 ^ 32 - 1) {}) 0 15 (.seta 1 1 true (-1)) ∧
    StrokeAt (chanAt 0 (sop 2 + 3 * 2 ^ 57 + 64) {}) 0 0 (.adda 3 64) ∧ StrokeAt (chanAt 0 (sop 3 + 5 * 2 ^ 56 + 31 * 2 ^ 51 + 2 ^ 24 - 1) {}) 0 0 (.loop 5 31 (2 ^ 24)) ∧
    StrokeAt (chanAt 0 (sop 9) {}) 0 0 .flip ∧ StrokeAt (chanAt 0 (sop 8 + 15 * 2 ^ 55 + 255) {}) 0 0 (.sigt 15 255) ∧
    StrokeAt (chanAt 0 (sop 7 + 3) {}) 0 0 (.waitt 0 3) ∧ (3 : Nat) ≤ nth ((chanAt 0 (sop 7 + 3) {}).tile 0).tokens 0 0 ∧
    StrokeAt (chanAt 0 (sop 7 + 4) {}) 0 0 (.waitt 0 4) ∧ nth ((chanAt 0 (sop 7 + 4) {}).tile 0).tokens 0 0 < 4 ∧
    StrokeAt (chanAt 0 0 {}) 0 0 .fin := by
  unfold StrokeAt; decide +kernel

theorem test_token_premises :
    let s := chanAt 0 (sop 7 + 3) { wait := .token 0 3, sigs := [⟨0, 252, 0, 0⟩, ⟨0, 253, 0, 0⟩] }
    s.tileRuns 0 = true ∧ (s.chan 0 0).active = true ∧ (s.chan 0 0).wait = .token 0 3 ∧ (3 : Nat) ≤ nth (s.tile 0).tokens 0 0 ∧
    s.tileCmd 0 = some (cidOf 1 0) ∧ (s.chan 0 0).sigs = [⟨0, 252, 0, 0⟩, ⟨0, 253, 0, 0⟩] ∧ (0 : Nat) ≤ (s.chan 0 0).done ∧
    nth (s.tile 0).tokens 0 0 + 252 = 255 ∧ 255 < nth (s.tile 0).tokens 0 0 + 253 := by decide +kernel

/-- A MOVE of 16 rows of 16 pieces of 64 bytes up to the end of scratch, and the same with a transposed place and skew. -/
def moveW (tr sk rows pieces plog pitch : Nat) : Nat := sop 4 + 2 ^ 55 + tr * 2 ^ 54 + sk * 2 ^ 53 + (rows - 1) * 2 ^ 48 + (pieces - 1) * 2 ^ 44 + plog * 2 ^ 41 + pitch

theorem test_move_premises :
    let s := chanAt 12 (moveW 1 1 16 16 6 128) { a := [0x400000, 0x180000 - 16384, 0, 0] }
    StrokeAt s 0 12 (.move 0 1 true true false 16 16 6 128) ∧ (s.chan 0 12).lineBytes = 0 ∧
    ∀ r < 16, ∀ p < 16, let x := (0x180000 - 16384 + 64 * (p * 16 + r) + r / 4 * 0) % 2 ^ 64
      x + 64 ≤ scratchSize ∧ aligned x 64 = true := by
  unfold StrokeAt; decide +kernel

/-- Requests at the head of their channels: a fetch and a write of device memory, and of host memory through port 0. -/
def req0 (write : Bool) (port : Option Nat) : Req :=
  { st := .sent, write := write, addr := 0x400000, len := 64, scr := 0, piece := 0, pieceMem := 0, last := true, tok := 0, since := 0, tgt := 0x400000, port := port }
def reqS (c : Nat) (r : Req) : State := onTile { chans := [(c, { active := true, reqs := [r], issued := 1 })] }

theorem test_request_premises :
    (∀ c ∈ [(12, req0 false none), (15, req0 true none), (12, req0 false (some 0)), (15, req0 true (some 0))],
      let s := reqS c.1 c.2
      (s.chan 0 c.1).reqs = [c.2] ∧ s.tileCmd 0 = some (cidOf 1 0) ∧ s.tileShadow 0 = false ∧ s.host.hostBias.contains (c.2.tgt / 4096) = false ∧
      s.hostFirst c.2.tgt = false ∧ s.biHeld c.2.tgt = false ∧ tierOf c.2.tgt ≠ 3 ∧ s.pageRetired c.2.tgt = false ∧ (s.sector c.2.tgt).poison = false ∧ s.portMode 0 < 2 ∧ c.2.piece = 0 ∧ c.2.st = .sent) ∧
    MemRes.corrected ∈ [MemRes.ok, .corrected] := by decide +kernel

theorem test_scratch_premises : (2 : Nat) < 3 ∧ 0x17FFFF + [(7 : Nat)].length ≤ scratchSize ∧ 0x17FFFF < scratchSize := by decide

/-- EMIT of a line at the end of scratch, TAKE with and without an item, and the ends of a stroke. -/
theorem test_emit_take_end_premises :
    (let s := chanAt 13 (sop 5 + 256) { a := [0x180000 - 256, 0, 0, 0], lineBytes := 256, lines := [line256, line256, line256] }
     StrokeAt s 0 13 (.emit 0 false 256) ∧ (s.chan 0 13).areg 0 % 64 = 0 ∧ lineInScratch (s.chan 0 13) ((s.chan 0 13).areg 0) false = true ∧
     lanesInScratch (s.chan 0 13) = true ∧ (s.chan 0 13).lines.length < 4) ∧
    (let s := chanAt 14 (sop 6 + 2 ^ 56) {}
     StrokeAt s 0 14 (.take 0 true 0) ∧ (s.chan 0 14).items = []) ∧
    (let s := chanAt 14 (sop 6 + 256) { a := [0x180000 - 256, 0, 0, 0], items := [⟨zs 256, 0, [], false, 0⟩] }
     StrokeAt s 0 14 (.take 0 false 256) ∧ (s.chan 0 14).areg 0 + ((⟨zs 256, 0, [], false, 0⟩ : OutItem).bytes ((s.chan 0 14).areg 0)).1.length ≤ scratchSize) ∧
    (let s := chanAt 0 0 {}
     let w := s.setTile 0 ((s.tile 0).setChan 2 { active := true })
     StrokeAt w 0 0 .fin ∧ chanRole 0 ≠ 1 ∧ (w.chan 0 0).reqs = [] ∧ bit (w.chan 0 0).flags 0 = false ∧ (∃ e ∈ (w.tile 0).chans, e.1 ≠ 0 ∧ e.2.active = true) ∧
     s.tileCmd 0 = some (cidOf 1 0) ∧ (∀ e ∈ ((s.updChan 0 0 (fun x => { x with active := false, wait := .no })).tile 0).chans, e.2.active = false) ∧
     s.tilesOf (cidOf 1 0) = [0] ∧ Live s (cidOf 1 0)) ∧
    (let s := chanAt 0 0 { flags := 1, btab := 0x180000 - 32 * 255, rearms := 254 }
     StrokeAt s 0 0 .fin ∧ bit (s.chan 0 0).flags 0 = true ∧ (s.chan 0 0).rearms < 255 ∧ 0x180000 - 32 * 255 + 32 * 254 + 32 ≤ scratchSize ∧
     fieldOf ((s.tile 0).scrRead 0 (0x180000 - 32 * 255 + 32 * 254) 32) 0 8 ≠ 2 ^ 64 - 1) := by
  unfold StrokeAt Live; decide +kernel

theorem test_cluster_fill_premises :
    let f : Fill := { line := 32768, alloc := true, admitted := true, wait := [(0, 12, 0)] }
    let s := { onTile { chans := [(12, { active := true, reqs := [{ req0 false none with st := .fill }] })] } with caches := [(0, { fills := [f] })] }
    Instr.wf (.clusterCacheFill 0 32768 .ok .ok) = true ∧ (s.cache 0).fills.find? (fun g => g.line == 32768) = some f ∧
    s.pinnedWays 0 32768 < 16 ∧ (∀ a ∈ [128 * 32768, 128 * 32768 + 64], s.pageRetired a = false ∧ (s.sector a).poison = false ∧ tierOf a ≠ 3) ∧
    f.wait.Nodup ∧ (∀ w ∈ f.wait, (s.chan w.1 w.2.1).reqs.filter (fun r => r.tok == w.2.2) = [{ req0 false none with st := .fill }]) := by decide +kernel

/-! ## Scheduling -/

/-- Launch 0 of queue 1 with `c` changed, its task as `k`. -/
def schedS (c : Cmd → Cmd) (k : Task → Task) : State :=
  { run6 with sched := { run6.sched with cmds := [(cidOf 1 0, c launch1)] }, tiles := [(0, { ({} : Tile) with task := some (k task1) })] }

theorem test_mark_premises :
    let s := onTile {}
    let p := schedS (fun c => { c with preemptReq := true }) id
    let e := schedS (fun c => { c with cause := some (1, 2) }) id
    s.tileRuns 0 = true ∧ [0x40000000, 0x40000000].all ctlOk = true ∧ [2 ^ 32].all ctlOk = false ∧ s.tileQuiet 0 = true ∧ s.tileCmd 0 = some (cidOf 1 0) ∧
    (!s.mayYield (cidOf 1 0) || s.inMerge 0) = false ∧ (s.cmd (cidOf 1 0)).cause = none ∧ (s.cmd (cidOf 1 0)).preemptReq = false ∧
    p.tileQuiet 0 = true ∧ (!p.mayYield (cidOf 1 0) || p.inMerge 0) = false ∧ (p.cmd (cidOf 1 0)).preemptReq = true ∧
    (p.cmd (cidOf 1 0)).preemptAt = none ∧ e.tileQuiet 0 = true ∧ (!e.mayYield (cidOf 1 0) || e.inMerge 0) = false ∧
    (e.cmd (cidOf 1 0)).cause ≠ none ∧ Live e (cidOf 1 0) ∧ e.tilesOf (cidOf 1 0) = [0] := by
  unfold Live; decide +kernel

/-- Semaphore 31 of partition 0: free, held by the launch, and by another for which two wait. -/
def semS (x : Sem) : State := let s := schedS (fun c => { c with hdr := { c.hdr with semMask := 2 ^ 31 } }) id
  { s with sched := { s.sched with sems := [(31, x)], cmds := s.sched.cmds ++ [(cidOf 2 0, { launch1 with queue := 2, prio := 1 }), (cidOf 3 0, { launch1 with queue := 3 })] } }

theorem test_semaphore_premises :
    let mine : Sem := { holder := some (cidOf 1 0) }
    let waits : Sem := { mine with waiters := [cidOf 2 0, cidOf 3 0] }
    let other : Sem := { holder := some (cidOf 2 0) }
    (∀ x ∈ [{}, mine, waits, other], let s := semS x
      s.tileCmd 0 = some (cidOf 1 0) ∧ s.tileRuns 0 = true ∧ s.tileQuiet 0 = true ∧ bit (s.cmd (cidOf 1 0)).hdr.semMask 31 = true ∧ s.tilesOf (cidOf 1 0) = [0]) ∧
    ((semS {}).sem 0 31).holder = none ∧ ((semS mine).sem 0 31).holder = some (cidOf 1 0) ∧ ((semS mine).sem 0 31).waiters = [] ∧
    ((semS waits).sem 0 31).waiters ≠ [] ∧ ((semS other).sem 0 31).holder = some (cidOf 2 0) ∧ cidOf 2 0 ≠ cidOf 1 0 ∧ (semS other).mayYield (cidOf 1 0) = true ∧
    ((semS other).cmd (cidOf 1 0)).preemptReq = false ∧ Instr.wf (.semHoldOverrun 0 31) = true ∧ (semS mine).clockPaused (cidOf 1 0) = false := by decide +kernel

/-- A task image of one empty stroke on channel 15, and one on channel 0 that is full. -/
def strokeHdr (c len : Nat) : List Nat := [c, len] ++ zs 62
def imageT : TaskImage := ⟨[0x40000000, 0x40000000], [(strokeHdr 15 1, [0]), (strokeHdr 0 1, [0])], [255]⟩

theorem test_task_start_premises :
    let s := schedS (fun c => { c with st := .placed, cb := [0x0000000200000001] }) (fun k => { k with st := .loaded })
    (s.tile 0).task = some { task1 with st := .loaded } ∧ (s.cmd (cidOf 1 0)).cause = none ∧ (s.cmd (cidOf 1 0)).sess = true ∧ (s.cmd (cidOf 1 0)).look = true ∧
    taskImageOk imageT = true ∧ s.modelReady (cidOf 1 0) 0 7 0 = true ∧ (s.cmd (cidOf 1 0)).firstStep = none ∧ (s.cmd (cidOf 1 0)).part.getD 0 = 0 ∧
    ({ task1 with st := .loaded } : Task).miss = none := by decide +kernel

/-- The launch saving and restoring, with the traffic of its one frame admitted. -/
def savingS : State :=
  let v := schedS (fun c => { c with st := .saving, preemptReq := true }) (fun k => { k with st := .saving })
  admitted v [] (fun s => s.doSaveComplete 1 0)
def restoringS : State :=
  let r := { schedS (fun c => { c with st := .restoring }) (fun k => { k with st := .restoring }) with
    saved := [(frameKey (cidOf 1 0) 0, { task := some task1, frame := [0x40000000, 0x40000000, 0, 0, 3] })] }
  admitted r [] (fun s => s.doRestoreComplete 1 0)

theorem test_preemption_premises :
    let p := schedS (fun c => { c with st := .placed }) id
    let v := readyIn savingS [] (fun s => s.doSaveComplete 1 0)
    let r := readyIn restoringS [] (fun s => s.doRestoreComplete 1 0)
    Instr.wf (.timesliceExpiry 1 0) = true ∧ (p.cmd (cidOf 1 0)).opcode = 1 ∧ (p.cmd (cidOf 1 0)).st = .placed ∧
    Instr.wf (.saveComplete 1 0) = true ∧ isReady savingS [] (fun s => s.doSaveComplete 1 0) = true ∧ (v.cmd (cidOf 1 0)).st = .saving ∧
    v.tilesOf (cidOf 1 0) = [0] ∧ ((v.tile 0).task.map (·.st)) = some .saving ∧
    Instr.wf (.restoreComplete 1 0) = true ∧ isReady restoringS [] (fun s => s.doRestoreComplete 1 0) = true ∧ (r.cmd (cidOf 1 0)).st = .restoring ∧
    r.tilesOf (cidOf 1 0) = [0] ∧ ((r.tile 0).task.map Task.slot) = some 0 ∧ ((r.tile 0).task.map (·.miss)) = some none ∧
    (Tbl.get Tile.reset r.saved (frameKey (cidOf 1 0) 0)).task = some task1 ∧ r.modelReady (cidOf 1 0) 0 (r.cmd (cidOf 1 0)).model 0 = true ∧ task1.was = .run ∧
    Instr.wf (.yieldLate 1 0 5) = true ∧ (v.cmd (cidOf 1 0)).preemptReq = true ∧ (v.cmd (cidOf 1 0)).part.getD 0 < 16 := by decide +kernel

theorem test_watchdog_premises :
    ∀ x ∈ [(0, schedS (fun c => { c with st := .placed, hdr := { preNs := 1, flags := 2 } }) id),
        (1, schedS (fun c => { c with firstStep := some 0, hdr := { wcetNs := 1, flags := 2 } }) id)],
      let c := x.2.cmd (cidOf 1 0)
      Instr.wf (.wcetWatchdogExpiry 1 0 x.1) = true ∧ c.opcode = 1 ∧ c.watched = true ∧ (c.st = .placed ∨ c.st = .running) ∧ x.2.clockPaused (cidOf 1 0) = false ∧ c.cause = none ∧
      ((x.1 = 0 ∧ c.firstStep = none ∧ c.hdr.preNs ≠ 0) ∨ (x.1 = 1 ∧ c.firstStep ≠ none ∧ c.hdr.wcetNs ≠ 0)) := by decide +kernel

/-- Bytes put into device memory. -/
def put (s : State) (a : Nat) (data : List Nat) : State := { s with mem := memWrite s.mem a data }

/-- Model 7 with its image, the 64 bytes from 0x200000 in one layer, under digest `d`, being loaded in cluster 31; its load's traffic is admitted. -/
def recModelD (d : Nat) : Rec := ⟨6, (ln 4 7 ++ [0, 1, 0, 0] ++ ln 4 0x100 ++ ln 4 0) ++ natBytes 48 d ++ []⟩
def modelDues : List Due := [⟨0, loadCid 31, slotOfPhys 0x200000 false, 64, ⟨2, 31⟩⟩]
def modelS (d : Nat) : State :=
  let s := { run6 with folio := { run6.folio with active := cfg.dropLast ++ [recModelD d] },
                       sched := { run6.sched with models := [(7, { loading := 2 ^ 31, img := (0x200000, 64), lays := [(0, 64)] })] } }
  s.updBucket 0 (slotOfPhys 0x200000 false) (fun b => { b with grants := setCid b.grants (loadCid 31) 64 })
/-- The state in which the load has its effect. -/
def modelA (d : Nat) : State := (((modelS d).setMed []).ask modelDues).claim []

theorem recModelD_digest (d : Nat) (h : d < 2 ^ 384) : fieldOf (recModelD d).data 16 48 = d := by
  have k := fieldOf_natBytes (ln 4 7 ++ [0, 1, 0, 0] ++ ln 4 0x100 ++ ln 4 0) [] 48 d
  rw [show (ln 4 7 ++ ([0, 1, 0, 0] : List Nat) ++ ln 4 0x100 ++ ln 4 0).length = 16 from by decide +kernel] at k
  exact k.trans (Nat.mod_eq_of_lt h)

theorem sha384_lt (l : List Nat) : Config.sha384 l < 2 ^ 384 := (Config.sha384Bits l).isLt

/-- A load of an image whose digest is that of its record pins what is left of it, or the layer that is next. -/
theorem load_good (s : State) (r : Rec) (cl layer : Nat) (whole : Bool) (c : cfgModel s.folio.active 0 7 = some r) (i : (s.model 0 7).img.2 ≠ 0)
    (l : bit (s.model 0 7).loading cl = true) (g : Config.sha384 (s.readDP (s.model 0 7).img.1 (s.model 0 7).img.2) = fieldOf r.data 16 48)
    (w : whole = true ∨ layer = Tbl.get 0 (s.model 0 7).layers cl ∧ layer < (s.model 0 7).lays.length) :
    s.doModelLoadComplete 0 7 cl layer whole = s.loadPin 0 7 cl whole := by
  unfold State.doModelLoadComplete
  simp only [i, if_false, c, l, Bool.not_true, Bool.false_or, decide_false, Bool.false_eq_true, g, if_true]
  rcases w with w | w
  · simp [w]
  · obtain ⟨rfl, h⟩ := w
    simp [h]

/-- A load of an image whose digest is another takes nothing from a bucket and asks nothing of the host where no launch waits for it. -/
theorem load_bad (s : State) (r : Rec) (cl layer : Nat) (whole : Bool) (c : cfgModel s.folio.active 0 7 = some r) (i : (s.model 0 7).img.2 ≠ 0)
    (l : bit (s.model 0 7).loading cl = true) (g : Config.sha384 (s.readDP (s.model 0 7).img.1 (s.model 0 7).img.2) ≠ fieldOf r.data 16 48) :
    s.doModelLoadComplete 0 7 cl layer whole =
      (s.loadUsers 0 7 cl).foldl (fun s u => s.endCmd u.1 8 7 [] true) ((s.updModel 0 7 (fun x => { x with bad := true })).dropLoad 0 7 cl) := by
  unfold State.doModelLoadComplete
  simp only [i, if_false, c, l, Bool.not_true, Bool.false_or, decide_false, Bool.false_eq_true, g]

/-- The digest of the image agrees with the record, for the next layer and for the whole image. -/
theorem test_model_load_premises :
    let d := Config.sha384 (zs 64)
    let s := modelS d
    let a := modelA d
    Config.sha384 (a.readDP (a.model 0 7).img.1 (a.model 0 7).img.2) = fieldOf (recModelD d).data 16 48 ∧
    cfgModel a.folio.active 0 7 = some (recModelD d) ∧ bit (a.model 0 7).loading 31 = true ∧ (a.model 0 7).img = (0x200000, 64) ∧
    (∀ whole, Instr.wf (.modelLoadComplete 0 7 31 0 (whole, [])) = true ∧ Ready s [] (fun s => s.doModelLoadComplete 0 7 31 0 whole) a ∧
      (0 : Nat) = Tbl.get 0 (a.model 0 7).layers 31 ∧ 0 < (a.model 0 7).lays.length ∧ loadList a 0 7 31 whole = [0x200000]) ∧ ReadsClean a 0x200000 := by
  have k : fieldOf (recModelD (Config.sha384 (zs 64))).data 16 48 = Config.sha384 (zs 64) := recModelD_digest _ (sha384_lt _)
  have ra : (modelA (Config.sha384 (zs 64))).readDP 0x200000 64 = zs 64 := by decide +kernel
  have rs : ((modelS (Config.sha384 (zs 64))).setMed []).readDP 0x200000 64 = zs 64 := by decide +kernel
  have ia : ((modelA (Config.sha384 (zs 64))).model 0 7).img = (0x200000, 64) := by decide +kernel
  have is : (((modelS (Config.sha384 (zs 64))).setMed []).model 0 7).img = (0x200000, 64) := by decide +kernel
  refine ⟨?_, rfl, by decide +kernel, ia, fun whole => ⟨by cases whole <;> decide +kernel, ?_, by decide +kernel, by decide +kernel, ?_⟩, ?_⟩
  · rw [k, ia]; exact congrArg _ ra
  · have e := load_good ((modelS (Config.sha384 (zs 64))).setMed []) (recModelD (Config.sha384 (zs 64))) 31 0 whole rfl (by decide +kernel) (by decide +kernel)
      (by rw [k, is]; exact congrArg _ rs) (.inr ⟨by decide +kernel, by decide +kernel⟩)
    have u : (((modelS (Config.sha384 (zs 64))).setMed []).loadPin 0 7 31 whole).memc.due = modelDues ∧
        (((modelS (Config.sha384 (zs 64))).setMed []).loadPin 0 7 31 whole).host.needs = [] := by
      cases whole <;> decide +kernel
    unfold Ready
    simp only [e, u.1, u.2]
    exact ⟨rfl, by decide +kernel, by decide +kernel⟩
  · cases whole <;> decide +kernel
  · unfold ReadsClean; decide +kernel

/-- A digest that does not agree. -/
theorem test_model_bad_premises :
    let e := (Config.sha384 (zs 64) + 1) % 2 ^ 384
    let s := modelS e
    Ready s [] (fun s => s.doModelLoadComplete 0 7 31 0 true) (s.setMed []) ∧
    Config.sha384 ((s.setMed []).readDP ((s.setMed []).model 0 7).img.1 ((s.setMed []).model 0 7).img.2) ≠ fieldOf (recModelD e).data 16 48 ∧
    ((s.setMed []).model 0 7).img.2 ≠ 0 ∧ bit ((s.setMed []).model 0 7).loading 31 = true := by
  have rd : ((modelS ((Config.sha384 (zs 64) + 1) % 2 ^ 384)).setMed []).readDP 0x200000 64 = zs 64 := by decide +kernel
  have im : (((modelS ((Config.sha384 (zs 64) + 1) % 2 ^ 384)).setMed []).model 0 7).img = (0x200000, 64) := by decide +kernel
  have us : ((modelS ((Config.sha384 (zs 64) + 1) % 2 ^ 384)).setMed []).loadUsers 0 7 31 = [] := by decide +kernel
  have h := sha384_lt (zs 64)
  have g : Config.sha384 (((modelS ((Config.sha384 (zs 64) + 1) % 2 ^ 384)).setMed []).readDP (((modelS ((Config.sha384 (zs 64) + 1) % 2 ^ 384)).setMed []).model 0 7).img.1
      (((modelS ((Config.sha384 (zs 64) + 1) % 2 ^ 384)).setMed []).model 0 7).img.2) ≠ fieldOf (recModelD ((Config.sha384 (zs 64) + 1) % 2 ^ 384)).data 16 48 := by
    rw [im, recModelD_digest _ (Nat.mod_lt _ (Nat.two_pow_pos 384)), rd]
    intro k
    rcases Nat.lt_or_ge (Config.sha384 (zs 64) + 1) (2 ^ 384) with l | l
    · rw [Nat.mod_eq_of_lt l] at k; omega
    · rw [show Config.sha384 (zs 64) + 1 = 2 ^ 384 by omega, Nat.mod_self] at k; omega
  refine ⟨?_, g, by decide +kernel, by decide +kernel⟩
  have f := load_bad ((modelS ((Config.sha384 (zs 64) + 1) % 2 ^ 384)).setMed []) (recModelD ((Config.sha384 (zs 64) + 1) % 2 ^ 384)) 31 0 true rfl (by decide +kernel)
    (by decide +kernel) g
  unfold Ready
  simp only [f, us, List.foldl_nil]
  refine (if_pos ⟨?_, ?_⟩).mpr trivial <;> decide +kernel

theorem test_accounting_premises : Instr.wf (.acctSelWrite 1 0xFFF) = true ∧ Instr.wf (.acctMdlSelWrite 0 (2 ^ 36 - 1)) = true ∧
    Instr.wf (.acctClear 0 0x1FFF) = true ∧ Instr.wf (.acctClear 0 0xFFF) = true ∧ bit 0x1FFF 12 = true ∧ bit 0xFFF 12 = false ∧ run6.regsOpen = true := by
  decide +kernel

/-! ## The block as a whole -/

def readId : Instr := .rcRegisterRead 0 0 4
def noTile : Instr := .tokenWaitSatisfied 128 0

theorem test_queue_premises : ({ run6 with pending := [readId, noTile] } : State).pending = readId :: [noTile] ∧ Instr.wf readId = true ∧
    Instr.wf noTile = false ∧ run6.pending = [] ∧ (∀ c ∈ [readId, readId], Instr.wf c = true) ∧
    (match step { run6 with pending := [noTile] } with | .fault .noSuchUnit => true | _ => false) = true ∧
    (match step { run6 with pending := [readId, noTile] } with | .next u => decide (u.pending = [noTile]) | _ => false) = true := by decide +kernel

theorem test_held_premises : State.reset.alive = false ∧ ({ run6 with pins := { run6.pins with thermtripN := false } } : State).alive = false ∧
    Instr.wf readId = true ∧ readId ≠ .resetAssert ∧ readId ≠ .powerOnStart ∧ (∀ p, readId ≠ .perstAssert p ∧ readId ≠ .perstRelease p) := by
  refine ⟨by decide, by decide +kernel, by decide, by decide, by decide, fun p => ⟨nofun, nofun⟩⟩

/-- A state with two bytes of memory, canonical and of the shape, whose step answers. -/
theorem test_invariant_premises : let s := { put run6 0x1000 [7, 9] with pending := [readId] }
    s.Inv ∧ s.Shaped ∧ (match step s with | .next _ => true | _ => false) = true := by
  unfold State.Inv State.Shaped Settled; decide +kernel

/-- The block with port `p` up in mode `m`, and every die on it. -/
def portOn (p m : Nat) (s : State) : State :=
  let s := s.setReg (0x320000 + 0x100 * p) (1 + 2 * m)
  { s with host := { s.host with via := List.replicate 8 (some p) } }

theorem test_pin_premises : run6.pins.resetN = true ∧ run6.Inv ∧ run6.alive = true ∧ run6.portUp 1 = false ∧ (1 : Nat) < 2 ∧ (7 : Nat) < 8 ∧ run6.pace.refRun = true := by
  unfold State.Inv; decide +kernel

/-- One window of eight dies, good but for die 7, whose slowest monitor reads 1,099. -/
def window : List DieMeas := List.replicate 7 ⟨[1500, 1200, 1100, 1300, 1400], 700, 0, 420, 300⟩ ++ [⟨[1500, 1099, 1100, 1300, 1400], 700, 0, 420, 300⟩]

theorem test_pace_premises : Instr.wf (.paceWindowEnd window) = true ∧ window[7]? = some ⟨[1500, 1099, 1100, 1300, 1400], 700, 0, 420, 300⟩ ∧
    (∀ x ∈ [1500, 1099, 1100, 1300, 1400], 1099 ≤ x) ∧ failedConds ⟨[1500, 1099, 1100, 1300, 1400], 700, 0, 420, 300⟩ 1099 false = 4 ∧
    failedConds ⟨[1500, 1200, 1100, 1300, 1400], 700, 0, 420, 300⟩ 1100 false = 0 := by decide +kernel

theorem test_voltage_premises :
    Instr.wf (.vcoreAdjust 7 4095) = true ∧ run6.leadDie ≠ 4 ∧ run6.field 0x800014 2 0 ≠ 3 ∧ (600 ≤ (run6.diePace 7).vcore ∧ (run6.diePace 7).vcore ≤ 880) ∧
    Instr.wf (.paceTimeStepWrite 1 (2 ^ 63)) = true ∧ Instr.wf (.paceTimeStepWrite 1 (2 ^ 63 - 1)) = true ∧ run6.regsOpen = true ∧ run6.ptpOn = false ∧
    Instr.wf (.paceTimeRateWrite 0 (2 ^ 32 - 100000)) = true ∧ signed 32 (2 ^ 32 - 100000) = -100000 ∧ signed 32 100000 = 100000 ∧ run6.pace.slew = 0 ∧
    (let s := (run6.setReg (ethBase 7 + 4) 0x81).setReg 0x10010 (1 + 2 * 7)
     Instr.wf (.ptpMessageReceive 7 0 8 (-50) 3 (-100000)) = true ∧ Instr.wf (.ptpMessageReceive 7 0 2 0 0 0) = true ∧ ptpUsed 8 = true ∧ ptpUsed 2 = false ∧ s.subUp 7 0 = true ∧ s.ptpOn = true ∧ s.field 0x10010 3 1 = 7 ∧ s.subUp 7 7 = true) := by
  decide +kernel

/-- What the power-on start leaves for software: the pace of the windows and the reset value of the administration queue (21). -/
theorem test_reset_values : State.reset.reg 0x110 = 0x600 ∧ State.reset.reg 0x300008 = 1000 ∧ gives .powerOnStart State.reset (fun u => u.alive && u.time == 0) = true := by
  decide +kernel

/-- GLB_ADMQ_SQBASE through port 1, an upper half latched and a lower half held. -/
theorem test_half_premises :
    let r : RegRow := rw 0x100 64 (ones 63 6)
    let s := (run6.setLatch (halfKey 1 0x100) 6).setHeld (halfKey 1 0x100) 8
    run6.Has64 1 0x100 r ∧ s.Has64 1 0x100 r ∧ Tbl.get 0 s.latch (halfKey 1 0x100) = 5 + 1 ∧ Tbl.get 0 s.held (halfKey 1 0x100) = 7 + 1 ∧
    Tbl.get 0 run6.latch (halfKey 1 0x100) = 0 ∧ Tbl.get 0 run6.held (halfKey 1 0x100) = 0 ∧
    run6.Has64 0 0x401040 ((rw 0x401040 64 (2 ^ 64 - 1)).times2 8 0x200 8 0x20) := by
  unfold State.Has64 Settled; decide +kernel

theorem test_access_premises :
    let dead := run6.setField 0x800000 3 0 15
    dead.stage = 15 ∧ nibOffset 0x100 = false ∧ run6.stage ≠ 15 ∧ Instr.wf (.rcRegisterRead 1 0x3FFFFFF 3) = true ∧ Instr.wf (.registerWrite 0 0x102 4 0) = true ∧
    (regRow? 0x110).map (·.width) = some 32 ∧ regRow? 0xFC = none ∧ (regRow? 0x100).map (·.width) = some 64 ∧ regRow? 0x104 = none ∧
    Instr.wf (.registerWrite 0 0xFC 8 5) = true ∧ Instr.wf (.rcRegisterRead 0 0x3FFFFFC 4) = true ∧ regRow? 0x3FFFFFC = none ∧ regRow? 0x3FFFFF8 = none ∧
    Instr.wf (.registerWrite 0 0x100 4 5) = true := by decide +kernel

/-- A register of plain RW bits: in the ring base of the package a value that is no HV address is reserved; FLT_RETIRE_CTRL; an RC counter; the two
halves of an IPv6 address. -/
theorem test_plain_register_premises :
    regRow? 0x30000 = some (rw 0x30000 64 (ones 63 0)) ∧ Instr.wf (.registerWrite 0 0x30000 8 5) = true ∧ run6.writeBarred 0x30000 = false ∧
    reservedValue 0x30000 (blend (run6.reg 0x30000) 5 (2 ^ 64 - 1)) = true ∧ ip6First 0x30000 = false ∧ ip6Second 0x30000 = false ∧
    regRow? 0x30C00 = some (rw 0x30C00 32 0x1F 7) ∧ reservedValue 0x30C00 (blend (run6.reg 0x30C00) 0x1F (2 ^ 32 - 1)) = false ∧
    (run6.writeSpecial 0 0x30C00 0x1F).isNone = true ∧ run6.writeBarred 0x30C00 = false ∧
    (regRow? 0x1008).map (fun r => (r.width, r.rc != 0)) = some (32, true) ∧ ip6First 0x401040 = true ∧ ip6Second 0x401048 = true ∧
    Tbl.get 0 (run6.setHeld (ip6Key 1 0x401040) (5 + 1)).held (ip6Key 1 (0x401048 - 8)) = 5 + 1 ∧
    run6.Has64 1 0x401048 ((rw 0x401048 64 (2 ^ 64 - 1)).times2 8 0x200 8 0x20) := by
  unfold State.Has64 Settled; decide +kernel

/-! ## Folios -/

/-- A header (Table 3.1) with two sections, PACKAGE and PARTITION, or with one RETIRE section over the folio of digest `base`. -/
def head (kind size n target : Nat) (base : List Nat) : List Nat :=
  ln 8 0x4F494C4F46374E4C ++ ln 2 1 ++ ln 2 kind ++ ln 4 512 ++ ln 8 size ++ ln 4 n ++ ln 4 0 ++ ln 8 9 ++ ln 8 0 ++ ln 1 target ++ ln 1 0 ++ zs 2
  ++ ln 4 512 ++ base ++ ln 48 5 ++ zs 96 ++ zs 264
def sect (typ action count off size rsize : Nat) : List Nat := ln 2 typ ++ ln 2 action ++ ln 4 count ++ ln 8 off ++ ln 8 size ++ ln 4 rsize ++ zs 4
def fullImage : List Nat := head 1 704 2 0xFF (zs 48) ++ sect 1 0 1 576 16 16 ++ sect 2 0 1 640 64 64 ++ recPkg.data ++ zs 48 ++ recPart.data
def patchImage (kind typ action n : Nat) (body : List Nat) : List Nat :=
  head kind (576 + n) 1 0 (natBytes 48 (Config.sha384 [0])) ++ sect typ action 1 576 n n ++ zs 32 ++ body
def reconfImage : List Nat := patchImage 2 2 1 64 recPart.data
def repairImage : List Nat := patchImage 3 10 1 16 ([0, 0, 3, 0] ++ zs 12)

/-- The block with the owner key 5, and folio operation `o`. -/
def folioS (o : Option FolioOp) : State :=
  { run6 with flash := { run6.flash with owners := [5], committed := some 1, slots := [{}, { full := fullImage }] }, folio := { run6.folio with op := o } }

theorem patch_base (x : Nat) (h : x < 2 ^ 384) (a c : List Nat) (l : a.length = 56) : fieldOf (a ++ natBytes 48 x ++ c) 56 48 = x := by
  have k := fieldOf_natBytes a c 48 x
  rw [l] at k
  exact k.trans (Nat.mod_eq_of_lt h)

theorem folioCheck_ok (s : State) (kind : Nat) (b : List Nat) (g : s.failsSignature b kind = false) (e : s.failsBase b kind = false)
    (h : let cfg := resulting s.folio.active b
      let t : State := { s with folio := { s.folio with active := cfg } }
      512 ≤ b.length ∧ failsFormat b kind = false ∧ failsSize b kind = false ∧ s.failsSecver b = false ∧ fieldOf b 40 8 = 0 ∧ failsLayout b kind = false ∧
      t.failsField b = false ∧ failsOwnership cfg b = false ∧ t.failsCapacity = false ∧ failsReference s.folio.active cfg b = false ∧
      failsScope s.folio.active b kind = false ∧ failsShared s.folio.active b kind = false) :
    s.folioCheck kind b = .ok (resulting s.folio.active b) := by
  obtain ⟨h1, h2, h3, h4, h5, h6, h7, h8, h9, h10, h11, h12⟩ := h
  have h5 : failsTarget b = false := by simp [failsTarget, h5]
  unfold State.folioCheck
  simp only [Nat.not_lt.mpr h1, g, e, h2, h3, h4, h5, h6, h7, h8, h9, h10, h11, h12, reduceIte, Bool.false_eq_true]

/-- Where the signature verifies, a full folio, a patch of partition 0 and a retirement of tile 3 pass every check; an empty one fails with 0x02. -/
theorem test_folio_check (v : ∀ m g, Config.ecdsaVerify 5 m g = true) :
    (folioS none).folioCheck 1 fullImage = .ok (resulting cfg fullImage) ∧ (folioS none).folioCheck 2 reconfImage = .ok (resulting cfg reconfImage) ∧
    (folioS none).folioCheck 3 repairImage = .ok (resulting cfg repairImage) ∧ (folioS none).folioCheck 1 [] = .error 2 := by
  have sg (b : List Nat) (k : Nat) (h : fieldOf b 104 48 = 5 ∧ fieldOf b 49 1 = 0) : (folioS none).failsSignature b k = false := by
    unfold State.failsSignature
    simp only [h.1, h.2, v, reduceIte]
    decide +kernel
  have bs (b : List Nat) (k : Nat) (h : fieldOf b 56 48 = Config.sha384 [0]) : (folioS none).failsBase b k = false := by
    unfold State.failsBase
    rw [h]
    cases k != 1 <;> simp [folioS, run6, State.setField, State.setReg]
  have p (kind typ action n : Nat) (body : List Nat) : fieldOf (patchImage kind typ action n body) 56 48 = Config.sha384 [0] :=
    patch_base _ (sha384_lt _) (ln 8 0x4F494C4F46374E4C ++ ln 2 1 ++ ln 2 kind ++ ln 4 512 ++ ln 8 (576 + n) ++ ln 4 1 ++ ln 4 0 ++ ln 8 9 ++ ln 8 0 ++ ln 1 0 ++ ln 1 0 ++ zs 2
      ++ ln 4 512) (ln 48 5 ++ zs 96 ++ zs 264 ++ sect typ action 1 576 n n ++ zs 32 ++ body) (by simp [ln, zs]) |> fun h => by
        rw [← h]; unfold patchImage head; simp only [List.append_assoc]
  refine ⟨folioCheck_ok _ _ _ (sg _ _ (by decide +kernel)) (by decide +kernel) (by decide +kernel),
    folioCheck_ok _ _ _ (sg _ _ (by decide +kernel)) (bs _ _ (p 2 2 1 64 _)) (by decide +kernel),
    folioCheck_ok _ _ _ (sg _ _ (by decide +kernel)) (bs _ _ (p 3 10 1 16 _)) (by decide +kernel), rfl⟩

/-- Command 0 of the administration queue with entry `e`, fetched; folio operation `o`. -/
def adminS (o : Option FolioOp) (e : List Nat) : State :=
  { folioS o with sched := { run6.sched with queues := [(0, { st := 1, log2 := 6 })], cmds := [(0, { st := .fetched, opcode := fieldOf e 0 1, entry := e })] } }
/-- Entry with opcode `c` that names a staged folio at an HV address. -/
def stage (c : Nat) : List Nat := ln 1 c ++ zs 7 ++ ln 8 (2 ^ 62 + 0x1000) ++ ln 8 704 ++ zs 32
def fop (op phase : Nat) : FolioOp := { op := op, phase := phase, config := resulting cfg fullImage, image := fullImage }

theorem test_folio_begin_premises :
    (∀ x ∈ [(Instr.folioLoad, 0x45, 1), (.partReconf, 0x46, 2), (.folioRepair, 0x47, 3)], ∀ o ∈ [none, some (fop 4 2)],
      let s := adminS o (stage x.2.1)
      s.admin x.2.1 = some 0 ∧ s.adminOpen x.2.1 = true ∧ hvOk (fieldOf (s.cmd 0).entry 8 8) = true ∧ s.folio.op = o) ∧
    (let s := adminS none (ln 1 0x48 ++ zs 55)
     s.admin 0x48 = some 0 ∧ s.stage = 6 ∧ s.field 0x800014 2 0 < 2 ∧ s.folio.full ≠ [] ∧ s.pkgState ≠ 0 ∧ s.pkgState ≠ 3) := by decide +kernel

theorem test_full_load_premises :
    (folioS (some (fop 1 1))).folio.op = some (fop 1 1) ∧ (fop 1 1).slot = none ∧ (fop 1 1).fail = false ∧ (∀ c ∈ (folioS (some (fop 1 1))).cids, c / 2 ^ 23 = 0) ∧
    ({ fop 1 2 with slot := some 1 } : FolioOp).slot = some 1 ∧ (folioS (some { fop 1 2 with slot := some 1 })).flash.committed = some 1 ∧
    (folioS none).nib.down = false ∧
    (let s := { run6 with folio := { run6.folio with zeroing := [(0x200000, 0x200000)] } }
     s.folio.zeroing.find? (fun z => z.1 == 0x200000) = some (0x200000, 0x200000)) := by decide +kernel

/-- The load of slot 0 failed at a start, slot 1 is to be tried. -/
def otherS : State := { folioS (some { fop 1 2 with slot := some 0 }) with flash := { (folioS none).flash with committed := some 0 } }
def otherT : State := { otherS with folio := { otherS.folio with op := none } }.folioStatus 1 0xE

/-- The other slot's folio is taken where its signature verifies. -/
theorem test_other_slot (v : ∀ m g, Config.ecdsaVerify 5 m g = true) : otherS.flash.committed = some 0 ∧ ∃ r, otherT.slotOp (1 - 0) = .ok r := by
  have g : (otherT.putWindows { full := fullImage }).failsSignature fullImage 1 = false := by
    unfold State.failsSignature
    simp only [show fieldOf fullImage 104 48 = 5 by decide +kernel, show fieldOf fullImage 49 1 = 0 by decide +kernel, v,
      show (otherT.putWindows { full := fullImage }).ownerKey = some 5 by decide +kernel, reduceIte]
    decide
  have h := folioCheck_ok _ 1 fullImage g rfl (by decide +kernel)
  have e : ∃ c, (otherT.putWindows { full := fullImage }).slotCheck { full := fullImage } = .ok c := by
    unfold State.slotCheck
    rw [h]
    exact ⟨_, rfl⟩
  obtain ⟨c, e⟩ := e
  refine ⟨rfl, ?_⟩
  unfold State.slotOp
  rw [show nth otherT.flash.slots (1 - 0) {} = { full := fullImage } from rfl]
  simp only [e]
  exact ⟨_, rfl⟩

theorem test_reconf_premises :
    let d := { fop 2 1 with limitUs := 5 }
    let w := { folioS (some d) with pace := { run6.pace with time := 5000 }, sched := { run6.sched with cmds := [(cidOf 1 0, launch1)] } }
    w.folio.op = some d ∧ d.mode = 0 ∧ d.since + 1000 * d.limitUs ≤ w.time ∧ Live w (cidOf 1 0) ∧ cidOf 1 0 ∈ w.partCmds d.part ∧ (w.cmd (cidOf 1 0)).begun = true ∧ d.part < 16 ∧
    (folioS (some d)).partQuiet d.part true = true ∧ (folioS (some (fop 2 2))).nib.down = false := by
  unfold Live; decide +kernel

theorem test_retire_commit_premises :
    let s := { run6 with flt := { run6.flt with retiring := [(1, 31, 0)] } }
    let b := { onTile {} with flt := { run6.flt with retiring := [(0, 0, 4)] } }
    Instr.wf (.unitRetire 1 31) = true ∧ s.flt.retiring.find? (fun x => x.1 == 1 && x.2.1 == 31) = some (1, 31, 0) ∧ s.unitIdle 1 31 = true ∧
    Instr.wf (.unitRetire 0 0) = true ∧ b.flt.retiring.find? (fun x => x.1 == 0 && x.2.1 == 0) = some (0, 0, 4) ∧ b.unitIdle 0 0 = false ∧
    (folioS (some (fop 4 2))).folio.op = some (fop 4 2) ∧ (fop 4 2).slot = none := by decide +kernel

/-! ## Tables, sessions and reductions -/

theorem pairEq {α β : Type} {x : α × β} {b : β} (h : x.2 = b) : x = (x.1, b) := by cases x; cases h; rfl
theorem tripleEq {α β γ : Type} {x : α × β × γ} {b : β} {c : γ} (h : x.2.1 = b ∧ x.2.2 = c) : x = (x.1, b, c) := by
  obtain ⟨a, p, q⟩ := x; obtain ⟨rfl, rfl⟩ := h; rfl
theorem quadEq {α β γ δ : Type} {x : α × β × γ × δ} {d : δ} (h : x.2.2.2 = d) : x = (x.1, x.2.1, x.2.2.1, d) := by
  obtain ⟨a, p, q, r⟩ := x; cases h; rfl

/-- Tables 9 (uniform FP16 rows), 10 (MIXED) and 11 (VERSIONED) of partition 0: four rows of 16 elements on die 0; their maps' handles. -/
def recTable (id mixed flags handle : Nat) : Rec :=
  ⟨7, zs 4 ++ ln 4 id ++ zs 8 ++ ln 8 4 ++ ln 2 16 ++ [mixed, 0, 2, 0, 1, flags] ++ ln 2 1 ++ zs 2 ++ ln 4 handle ++ zs 8 ++ [0, 0, 1, 3] ++ ln 2 10 ++ ln 2 5
    ++ ln 4 1 ++ zs 4⟩
def handleEnt (off len : Nat) : List Nat := ln 8 off ++ ln 6 len ++ [0x80, 0]
def shardB (copy pools dir count : Nat) (ps : List (Nat × Nat)) : List Nat :=
  ([0, copy, pools] ++ zs 5 ++ ln 8 dir ++ ln 8 count ++ zs 8 ++ (ps.map (fun p => ln 8 p.1 ++ ln 5 4 ++ [p.2, 0, 0])).flatten ++ zs 96).take 128
/-- The state map of optimizer `opt`. -/
def stateMap (opt : Nat) : List Nat :=
  (if opt = 2 then [2, 3, 3, 0, 1] else if opt = 1 then [1, 0, 1, 0, 1] else [0, 0, 0, 0, 1]) ++ zs 59 ++
  zs 8 ++ ln 8 (if opt = 2 then 0x280000 else 0) ++ zs 8 ++ ln 8 (if opt = 0 then 0 else 0x290000) ++ zs 32
def ctx1 : Ctx := { pasid := 5, pasidEn := true, slots := [⟨true, 0, 3, 0x200000, 0x3FFFFF, 1, 0, false⟩, ⟨true, 1, 3, 0x400000, 0x5FFFFF, 1, 0, false⟩] }
/-- The block with the three tables, queue 1 and command 0 of it as `c`. -/
def unitS (c : Cmd) : State :=
  let s := { run6 with
    folio := { run6.folio with active := cfg ++ [recTable 9 0 8 0x100, recTable 10 1 8 0x200, recTable 11 0 1 0x300] }
    sched := { run6.sched with bound := [(0, 3)], queues := [(1, { st := 1, log2 := 6, part := some 0, client := 5, ctx := ctx1, j := 1 })], cmds := [(cidOf 1 0, c)] } }
  let s := put s 0x600010 (handleEnt 0 144 ++ handleEnt 0x1000 144 ++ handleEnt 0x2000 272 ++ handleEnt 0x3000 128)
  let s := put s 0x200000 ([1, 1] ++ zs 14 ++ shardB 0 1 0 0x210000 [(0x220000, 0)])
  let s := put s 0x201000 ([1, 1] ++ zs 14 ++ shardB 0 2 0x230000 0x231000 [(0x240000, 0), (0x250000, 1)])
  put s 0x202000 ([2, 2] ++ zs 14 ++ shardB 0 1 0 0 [(0x260000, 0)] ++ shardB 1 1 0 0 [(0x270000, 0)])
/-- Command 0 of queue 1 with opcode `op`, fetched, its request at 0x400000; or running. -/
def unitCmd (op : Nat) : Cmd := { st := .fetched, queue := 1, part := some 0, client := 5, opcode := op, entry := zs 8 ++ ln 8 0x400000 ++ zs 40 }
def unitRun (op : Nat) : State := unitS { unitCmd op with st := .running }

/-- A pass entry: `bags` bags of table `t` summed into FP32 at 0x404000, or FP16 under weights for mode 3. -/
def passE (t mode : Nat) : List Nat := ln 2 t ++ [mode, 1, 0, 127] ++ zs 2 ++ ln 4 1 ++ ln 4 64 ++ ln 8 0x401000 ++ zs 8 ++ ln 8 (if mode = 3 then 0x402000 else 0)
  ++ ln 8 0x404000 ++ zs 16
def lookS : State := put (put (unitS (unitCmd 2)) 0x400000 (ln 2 1 ++ zs 62 ++ passE 9 0)) 0x401000 (ln 4 2)
/-- A started pass of table `t` in which row `x` is open. -/
def passS (t : Nat) (x : TeRow) : State :=
  let s := (unitRun 2).setReg 0x200000 1
  let s := put s 0x220040 ([0, 0x3C, 0, 0x40] ++ zs 28)
  let s := put s 0x230008 (ln 8 (dirWord 1 1 2))
  let s := put s 0x250040 ([1, 2, 3] ++ zs 13 ++ [128])
  { s with units := { s.units with te := [(cidOf 1 0, { passes := [{ entry := passE t 0, started := true, rows := [x], lens := [1] }] })] } }
def row2 : TeRow := { eng := 0, sub := 0, idx := 2, die := 0, row := 2, occ := [(0, 127, 0)] }

/-- The first 64 bytes of a request, and the `m` after them, as the unit `w` reads them from the state `s`. -/
def head64 (s : State) (cid : Nat) (w : UnitId) (a : Nat) : State × UOut := (s.updCmd cid (fun c => { c with st := .running })).unitRead cid w hv a 64
def tailOf (s : State) (cid : Nat) (w : UnitId) (a m : Nat) : State × UOut := (head64 s cid w a).1.unitRead cid w hv (a + 64) m
theorem request_read {s : State} {cid a size n : Nat} {w : UnitId} {hd body : List Nat}
    (h : (head64 s cid w a).2 = .ok hd ∧ fieldOf hd 0 2 = n ∧ (tailOf s cid w a (size * n)).2 = .ok body) :
    s.RequestRead cid w hv a size n hd body (tailOf s cid w a (size * n)).1 := ⟨_, pairEq h.1, h.2.1, pairEq h.2.2⟩

def lookA : State := readied lookS [] (fun s => s.doLookup 1 none hv)
def lookR : Nat := (lookA.cmd (cidOf 1 0)).reqAddr
theorem test_lookup_request :
    let hd := ln 2 1 ++ zs 62
    let b := (tailOf lookA (cidOf 1 0) ⟨0, 0⟩ lookR (64 * 1)).1
    lookA.RequestRead (cidOf 1 0) ⟨0, 0⟩ hv lookR 64 1 hd (passE 9 0) b ∧ readies lookS [] (fun s => s.doLookup 1 none hv) = true ∧
    lookA.startable 1 2 = some (cidOf 1 0) ∧ lookA.noEngines = false ∧ aligned lookR 64 = true ∧ lookA.readerTe (cidOf 1 0) = some ⟨0, 0⟩ ∧ fieldOf hd 2 1 < 8 ∧
    zeroBytes hd 3 64 = true ∧ (reqEntries 64 1 (passE 9 0)).all (b.passOk ((lookA.cmd (cidOf 1 0)).part.getD 0)) = true := by
  have h : ((head64 lookA (cidOf 1 0) ⟨0, 0⟩ lookR).2 = .ok (ln 2 1 ++ zs 62) ∧ fieldOf (ln 2 1 ++ zs 62) 0 2 = 1 ∧
      (tailOf lookA (cidOf 1 0) ⟨0, 0⟩ lookR (64 * 1)).2 = .ok (passE 9 0)) ∧ readies lookS [] (fun s => s.doLookup 1 none hv) = true ∧
      lookA.startable 1 2 = some (cidOf 1 0) ∧ lookA.noEngines = false ∧ aligned lookR 64 = true ∧ lookA.readerTe (cidOf 1 0) = some ⟨0, 0⟩ ∧ fieldOf (ln 2 1 ++ zs 62) 2 1 < 8 ∧
      zeroBytes (ln 2 1 ++ zs 62) 3 64 = true ∧ (reqEntries 64 1 (passE 9 0)).all ((tailOf lookA (cidOf 1 0) ⟨0, 0⟩ lookR (64 * 1)).1.passOk
        ((lookA.cmd (cidOf 1 0)).part.getD 0)) = true := by decide +kernel
  exact ⟨request_read h.1, h.2⟩

def pass0 (t : Nat) (x : TeRow) : TePass := { entry := passE t 0, started := true, rows := [x], lens := [1] }
def tab9 : Rec := recTable 9 0 8 0x100
def tab10 : Rec := recTable 10 1 8 0x200
def ent9 : ShardEnt := { die := 0, copy := 0, dir := 0, count := 0x210000, pools := [⟨0x220000, 4, 0⟩] }
def ent10 : ShardEnt := { die := 0, copy := 0, dir := 0x230000, count := 0x231000, pools := [⟨0x240000, 4, 0⟩, ⟨0x250000, 4, 1⟩] }

/-- Row `x` of a pass of table `t` that may be fetched, in the state in which its traffic is admitted. -/
def rowA (t : Nat) (x : TeRow) : State := readied (passS t x) [] (fun s => s.doRowFetchComplete 1 0 0 0)
def LookOpen (t : Nat) (x : TeRow) (r : Rec) : Prop :=
  let s := rowA t x
  let p := pass0 t x
  readies (passS t x) [] (fun s => s.doRowFetchComplete 1 0 0 0) = true ∧ s.tePass (cidOf 1 0) 0 = some p ∧ p.rows[0]? = some x ∧
  cfgTable s.folio.active (peTable p.entry) = some r ∧ p.started = true ∧ p.done = false ∧ p.openRow 0 = true ∧ x.occ = [(0, 127, 0)] ∧
  ∀ y ∈ p.rows, y.remote = none ∨ y.st ≠ .waiting

theorem test_lookup_default : LookOpen 9 { row2 with dflt := true } tab9 ∧ tDefault tab9 = false := by unfold LookOpen; decide +kernel

def LookRow (t : Nat) (x : TeRow) (r : Rec) (e : ShardEnt) (d : List Nat) : Prop :=
  let s := rowA t x
  let p := pass0 t x
  let m := (s.tableMap x.eng r p.gen).1
  let a := if tMixed r then rowAt r e (dirPool x.entry) (dirSlot x.entry) else rowAt r e 0 x.row
  let z := m.rowRead (cidOf 1 0) x.eng r true (!tNoHot r) ((m.phys a.2).getD 0) (rowBytes a.1 (tWidth r))
  x.dflt = false ∧ x.remote = none ∧ (tMixed r = false ∨ x.st ≠ .waiting) ∧ (s.tableMap x.eng r p.gen).2 = some (some [e]) ∧
  p.ent r [e] x.die = some e ∧ z.2 = .ok d ∧ (p.firstMet 0 = false ∨ (tCount r && bit (z.1.reg 0x200000) 1) = false) ∧ z.1.tePass (cidOf 1 0) 0 = some p

def row10 : TeRow := { row2 with row := 1, idx := 1, st := .gettingRow, entry := dirWord 1 1 2 }
theorem test_lookup_rows : LookOpen 9 row2 tab9 ∧ LookRow 9 row2 tab9 ent9 ([0, 0x3C, 0, 0x40] ++ zs 28) ∧ LookOpen 10 row10 tab10 ∧
    LookRow 10 row10 tab10 ent10 ([1, 2, 3] ++ zs 13 ++ [128]) := by
  unfold LookRow LookOpen; decide +kernel

/-- A pass whose row is done, alone in its request or with one still open, of a command or of a launch. -/
def passD : TePass := { entry := passE 9 0, started := true, rows := [{ row2 with st := .done }], lens := [1], pools := [{ eng := 0, bag := 0 }] }
def doneS (last launch : Bool) : State :=
  let s := passS 9 row2
  { s with units := { s.units with te := [(cidOf 1 0, { passes := passD :: (if last then [] else [pass0 9 row2]), launch := launch })] } }
theorem test_pass_complete : ∀ x ∈ [(true, true), (true, false), (false, true), (false, false)],
    let s := readied (doneS x.1 x.2) [] (fun s => s.doPassComplete 1 0 0 hv)
    let v := s.writeBags (cidOf 1 0) hv passD (tWidth tab9) (upto (peBags passD.entry))
    readies (doneS x.1 x.2) [] (fun s => s.doPassComplete 1 0 0 hv) = true ∧
    s.tePass (cidOf 1 0) 0 = some passD ∧ cfgTable s.folio.active (peTable passD.entry) = some tab9 ∧ passD.rows.all (fun x => x.st == .done) = true ∧
    v.2 = .ok [] ∧ v.1.teCmd (cidOf 1 0) = s.teCmd (cidOf 1 0) ∧ Live v.1 (cidOf 1 0) := by
  unfold Live; decide +kernel

/-- Counts of table 9 that lie in plain memory; its map held by engine 0 before a write of TE_MAP_INVAL. -/
def agingS : State := put ((unitRun 2).setReg 0x200000 1) 0x210000 [7, 1, 255, 255]
theorem test_aging_premises : let s := agingS
    Instr.wf (.teMapInvalWrite 0 9) = true ∧ bits 9 15 0 = 9 ∧ (⟨0, 9, [ent9], none⟩ : TeMap).serves s.units.mapGen = true ∧ Settled s ∧
    cfgTable s.folio.active 9 = some tab9 ∧ bit (s.reg 0x200000) 0 = true ∧ tCount tab9 = true ∧ tab9.f 56 4 ≠ 0 ∧
    s.readMap tab9 = some (some [ent9]) ∧ [ent9].filter (fun e => e.die == 0) = [ent9] ∧ tLocalRows tab9 0 = 4 ∧ ent9.count = 0x210000 ∧
    (∀ l < 8, s.phys (0x210000 + l) = some (0x210000 + l)) := by unfold Settled; decide +kernel
theorem test_aging_plain : ∀ l < 4, agingS.PlainBytes (0x210000 + 2 * l) 2 := by
  have k : (List.range 4).all (fun l => plainAt agingS (0x210000 + 2 * l) 2) = true := by decide +kernel
  exact fun l h => plain_at (List.all_eq_true.mp k l (List.mem_range.mpr h))

/-- An update pass entry of table `t` under optimizer `opt`, its state map behind handle 4. -/
def updE (t opt ctrl : Nat) : List Nat := ln 2 t ++ [opt, 1, ctrl] ++ zs 3 ++ ln 4 1 ++ ln 4 64 ++ ln 8 0x401000 ++ ln 8 0x401100 ++ zs 8 ++ ln 8 0x401200 ++ ln 4 0x400 ++ zs 12
def updReqS : State :=
  let s := put (put (unitS (unitCmd 3)) 0x203000 (stateMap 0)) 0x400000 (ln 2 1 ++ zs 6 ++ ln 8 77 ++ zs 48 ++ updE 9 0 0)
  put (put s 0x401000 (ln 4 2)) 0x401100 ([0, 0, 128, 63])

def updA : State := readied updReqS [] (fun s => s.doUpdate 1 none hv)
def updR : Nat := (updA.cmd (cidOf 1 0)).reqAddr
def updH : List Nat := ln 2 1 ++ zs 6 ++ ln 8 77 ++ zs 48
def updB : State := (tailOf updA (cidOf 1 0) ⟨0, 0⟩ updR (64 * 1)).1
theorem test_update_request : updA.RequestRead (cidOf 1 0) ⟨0, 0⟩ hv updR 64 1 updH (updE 9 0 0) updB ∧ readies updReqS [] (fun s => s.doUpdate 1 none hv) = true ∧
    updA.startable 1 3 = some (cidOf 1 0) ∧ updA.noEngines = false ∧ aligned updR 64 = true ∧ updA.readerTe (cidOf 1 0) = some ⟨0, 0⟩ ∧ fieldOf updH 2 1 < 8 ∧
    zeroBytes updH 3 8 = true ∧ zeroBytes updH 16 64 = true ∧ reqEntries 64 1 (updE 9 0 0) = [updE 9 0 0] ∧
    updB.updEntryOk ((updA.cmd (cidOf 1 0)).part.getD 0) (updE 9 0 0) = true ∧ updB.stray ((updA.cmd (cidOf 1 0)).part.getD 0) (fieldOf (updE 9 0 0) 48 4) = false ∧
    updB.readStateMap ((updA.cmd (cidOf 1 0)).part.getD 0) (fieldOf (updE 9 0 0) 48 4) = some (stateMap 0) ∧ fieldOf (stateMap 0) 0 1 = ueOpt (updE 9 0 0) := by
  have h : ((head64 updA (cidOf 1 0) ⟨0, 0⟩ updR).2 = .ok updH ∧ fieldOf updH 0 2 = 1 ∧ (tailOf updA (cidOf 1 0) ⟨0, 0⟩ updR (64 * 1)).2 = .ok (updE 9 0 0)) ∧
      readies updReqS [] (fun s => s.doUpdate 1 none hv) = true ∧
      updA.startable 1 3 = some (cidOf 1 0) ∧ updA.noEngines = false ∧ aligned updR 64 = true ∧ updA.readerTe (cidOf 1 0) = some ⟨0, 0⟩ ∧ fieldOf updH 2 1 < 8 ∧
      zeroBytes updH 3 8 = true ∧ zeroBytes updH 16 64 = true ∧ reqEntries 64 1 (updE 9 0 0) = [updE 9 0 0] ∧
      updB.updEntryOk ((updA.cmd (cidOf 1 0)).part.getD 0) (updE 9 0 0) = true ∧ updB.stray ((updA.cmd (cidOf 1 0)).part.getD 0) (fieldOf (updE 9 0 0) 48 4) = false ∧
      updB.readStateMap ((updA.cmd (cidOf 1 0)).part.getD 0) (fieldOf (updE 9 0 0) 48 4) = some (stateMap 0) ∧ fieldOf (stateMap 0) 0 1 = ueOpt (updE 9 0 0) := by
    decide +kernel
  exact ⟨request_read h.1, h.2⟩

def urow : UpdRow := { eng := 0, die := 0, row := 2, idx := 2, n := 1, g := 0x3F800000 :: List.replicate 15 0 }
def hyper7 : List Nat := [0x3DCCCCCD, 0, 0x3F666666, 0x3F7FBE77, 0x322BCC77, 0x3F800000, 0x3F800000]
def updP (opt : Nat) : UpdPass := { entry := updE 9 opt 0, st := .running, smap := stateMap opt, rows := [urow], hyper := hyper7 }
/-- Update 0 of queue 1 with one running pass of optimizer `opt`. -/
def updS (opt : Nat) : State :=
  let s := put (put (put (unitRun 3) 0x203000 (stateMap opt)) 0x220040 ([0, 0x3C, 0, 0x40] ++ zs 28)) 0x290008 [0, 0, 0x80, 0x3F]
  { s with units := { s.units with upd := [(cidOf 1 0, { passes := [updP opt] })] } }

theorem test_update_rows : ∀ opt ∈ [1],
    let s := readied (updS opt) [] (fun s => s.updRow (cidOf 1 0) 0 0 opt)
    let p := updP opt
    let cid := cidOf 1 0
    let en := smEntry p.smap 0
    let mp := planePitch opt (smM p.smap) 16
    let vp := planePitch opt (smV p.smap) 16
    let m := (s.tableMap 0 tab9 p.gen).1
    let row := (m.catchUp tab9 [ent9] 0 2).physRead cid ⟨1, 0⟩ (((m.catchUp tab9 [ent9] 0 2).phys 0x220040).getD 0) (rowBytes 0 16)
    let d := [0, 0x3C, 0, 0x40] ++ zs 28
    let rm := row.1.planeRead cid ⟨1, 0⟩ (smM p.smap) 0 (fieldOf en 8 8) (fieldOf en 16 8) mp 16 2 false
    let rv := rm.1.planeRead cid ⟨1, 0⟩ (smV p.smap) 0 (fieldOf en 24 8) (fieldOf en 32 8) vp 16 2 (opt == 1)
    let mo := planeVals (smM p.smap) 0 (if opt = 2 then 16 else 0) rm.2.1 rm.2.2.1
    let vo := planeVals (smV p.smap) 0 (if opt = 2 then 16 else opt) rv.2.1 rv.2.2.1
    let o := optimize opt p.hyper urow.g (widenRow 2 0 16 d).1 mo vo
    let rowW := (rv.1.raiseCmd cid ((widenRow 2 0 16 d).2 ||| o.2.2.2)).putRow cid tab9 ent9 2 o.1 true
    let mw := rowW.1.planeWrite cid ⟨1, 0⟩ (smM p.smap) 0 (fieldOf en 8 8) (fieldOf en 16 8) mp 16 2 (fieldOf p.smap 16 8) none mo o.2.1 rm.2.2.1
    let vw := mw.1.planeWrite cid ⟨1, 0⟩ (smV p.smap) 0 (fieldOf en 24 8) (fieldOf en 32 8) vp 16 2 (fieldOf p.smap 24 8) none vo o.2.2.1 rv.2.2.1
    readies (updS opt) [] (fun s => s.updRow cid 0 0 opt) = true ∧ urow.done = false ∧ tVersioned tab9 = false ∧
    (s.updOf cid).passes[0]? = some p ∧ p.rows[0]? = some urow ∧ cfgTable s.folio.active (peTable p.entry) = some tab9 ∧ p.st = .running ∧
    ueOpt p.entry = opt ∧ bit (ueCtrl p.entry) 2 = false ∧ smGroup p.smap = 0 ∧ s.halted 0 = false ∧ (s.tableMap 0 tab9 p.gen).2 = some (some [ent9]) ∧
    entOf [ent9] 0 (m.shadowCopy tab9) = some ent9 ∧
    m.rowPlace tab9 ent9 2 = some (0, 0x220040, 1) ∧ row.2 = .ok d ∧ rm.2.2.2 = .ok [] ∧ rv.2.2.2 = .ok [] ∧ rowW.2 = true ∧
    (tPlace tab9 = 0 ∧ (tDies tab9).filter (· != 0) = []) ∧ mw.2 = true ∧ vw.2 = true := by decide +kernel

/-- A pass at its step advance, with one scaling record; a pass at its flip. -/
def updT (st : UpdSt) (ctrl : Nat) : State :=
  let p : UpdPass := { entry := updE 11 0 ctrl, st := st, smap := zs 8 ++ ln 8 0x210000 ++ zs 48 }
  let s := put (unitRun 3) 0x210000 ([9, 8, 7] ++ zs 13 ++ [2] ++ zs 7 ++ [77])
  { s with units := { s.units with upd := [(cidOf 1 0, { passes := [p] })], tabs := [(11, { epoch := 1, dirty := [(0, 2), (1, 3)], ovf := [1] })] } }
theorem test_step_advance_premises :
    (let s := updT .advance 10
     (s.updOf (cidOf 1 0)).passes.findIdx? (fun p => p.st == .advance) = some 0 ∧ s.storesBefore (cidOf 1 0) = false ∧
     (∀ p ∈ (s.updOf (cidOf 1 0)).passes[0]?, smRecs p.smap = [0x210000, 0, 0] ∧ bit (ueCtrl p.entry) 3 = true) ∧
     Settled s ∧ plainAt s 0x210000 32 = true) ∧
    (let s := updT .flip 8
     ((s.updOf (cidOf 1 0)).passes[0]?).map (·.st) = some .flip ∧ (s.tab 11).catching = false) := by unfold Settled; decide +kernel

def tab11 : Rec := recTable 11 0 1 0x300
def ent11 (copy : Nat) : ShardEnt := { die := 0, copy := copy, dir := 0, count := 0, pools := [⟨0x260000 + 0x10000 * copy, 4, 0⟩] }
/-- Table 11 in epoch 1 with its last flip not caught up. -/
def catchS (copy : List (Nat × Nat)) : State :=
  let s := put (unitRun 3) 0x270040 [5, 6]
  { s with units := { s.units with tabs := [(11, { epoch := 1, catching := true, copying := true, copy := copy })] } }
theorem test_catch_up_premises : ∀ copy ∈ [[], [(0, 2)]], let s := readied (catchS copy) [] (fun s => s.doEpochCatchupComplete 11)
    readies (catchS copy) [] (fun s => s.doEpochCatchupComplete 11) = true ∧ (s.tab 11).catching = true ∧ (s.tab 11).copying = true ∧ s.oldPasses 11 = false ∧ cfgTable s.folio.active 11 = some tab11 ∧
    s.readMap tab11 = some (some [ent11 0, ent11 1]) ∧ (s.tab 11).copyAll = [] ∧ (s.tab 11).copy = copy ∧
    entOf [ent11 0, ent11 1] 0 ((s.tab (tId tab11)).epoch % 2) = some (ent11 1) ∧ entOf [ent11 0, ent11 1] 0 (s.shadowCopy tab11) = some (ent11 0) ∧
    s.rowPlace tab11 (ent11 1) 2 = some (0, 0x270040, 1) ∧ s.rowPlace tab11 (ent11 0) 2 = some (0, 0x260040, 1) := by decide +kernel


/-- Row 1 of table 10, in slot 2 of its FP8 pool, counted 12 times and offered. -/
def migS : State :=
  let s := put (put (put (unitRun 2) 0x230008 (ln 8 (dirWord 1 1 2))) 0x250040 ([1, 2, 3] ++ zs 13 ++ [128])) 0x231002 [12]
  let s := s.setReg (migBase 0) 5
  { s with units := { s.units with offers := [(0, 10, 1)] } }
theorem test_migration_take : let s := readied migS [] (fun s => s.doMigrationTake 0 10 1 3)
    let v := s.numDP (ent10.dir + 8 * 1) 8
    let old := rowAt tab10 ent10 (dirPool v) (dirSlot v)
    readies migS [] (fun s => s.doMigrationTake 0 10 1 3) = true ∧ (0, 10, 1) ∈ s.units.offers ∧ s.nibShard 10 0 = some (tab10, ent10) ∧ bit (s.reg (migBase 0)) 0 = true ∧ s.migsOn 0 < bits (s.reg (migBase 0)) 5 1 ∧
    dirBad ent10 v = false ∧ dirState v = 1 ∧ classFor tab10 (s.numDP (ent10.count + 2 * 1) 2) = 0 ∧ old = (1, 0x250040) ∧
    (∀ x ∈ sectorsOf ((s.phys old.2).getD 0) (rowBytes old.1 16), (s.sector (64 * x)).poison = false ∧ s.pageRetired (64 * x) = false) ∧
    ((upto ent10.pools.length).filter (fun k => (nth ent10.pools k ⟨0, 0, 0⟩).cls == 0)).find?
      (fun k => (upto (nth ent10.pools k ⟨0, 0, 0⟩).slots).any (fun z => s.slotUnused tab10 ent10 k z)) = some 0 ∧
    s.slotUnused tab10 ent10 0 3 = true := by decide +kernel

def mig1 (flipped : Bool) (since : Nat) : Mig := { die := 0, table := 10, row := 1, oldPool := 1, oldSlot := 2, newPool := 0, newSlot := 3, flipped := flipped,
                                                   since := since, delta := if flipped then [] else List.replicate 16 0x3F800000, readers := [(cidOf 3 0, 0)] }
def migT (m : Mig) : State := let s := migS
  { s with units := { s.units with migs := [m] }, pace := { s.pace with time := 20000 } }
theorem test_migration_steps : ∀ m ∈ [mig1 false 1, { mig1 false 1 with delta := [] }, mig1 false 0, mig1 true 0], let s := migT m
    s.mig 0 10 1 = some m ∧ s.nibShard 10 0 = some (tab10, ent10) ∧ (m.flipped = false ∨ m.readers.all s.readerDone = true) ∧
    Settled s ∧ plainAt s 0x230008 8 = true ∧
    (m.flipped = false → m.delta ≠ [] → readies s [] (fun s => s.doMigrationFlip 0 10 1) = true ∧
      (readied s [] (fun s => s.doMigrationFlip 0 10 1)).mig 0 10 1 = some m ∧
      (readied s [] (fun s => s.doMigrationFlip 0 10 1)).nibShard 10 0 = some (tab10, ent10)) := by
  unfold Settled; decide +kernel


/-- A reduction entry of one element: operation, type, scale group; destination 0x210002 aligned to its type, operands at 0x401000. -/
def redE (op typ gs : Nat) : List Nat := [op, typ, 0, gs] ++ ln 4 1 ++ ln 8 0x210008 ++ ln 8 0x401000 ++ zs 8 ++ ln 8 (if op = 3 then 0x401010 else 0)
  ++ ln 8 (if op = 3 then 0x402000 else 0) ++ ln 8 0x401020 ++ ln 8 0x401030
def redReqS : State := put (put (unitS (unitCmd 5)) 0x400000 (ln 2 1 ++ ln 2 7 ++ [3] ++ zs 3 ++ ln 4 9 ++ zs 52 ++ (redE 0 1 0))) 0x401000 [0x80, 0x3F]
def redA : State := readied redReqS [] (fun s => s.doReduce 1 hv)
def redR : Nat := (redA.cmd (cidOf 1 0)).reqAddr
def redH : List Nat := ln 2 1 ++ ln 2 7 ++ [3] ++ zs 3 ++ ln 4 9 ++ zs 52
def redB : State := (tailOf redA (cidOf 1 0) ⟨3, redA.cmdDie (cidOf 1 0)⟩ redR (64 * 1)).1
def redL : State × List RedEnt × UOut := redB.redLoads (cidOf 1 0) ⟨3, redA.cmdDie (cidOf 1 0)⟩ hv (reqEntries 64 1 (redE 0 1 0))
theorem test_reduce_request : redA.RequestRead (cidOf 1 0) ⟨3, redA.cmdDie (cidOf 1 0)⟩ hv redR 64 1 redH (redE 0 1 0) redB ∧
    redL = (redL.1, [⟨redE 0 1 0, [0x210008], [0x3F80], [], [], []⟩], .ok []) ∧ readies redReqS [] (fun s => s.doReduce 1 hv) = true ∧
    redA.startable 1 5 = some (cidOf 1 0) ∧ aligned redR 64 = true ∧ fieldOf redH 4 1 < 4 ∧
    zeroBytes redH 5 8 = true ∧ zeroBytes redH 12 64 = true ∧ (reqEntries 64 1 (redE 0 1 0)).all (redEntryOk (bit (fieldOf redH 4 1) 0)) = true ∧
    redL.1.redDstOk ((redA.cmd (cidOf 1 0)).part.getD 0) 1 0x210008 = true := by
  have h : ((head64 redA (cidOf 1 0) ⟨3, redA.cmdDie (cidOf 1 0)⟩ redR).2 = .ok redH ∧ fieldOf redH 0 2 = 1 ∧
      (tailOf redA (cidOf 1 0) ⟨3, redA.cmdDie (cidOf 1 0)⟩ redR (64 * 1)).2 = .ok (redE 0 1 0)) ∧
      (redL.2.1 = [⟨redE 0 1 0, [0x210008], [0x3F80], [], [], []⟩] ∧ redL.2.2 = .ok []) ∧ readies redReqS [] (fun s => s.doReduce 1 hv) = true ∧
      redA.startable 1 5 = some (cidOf 1 0) ∧ aligned redR 64 = true ∧ fieldOf redH 4 1 < 4 ∧
      zeroBytes redH 5 8 = true ∧ zeroBytes redH 12 64 = true ∧ (reqEntries 64 1 (redE 0 1 0)).all (redEntryOk (bit (fieldOf redH 4 1) 0)) = true ∧
      redL.1.redDstOk ((redA.cmd (cidOf 1 0)).part.getD 0) 1 0x210008 = true := by decide +kernel
  exact ⟨request_read h.1, tripleEq h.2.1, h.2.2⟩

def redEnt (op typ gs : Nat) : RedEnt := ⟨redE op typ gs, [0x210008], [5], [6], [128], []⟩
/-- Reduction 0 of queue 1 with one entry; at its close with `held`. -/
def redS (ordered close : Bool) (e : RedEnt) (held : List HeldRed) : State :=
  let s := put (put (unitRun 5) 0x210008 [6, 0, 0, 0]) 0x401020 [126]
  { s with units := { s.units with red := [(cidOf 1 0, { ents := [e], rank := 3, ordered := ordered, close := close, epoch := 9 })], held := held } }

/-- An element held in an ordered epoch, applied without scales, and with the scale of its destination. -/
theorem test_reduce_element : ∀ x ∈ [(true, 0, 0, 0), (false, 3, 5, 0), (false, 1, 3, 1)],
    let e := redEnt x.2.1 x.2.2.1 x.2.2.2
    let s := readied (redS x.1 true e []) [] (fun s => s.redStep (cidOf 1 0) 0 0 x.2.1 hv)
    let r := Tbl.get {} s.units.red (cidOf 1 0)
    let n := redBytes x.2.2.1
    let y := s.unitRead (cidOf 1 0) ⟨3, 0⟩ hv 0x401020 1
    let v := if x.2.2.2 = 0 then s else y.1
    let w := v.unitSectors (cidOf 1 0) ⟨3, 0⟩ 0x210008 n
    readies (redS x.1 true e []) [] (fun s => s.redStep (cidOf 1 0) 0 0 x.2.1 hv) = true ∧
    r.ents[0]? = some e ∧ reOp e.entry = x.2.1 ∧ reTyp e.entry = x.2.2.1 ∧ 0 < e.dst.length ∧ e.done.contains 0 = false ∧ s.phys 0x210008 = some 0x210008 ∧
    s.dpCheck (s.queue (s.cmd (cidOf 1 0)).queue).ctx 0x210008 n true true = 0 ∧ r.ordered = x.1 ∧ s.heldOn (dieOfPhys 0x210008) < 262144 ∧
    (x.1 = false → (if x.2.2.2 = 0 then dscaleAddr e 0x210008 = none else dscaleAddr e 0x210008 = some 0x401020 ∧ y.2 = .ok [126]) ∧
      w.2 = .ok w.2.bytes ∧ 0x210008 % 64 + n ≤ 64 ∧ tierOf 0x210008 ≠ 3 ∧ w.1.pageRetired 0x210008 = false ∧ (w.1.sector 0x210008).poison = false ∧
      (x.2.1 = 3 → fieldOf e.entry 40 8 ≠ 0 ∧ (w.1.unitWrite (cidOf 1 0) ⟨3, 0⟩ hv (fieldOf e.entry 40 8) (natBytes n (fieldOf w.2.bytes 0 n))).2 = .ok [])) := by
  decide +kernel

def heldR (part rank src : Nat) : HeldRed := ⟨part, 9, rank, 0, 0, 0, 0x210008, 0, 0, src, 127, 0⟩
def closeS : State := redS true true { redEnt 0 0 0 with done := [0] } [heldR 0 2 0x3F800000, heldR 1 0 0, heldR 0 1 0x40000000]
theorem test_epoch_close : let s := readied closeS [] (fun s => s.doEpochClose 1 0)
    let r := Tbl.get {} s.units.red (cidOf 1 0)
    let mine (h : HeldRed) : Bool := h.part == (s.cmd (cidOf 1 0)).part.getD 0 && h.epoch == r.epoch
    let v := s.redReleases (cidOf 1 0) (sortBy HeldRed.le (s.units.held.filter mine))
    readies closeS [] (fun s => s.doEpochClose 1 0) = true ∧
    r.close = true ∧ r.ents ≠ [] ∧ r.ents.all (fun e => e.done.length == e.dst.length) = true ∧ v.2 = .ok v.2.bytes ∧ Live v.1 (cidOf 1 0) ∧
    (v.1.cmd (cidOf 1 0)).cause = none := by unfold Live; decide +kernel


/-- `s` with Saffron's regions reserved and a quota of 4 for partition 0. -/
def saffron (s : State) : State :=
  let f (r : Rec) : Rec := if r.typ = 1 then ⟨1, ln 4 0 ++ ln 2 6400 ++ zs 2 ++ ln 4 1048576 ++ zs 4⟩
    else if r.typ = 2 then ⟨2, r.data.take 20 ++ ln 4 4 ++ r.data.drop 24⟩ else r
  { s with folio := { s.folio with active := s.folio.active.map f } }
def sesKey : Nat := 27
/-- An operation entry on key 27: `len` entries or bytes of a field, source or sink at 0x401000. -/
def sesE (op field flags len : Nat) : List Nat := ln 8 sesKey ++ [op, field, flags, if op = 5 ∧ field = 1 then 2 else 0] ++ ln 2 len ++ zs 2
  ++ ln 8 (if op < 4 then 0 else 0x401000) ++ zs 8
def sesReqS : State := saffron (put (unitS (unitCmd 4)) 0x400000 (ln 2 1 ++ zs 6 ++ ln 8 0x402000 ++ zs 48 ++ sesE 0 0 0 0))
def sesA : State := readied sesReqS [] (fun s => s.doSession 1 hv)
def sesR : Nat := (sesA.cmd (cidOf 1 0)).reqAddr
def sesH : List Nat := ln 2 1 ++ zs 6 ++ ln 8 0x402000 ++ zs 48
theorem test_session_request :
    sesA.RequestRead (cidOf 1 0) ⟨2, 0⟩ hv sesR 32 1 sesH (sesE 0 0 0 0) (tailOf sesA (cidOf 1 0) ⟨2, 0⟩ sesR (32 * 1)).1 ∧
    readies sesReqS [] (fun s => s.doSession 1 hv) = true ∧ sesA.startable 1 4 = some (cidOf 1 0) ∧ sesA.saffronOn = true ∧ aligned sesR 64 = true ∧
    zeroBytes sesH 2 8 = true ∧ zeroBytes sesH 16 64 = true ∧ (reqEntries 32 1 (sesE 0 0 0 0)).all seOk = true := by
  have h : ((head64 sesA (cidOf 1 0) ⟨2, 0⟩ sesR).2 = .ok sesH ∧ fieldOf sesH 0 2 = 1 ∧ (tailOf sesA (cidOf 1 0) ⟨2, 0⟩ sesR (32 * 1)).2 = .ok (sesE 0 0 0 0)) ∧
      readies sesReqS [] (fun s => s.doSession 1 hv) = true ∧ sesA.startable 1 4 = some (cidOf 1 0) ∧ sesA.saffronOn = true ∧ aligned sesR 64 = true ∧
      zeroBytes sesH 2 8 = true ∧ zeroBytes sesH 16 64 = true ∧ (reqEntries 32 1 (sesE 0 0 0 0)).all seOk = true := by decide +kernel
  exact ⟨request_read h.1, h.2⟩

/-- Slot of the key: LIVE, of partition 0, GEN 9, one ring entry. -/
def sesSlot : Nat := 16 * (keyPlace sesKey).2 + 3
def sesS (e : List Nat) (live : Bool) (n : Nat) : State :=
  let s := saffron (put (unitRun 4) 0x401000 [7])
  let s := if live then (put s (slotAddr 0 sesSlot) (ln 8 sesKey ++ [0, 1, 0, 1, 1] ++ zs 19 ++ ln 8 (2 ^ 40) ++ ln 4 100 ++ ln 4 9)).setReg (sesDie 0) 1 |>.setReg (sesPart 0) 1 else s
  { s with units := { s.units with ses := [(cidOf 1 0, { ents := List.replicate n e, done := List.replicate n false, result := 0x402000 })] } }

/-- Each operation on a slot that is there, and FIND that creates one. -/
theorem test_session_ops : ∀ x ∈ [(6, 3, 1, true), (5, 1, 16, false)],
    let e := sesE x.1 x.2.1 1 x.2.2.1
    let s := readied (sesS e x.2.2.2 2) [] (fun s => s.sesStep (cidOf 1 0) 0 x.1 hv)
    let cid := cidOf 1 0
    let r := Tbl.get {} s.units.ses cid
    let p := (s.cmd cid).part.getD 0
    let z := keyPlace (seKey e)
    let l := s.slotLook cid (seKey e) (128 + alignUp (seSource e) 64) (s.sesParts e)
    let reads := seSource e != 0 && (l.2.1.isSome || (bit (seFlags e) 0 && (match l.1.insertWay p z.1 z.2 with | .ok _ => true | .error _ => false)))
    let v := if reads then (l.1.unitRead cid ⟨2, z.1⟩ hv (seAddr e) (seSource e)) else (l.1, .ok [])
    let o := v.1.sesApply p e l.2.1 v.2.bytes
    let w := if o.2.2.2 = [] then (o.1.bump (sesDie z.1 + 8) 64 1, UOut.ok []) else (o.1.bump (sesDie z.1 + 8) 64 1).unitWrite cid ⟨2, z.1⟩ hv (seAddr e) o.2.2.2
    let y := w.1.unitWrite cid ⟨2, z.1⟩ hv (r.result + 8 * 0) (natBytes 8 (w.1.sesResult o.2.1 o.2.2.1))
    readies (sesS e x.2.2.2 2) [] (fun s => s.sesStep (cidOf 1 0) 0 x.1 hv) = true ∧
    r.ents[0]? = some e ∧ seOp e = x.1 ∧ nth r.done 0 true = false ∧ s.halted z.1 = false ∧ s.resolving p z.1 = false ∧
    l.2.1 = (if x.2.2.2 then some (0, sesSlot) else none) ∧ l.2.2 = true ∧
    reads = !x.2.2.2 ∧ v.2 = .ok v.2.bytes ∧ w.2 = .ok [] ∧ y.2 = .ok [] := by decide +kernel

theorem test_session_codes :
    (∀ o ∈ [0, 1, 2, 3], ∃ e, e = sesE o 0 (if o = 1 then 2 else 0) 0 ∧ seOp e = o ∧ (o = 1 → bit (seFlags e) 1 = true) ∧ bit (seFlags e) 0 = false) ∧
    (seOp (sesE 4 3 1 1) = 4 ∧ bit (seFlags (sesE 4 3 1 1)) 0 = true) := by
  refine ⟨fun o h => ⟨_, rfl, ?_⟩, by decide⟩
  revert o; decide

/-- A placed launch with one used entry of its session list, and one without. -/
def resS (e : Nat) : State := sesS [] true 0 |>.updCmd (cidOf 1 0) (fun c => { c with opcode := 1, st := .placed, entry := zs 16 ++ ln 2 e ++ zs 38, cb := [sesKey] })
theorem test_session_list : ∀ x ∈ [0, 0x8200], let s := readied (resS x) [] (fun s => s.doSessionResolve 1 0)
    let c := s.cmd (cidOf 1 0)
    let es := (sessionList c.entry).filter (· != 0)
    readies (resS x) [] (fun s => s.doSessionResolve 1 0) = true ∧ c.opcode = 1 ∧ c.st = .placed ∧ c.sess = false ∧ c.cause = none ∧ (∀ e ∈ es, s.halted (keyPlace (nth c.cb (bits e 4 0) 0)).1 = false) ∧
    (s.resolveList (cidOf 1 0) c.cb es).2 = none := by decide +kernel

/-- The key's slot after its time. -/
def sweepS : State := let s := sesS [] true 0
  { s.setReg 0x300000 1 with pace := { s.pace with time := 2 ^ 40 } }
theorem test_session_sweep : let s := sweepS
    bit (s.reg 0x300000) 0 = true ∧ s.saffronOn = true ∧ sesSlot < 131072 ∧ s.slotState 0 sesSlot = 1 ∧ s.slotExpired 0 sesSlot = true ∧
    Settled s := by unfold Settled; decide +kernel


/-! ## Memory tiers and integrity -/

/-- A REPLICA record: segment 1 holds the copy of segment 0 (R286). -/
def recReplica : Rec := ⟨8, zs 2 ++ ln 2 0 ++ ln 2 1 ++ zs 10 ++ ln 8 0x200000 ++ zs 8⟩
/-- Sector 0x210000, poisoned and being recovered. -/
def recovS (retired : Bool) : State :=
  let s := put run6 0x410000 [5]
  { s with folio := { s.folio with active := cfg ++ [recReplica] }
           memc := { s.memc with sectors := [(0x210000 / 64, { poison := true, recover := true })], pages := if retired then [0x210] else [] } }

theorem test_tier_premises :
    (∀ p ∈ run6.parts, ∀ slot ∈ run6.bucketsOf p, (run6.bucket p slot).waits = [] ∧ run6.rateBurst p slot = some (100000, 200000)) ∧ run6.parts = [0] ∧
    run6.bucketsOf 0 = [0] ∧
    (∀ w ∈ [false, true], let s := reqS 12 (req0 w (some 0))
      (s.chan 0 12).reqs = [req0 w (some 0)] ∧ s.tileCmd 0 = some (cidOf 1 0) ∧ Live s (cidOf 1 0)) ∧
    (∀ x ∈ [(false, 1 + 4 * 2048), (false, 1 + 4 * 2049), (true, 2 ^ 63)], Instr.wf (.t3WindowWrite 0 0 x.1 x.2) = true) ∧ run6.regsOpen = true ∧
    (cfgPackage run6.folio.active).f 6 1 ≤ 0 ∧ bits (1 + 4 * 2048) 13 2 = 2048 ∧ bits (1 + 4 * 2049) 13 2 = 2049 ∧ bits 1 13 2 = 0 ∧
    (let s := schedS id id
     (s.cmd (cidOf 1 0)).opcode = 1 ∧ (s.cmd (cidOf 1 0)).st = .running ∧ (s.cmd (cidOf 1 0)).winDone = 0 ∧
     (cfgModel s.folio.active ((s.cmd (cidOf 1 0)).part.getD 0) (s.cmd (cidOf 1 0)).model).map (·.f 5 1) = some 0) := by
  unfold Live; decide +kernel

/-- A host write of launch 0 not answered: one that carries its line, and one of a bias flip. -/
def lateS : State :=
  let s := schedS id id
  { s with host := { s.host with goWait := [{ die := 0, port := 0, addr := 0x1000, cids := [cidOf 1 0] }]
                                 biWait := [{ snoops := [], go := some (0, 0), addr := 0x210000, data := [1], cid := some (cidOf 1 0) }] } }
theorem test_late_write_premises : let s := lateS
    s.host.goWait.find? (fun w => w.die == 0 && w.port == 0 && w.addr == 0x1000 && w.out.isNone) = some { die := 0, port := 0, addr := 0x1000, cids := [cidOf 1 0] } ∧
    (s.host.biWait.find? (fun w => w.addr == 0x210000 && w.go.isSome)).map (fun w => (w.src, w.cid)) = some (none, some (cidOf 1 0)) ∧ Live s (cidOf 1 0) := by
  unfold Live; decide +kernel

/-- The window of launch 0 on cluster 0 has filled layers 0 and 1; its fill of a later layer is pinned. -/
def windowS : State :=
  let s := schedS (fun c => { c with img := (0x200000, 0x1000), lays := [(0x100, 0x40), (0x140, 0x40), (0x180, 0x40)] }) id
  { s with sched := { s.sched with wins := [{ cid := cidOf 1 0, cl := 0, layer := 2 }] } }.updCache 0 (fun c => { c with
    fills := [{ line := 0x200180, alloc := true, admitted := false, wait := [], pin := some (cidOf 1 0) }] })
theorem test_window_premises : let s := windowS
    let c := s.cmd (cidOf 1 0)
    let ws := s.sched.wins.filter (fun w => w.cid == cidOf 1 0)
    let l := nth c.lays 0 (0, 0)
    c.opcode = 1 ∧ c.st = .running ∧ ws ≠ [] ∧ c.winDone = 0 ∧ (∀ w ∈ ws, 0 < w.layer) ∧
    (∀ w ∈ ws, ∀ f ∈ (s.cache w.cl).fills, f.pin = some (cidOf 1 0) → f.line ∉ s.linesOf (c.img.1 + l.1, l.2)) := by decide +kernel

theorem test_no_waits : ∀ p slot, (run6.bucket p slot).waits = [] := fun _ _ => rfl

theorem test_recovery_premises : ∀ r ∈ [false, true], let s := recovS r
    s.memc.med = [] ∧ tierOf 0x210000 ≠ 3 ∧ (s.sector 0x210000).recover = true ∧ (s.healFrom 0x210000).map (·.1) = some 0x410000 ∧
    s.phys 0x410000 = some 0x410000 ∧ s.pageRetired 0x410000 = false ∧ (s.sector 0x410000).poison = false ∧ s.pageRetired 0x210000 = r := by decide +kernel

/-- Die 0 patrolled; its last sector. -/
def scrubS : State := run6.setReg (eccBase 0 + 0x38) 1
theorem test_scrub_premises : ∀ a ∈ [0x210000, scrubS.lastSector 0], bit (scrubS.reg (eccBase 0 + 0x38)) 0 = true ∧ scrubS.memc.med = [] ∧ dieOfPhys a = 0 ∧
    a % 64 = 0 ∧ tierOf a ≠ 3 ∧ (scrubS.phys a).isSome = true ∧ scrubS.pageRetired a = false ∧ (scrubS.sector a).poison = false ∧
    ¬ (tierOf a = 1 ∧ (scrubS.sector a).crc = true) ∧ scrubS.saffronByte a = false := by
  decide +kernel

/-- Sector `a` poisoned, in a bank with `used` spares used; sectors of T1 and, behind 64 GiB on channel 0, of T2. -/
def spareS (used a bank : Nat) : State :=
  { run6.setReg 0x104000 (5 + 32 * 2 ^ 22) with memc := { run6.memc with failing := [a], spares := if used = 0 then [] else [(bank % 65536, used)] } }
theorem inRow_one (s : State) (a : Nat) (ddr : Bool) (h : (a % 64 == 0 && tierOf a == (if ddr then 2 else 1) && dieOfPhys a == 0 && (s.phys a).isSome) = true) :
    s.inRow 0 ddr (Config.rowOf a).1 (Config.rowOf a).2 [a] = true := by
  simp only [State.inRow, List.all_cons, List.all_nil, h, beq_self_eq_true, List.headD_cons, Bool.or_true, Bool.and_true]
theorem test_spare_premises (bank : Nat) (hb : bank = (Config.rowOf 0x210000).1) :
    (∀ u ∈ [0, 1, 2], let s := spareS u 0x210000 bank
      s.inRow 0 false bank (Config.rowOf 0x210000).2 [0x210000] = true ∧ s.failingSectors [0x210000] ≠ [] ∧ Tbl.get 0 s.memc.spares (0 * 65536 + bank % 65536) = u ∧
      s.saffronByte 0x210000 = false) ∧
    (let s := spareS 0 0x10000000040 0
     s.inRow 0 true (Config.rowOf 0x10000000040).1 (Config.rowOf 0x10000000040).2 [0x10000000040] = true ∧ s.failingSectors [0x10000000040] ≠ []) := by
  subst hb
  generalize hk : (Config.rowOf 0x210000).1 = bank
  refine ⟨fun u hu => ⟨?_, ?_, ?_, ?_⟩, inRow_one _ _ true (by decide +kernel), by decide +kernel⟩
  · rw [← hk]; simp only [List.mem_cons, List.not_mem_nil, or_false] at hu
    rcases hu with rfl | rfl | rfl <;> exact inRow_one _ _ false rfl
  · have k : (spareS u 0x210000 bank).failingSectors [0x210000] = (spareS u 0x210000 0).failingSectors [0x210000] := rfl
    rw [k]; clear k hk; revert u; decide +kernel
  · simp only [List.mem_cons, List.not_mem_nil, or_false] at hu
    rcases hu with rfl | rfl | rfl <;> simp [spareS, Tbl.get]
  · exact (by rfl : (spareS u 0x210000 bank).saffronByte 0x210000 = run6.saffronByte 0x210000).trans (by decide +kernel)

theorem test_shaped : run6.Shaped := by unfold State.Shaped Settled; decide +kernel


/-! ## The host link -/

/-- Both ports up in mode `m`, dies 0 to 3 on port 0 and 4 to 7 on port 1, die 0 on port 1 where `moved`, with `lines` in its host-line cache. -/
def portsS (m : Nat) (moved : Bool) (lines : List HLine) : State :=
  let s := portOn 0 m (portOn 1 m run6)
  { s with host := { s.host with via := (if moved then some 1 else some 0) :: (List.replicate 3 (some 0) ++ List.replicate 4 (some 1)), lines := lines :: List.replicate 7 [] } }
theorem test_ports_premises :
    Instr.wf (.hostLinkUp 1 3 6 16) = true ∧ run6.portUp 1 = false ∧ nth run6.pins.perst 1 false = true ∧ run6.pace.refRun = true ∧
    (portsS 3 false []).portUp 0 = true ∧
    (∀ l ∈ [[], [(⟨0x1000, [(3, 7)], []⟩ : HLine)]], let s := portsS 3 true l
      s.diePort 0 = some 1 ∧ s.portUp 0 = true ∧ s.reqsOn [0] (fun _ _ r => (r.st == .sent || r.st == .go) && r.port == some 1) = [] ∧
      s.reqsOn (upto 8) (fun _ _ r => r.st == .sent && r.port.isNone && s.inHostBias r.tgt && dieOfPhys r.tgt == 0) = [] ∧
      s.host.biWait.any (fun w => w.go == some (0, 1)) = false ∧ s.host.goWait.any (fun w => w.die == 0 && w.port == 1) = false ∧ ((s.hlc 0).filter (fun l => !l.dirty.isEmpty) = l)) := by
  decide +kernel

/-- Port 0 in mode `m` with decoder 0 at 1 TiB, BAR4 window 0 at 0, and what waits for the host. -/
def hostS (m : Nat) (bi : List BiWait) (go : List GoWait) : State :=
  let s := put (portsS m false []) 0x210000 [1, 2, 3]
  { s.setReg 0x322000 1 with host := { s.host with hdm := [[some 0x10000000000, none], [none, none]], biWait := bi, goWait := go } }
theorem test_hdm_bias_premises :
    (∀ b ∈ [0x40000000, 0x40000001], let s := hostS 2 [] []
      ((nth s.host.hdm 0 []).any (·.isSome) = true → s.portMode 0 = s.portMode 1) ∧ 2 ≤ s.portMode 1 ∧ (b % 2 ^ 30 = 0 ∨ b % 2 ^ 30 = 1)) ∧
    (let s := (hostS 2 [] []).setReg 0x322040 0x210000
     s.host.flip = none ∧ s.portMode 0 = 2 ∧ s.inMemory 16 (s.reg 0x322040 / 4096 * 4096) (4096 * 2) = true ∧
     s.inMemory 16 (s.reg 0x322040 / 4096 * 4096) (4096 * 2 ^ 60) = false ∧ s.regsOpen = true) ∧
    (let s := { hostS 2 [] [] with host := { (hostS 2 [] []).host with flip := some (0x210, 2), hostBias := [0x210, 0x300] } }
     s.host.flip = some (0x210, 2)) ∧
    (∀ f ∈ [none, some (0x210, 2)], let s := adminS none (ln 1 0x44 ++ zs 55)
      let w := { s with host := { s.host with flip := f } }
      w.admin 0x44 = some 0 ∧ w.adminOpen 0x44 = true ∧ w.host.flip = f) := by
  decide +kernel

theorem test_host_memory_premises :
    (∀ m ∈ [2, 3], let s := hostS m [] []
      s.portUp 0 = true ∧ 2 ≤ s.portMode 0 ∧ s.hdmAddr 0 0x10000210000 = some 0x210000 ∧ s.memTarget 0x210000 = some 0x210000 ∧ s.biHeld 0x210000 = false ∧
      s.pageRetired 0x210000 = false ∧ (s.sector 0x210000).poison = false ∧ (nth s.host.track (dieOfPhys 0x210000) []).length < 262144 ∧
      s.hdmAddr 0 0x18000000000 = some 0x8000000000 ∧ s.memTarget 0xF000000000 = none ∧ s.hdmAddr 0 0x1F000000000 = some 0xF000000000 ∧
      s.barAddr 0x210000 = some 0x210000 ∧ s.barAllowed 0x210000 3 = true ∧ s.phys 0x210000 = some 0x210000 ∧ s.hostFirst 0x210000 = false ∧
      tierOf 0x210000 ≠ 3 ∧ s.unzeroed (0x210000 / 64 * 64) 64 = false ∧ s.unzeroed 0x210000 3 = false ∧ (s.setMed []).outcome 0x210000 = .ok ∧ Settled s ∧
      s.barAddr 0x1000 = some 0x1000 ∧ s.barAllowed 0x1000 3 = false ∧ s.barAddr (2 ^ 34) = none) := by
  unfold Settled; decide +kernel

def bi1 (snoops : List (Nat × Nat)) (data : List Nat) (go : Option (Nat × Nat)) : BiWait := ⟨snoops, go, 0x210000, data, some 7, none⟩
/-- Writes that wait for other answers, or for their turn. -/
def biOthers : List BiWait := [bi1 [(1, 0)] [7] none, bi1 [] [] none]
def go1 (src : Option (Nat × Nat)) : GoWait := { die := 0, port := 0, addr := 0x210000, cids := [], src := src }
theorem test_birsp_premises : ∀ d ∈ [[], [9, 8]], ∀ w ∈ [bi1 [(0, 64)] d none, bi1 [(0, 64), (1, 64)] d none],
    let s := hostS 3 (w :: biOthers) []
    s.host.biWait = w :: biOthers ∧ (0, 64) ∈ w.snoops ∧ w.src = none ∧ w.data = d ∧ w.go = none ∧ (∀ v ∈ biOthers, v.snoops ≠ [] ∨ v.go ≠ none ∨ v.data = []) ∧
    tierOf w.addr ≠ 3 ∧ s.outcome (w.addr / 64 * 64) = .ok ∧ s.pageRetired w.addr = false ∧ (s.sector w.addr).poison = false := by decide +kernel
theorem test_go_premises :
    (let s := hostS 3 [] [go1 none]
     s.host.goWait.find? (fun w => w.die == 0 && w.port == 0 && w.addr == 0x210000 && w.out.isNone) = some (go1 none) ∧ (go1 none).bad = none) ∧
    (∀ d ∈ [[], [9, 8]], let w := bi1 [] d (some (0, 0))
      let s := hostS 3 (w :: biOthers) []
      s.host.goWait.any (fun w => w.die == 0 && w.port == 0 && w.addr == 0x210000 && w.out.isNone) = false ∧ s.host.biWait = w :: biOthers ∧ w.cid ≠ none ∧
      (∀ v ∈ biOthers, v.snoops ≠ [] ∨ v.go ≠ none ∨ (v.data = [] ∧ v.cid ≠ none)) ∧ s.outcome (w.addr / 64 * 64) = .ok) := by decide +kernel

/-- A host write of tile 0 that waits for its answer. -/
def goneS : State := let s := reqS 12 { req0 true (some 0) with st := .go }
  { s with host := { s.host with goWait := [{ go1 (some (0, 12)) with cids := [cidOf 1 0] }] } }
theorem test_go_request_premises : let w := { go1 (some (0, 12)) with cids := [cidOf 1 0] }
    let v : State := { goneS with host := { goneS.host with goWait := goneS.host.goWait.erase w } }
    goneS.host.goWait.find? (fun w => w.die == 0 && w.port == 0 && w.addr == 0x210000 && w.out.isNone) = some w ∧
    (v.headIn 0 12 .go w.cids.head?).isSome = true := by decide +kernel

theorem test_snoop_premises : let s := portsS 3 false [⟨0x1000, [(3, 7)], []⟩]
    Instr.wf (.hostSnoop 0 0x1033 (1, .ok)) = true ∧ s.portUp 0 = true ∧ 2 ≤ s.portMode 0 ∧ s.diePort 0 = some 0 ∧
    (∀ e < 8, e ≠ 0 → s.hlc e = []) ∧ s.hlc 0 = [⟨0x1000, [(3, 7)], []⟩] := by decide +kernel

theorem test_host_shapes : ∀ s ∈ [portsS 3 true [], portsS 3 true [⟨0x1000, [(3, 7)], []⟩], hostS 2 [] [], hostS 3 [] []], s.Shaped := by
  unfold State.Shaped Settled; decide +kernel


/-! ## Queues, records and translation -/

def c10 : Nat := cidOf 1 0
/-- Queue 1 as `x` with its command 0 as `c`, after one window. -/
def queS (x : Queue) (c : Cmd) : State :=
  let s := portsS 3 false []
  { s with sched := { s.sched with queues := [(1, { x with part := some 0 })], cmds := [(c10, { c with queue := 1, part := some 0 })] }, pace := { s.pace with windows := 1 } }
def fencing (r : Bool) (go : List GoWait) : State :=
  let s := queS { st := 1, log2 := 6 } { st := .fencing, opcode := 1, replay := r, cause := some (1, 2) }
  { s with host := { s.host with goWait := go } }
theorem test_fence_premises : ∀ x ∈ [(false, [], false), (true, [], false), (false, [{ go1 none with cids := [c10] }], true)],
    ((fencing x.1 x.2.1).cmd c10).st = .fencing ∧ (fencing x.1 x.2.1).fenceOpen c10 = x.2.2 ∧ ((fencing x.1 x.2.1).cmd c10).replay = x.1 := by decide +kernel

/-- Command 0 is over but for its record, the 64th of its ring of 64; a device queue; a queue of the host. -/
def fencedS (dev : Bool) : State :=
  queS { st := 1, log2 := 6, device := dev, cq := if dev then 0x230000 else 2 ^ 62 + 0x2000, k := 63, j := 64, pend := 64 } { st := .fenced, opcode := 6, flags := 2, firstEver := some 3 }
theorem test_record_premises :
    (∀ d ∈ [true, false], let s := fencedS d
      (s.cmd c10).queue = 1 ∧ (s.cmd c10).st = .fenced ∧ s.blotHeld c10 = false ∧ (s.cmd c10).fenceWin < s.pace.windows ∧ (s.queue 1).device = d ∧
      s.diePort (s.queueDie 1) = some 0 ∧ (s.queue 1).st = 1 ∧ bit (s.reg (qdbBase 1 + 0x48)) 0 = false) ∧
    (let s := fencedS true
     let a := (s.queue 1).cq + 32 * ((s.queue 1).k % (s.queue 1).size)
     a % 64 ≤ 32 ∧ s.phys a = some 0x2307E0 ∧ s.hostFirst 0x2307E0 = false ∧ s.pageRetired 0x2307E0 = false ∧ (s.sector 0x2307E0).poison = false) := by
  decide +kernel

/-- Vector 2,047 of port 0, masked or not, due and pending. -/
def msixS (m : Nat) : State := let s := (portsS 3 false []).setReg (0x33000C + 16 * 2047) m
  { s with host := { s.host with msixDue := [(0, 2047)], msixPend := [(0, 2047)] } }
theorem test_msix_premises : ∀ m ∈ [0, 1],
    (msixS m).host.msixDue.contains (0, 2047) = true ∧ (msixS m).portUp 0 = true ∧ (msixS m).msixMasked 0 2047 = (m == 1) ∧ (msixS m).regsOpen = true ∧
    (msixS m).host.msixPend.contains (0, 2047) = true ∧ (msixS m).host.msixPend.contains (0, 5) = false := by decide +kernel

/-- Tile 0 with one request for the host page of 0x3000 in state `st`; a translation request and a page request for it are outstanding. -/
def reqH (st : ReqSt) : Req := { st := st, write := false, addr := 2 ^ 62 + 0x3000, len := 64, scr := 0, piece := 0, pieceMem := 0, last := true, tok := 0, since := 0 }
def xreqH (stale : Bool) : XReq := ⟨0, 0, some 5, 3, false, stale, false, [(0x20000, 4096)]⟩
def preqH : PReq := ⟨0, 0, some 5, 3, false⟩
def xlatS (st : ReqSt) : State :=
  let s := queS { st := 1, log2 := 6, ctx := ctx1 } launch1
  let e : XEnt := ⟨0, some 5, false, 0x10, 65536, 0x20, true, true, false⟩
  { s with
    xlat := { s.xlat with reqs := [xreqH false], prs := [preqH], cache := [e, { e with pasid := some 6 }] :: List.replicate 7 [], invs := [⟨0, 9, some 5, 3, 4096, 0⟩], ats := [true, true] }
    tiles := [(0, ({ ({} : Tile) with task := some task1 }))] }.updChan 0 0 (fun c => { c with active := true, reqs := [reqH st] })
theorem test_translation_premises :
    (let s := xlatS .xlat
     s.xlat.reqs.find? (fun r => r.die == 0 && r.page == 3 && r.pasid == some 5 && !r.held) = some (xreqH false) ∧ (xreqH false).overtaken 3 ⟨false, 0x100, 4096, false, true, false, false⟩ = false ∧
     s.alive = true ∧ Instr.wf (.atsTranslationCompletion 0 3 (some 5) ⟨false, 0x100, 4096, false, true, false, false⟩) = true ∧
     (s.xlat.invs.filter (fun i => i.port == 0)).length < 32 ∧ s.xlat.invs.find? (fun i => i.port == 0) = some ⟨0, 9, some 5, 3, 4096, 0⟩ ∧
     s.sentUnder (s.diesOf 0) (s.underInv ⟨0, 9, some 5, 3, 4096, 0⟩) = false ∧ s.regsOpen = true ∧ s.xlat.flush = none) ∧
    (let s := { xlatS .xlat with xlat := { (xlatS .xlat).xlat with flush := some (some 5), invs := List.replicate 32 ⟨0, 9, some 5, 3, 4096, 0⟩ } }
     s.xlat.flush = some (some 5) ∧ s.sentUnder (List.range 8) (fun t _ => (some 5 : Option Nat).isNone || some 5 == some (s.tileCtx t).pasid) = false ∧
     32 ≤ (s.xlat.invs.filter (fun i => i.port == 0)).length ∧ s.xlat.flush ≠ none) := by decide +kernel

theorem test_page_premises : let s := xlatS .page
    s.xlat.prs.find? (fun q => q.port == 0 && q.page == 3 && q.pasid == some 5) = some preqH ∧
    s.reqsOn [preqH.die] (fun t _ r => r.st == .page && s.reqPage t r preqH.pasid preqH.page) = [(0, 0, reqH .page)] ∧
    s.tileCmd 0 = some c10 ∧ Live s c10 := by unfold Live; decide +kernel
theorem test_translation_shape : (xlatS .xlat).Shaped := by unfold State.Shaped Settled; decide +kernel

/-- The 56 bytes `e` stamped as the entry of index `j` of a ring of 64 (Table 16.3). -/
def stamped (j : Nat) (e : List Nat) : List Nat :=
  let l := e ++ ln 4 (j + (if j / 64 % 2 == 0 then 2 ^ 23 else 0)) ++ zs 2
  l ++ ln 2 (crc16 (l.map (BitVec.ofNat 8)))
/-- Queue 1 with entry 64 pending, stale `n` times or not at all. -/
def fetchS (n : Option Nat) : State :=
  let s := queS { st := 1, log2 := 6, j := 64, pend := 65, k := 64, released := 64, retrying := n.isSome, rereads := n.getD 0, ctx := ctx1 } {}
  { s with sched := { s.sched with cmds := [], bound := [(0, 3)] } }
/-- LAUNCH of model 7 with one constant word, which names handle 0x100 with offset 0 where it is marked in HREL. -/
def launchE (hrel : Nat) : List Nat := [1, 0, 1, 0] ++ ln 4 7 ++ ln 4 hrel ++ zs 12 ++ ln 8 0x100 ++ zs 24
/-- An entry's CRC (Table 16.3) covers its first 62 bytes. -/
theorem test_entries : entryCurrent ((fetchS none).queue 1) (stamped 64 (launchE 0)) = true ∧ entryCurrent ((fetchS none).queue 1) (stamped 0 (launchE 0)) = false ∧
    entryCurrent ((fetchS none).queue 1) (zs 64) = false ∧ entriesOf (stamped 64 (launchE 0)) = 1 ∧ entryCheck 1 (stamped 64 (launchE 0)) = none ∧
    entryCheck 1 (stamped 64 (6 :: zs 55)) = none ∧ entryCheck 1 (stamped 64 (7 :: zs 55)) = some 1 ∧ entryCheck 1 (stamped 64 (0x40 :: zs 55)) = some 2 ∧
    ((fetchS none).relocate 0 (launchE 1) (constWords [launchE 1])).2 = some (9, 0) := by decide +kernel

theorem test_queue_entry_premises :
    (∀ n ∈ [none, some 0, some 2, some 3], let s := fetchS n
      s.fetches 1 = true ∧ (s.queue 1).device = false ∧ (s.queue 1).entries = [] ∧ (s.queue 1).retrying = n.isSome ∧ (s.queue 1).rereads = n.getD 0) ∧
    (let s := fetchS none
     s.stage ≠ 15 ∧ s.doorbellOk 1 (63 % 65536) = true ∧ s.doorbellOk 1 (64 % 65536) = false ∧ s.doorbellOk 2 0 = false) ∧
    (let s := fencedS true
     (0 + (s.queue 1).size - s.field (qdbBase 1 + 8) 15 0 % (s.queue 1).size) % (s.queue 1).size ≤ (s.queue 1).k - (s.queue 1).released ∧
     (63 + (s.queue 1).size - s.field (qdbBase 1 + 8) 15 0 % (s.queue 1).size) % (s.queue 1).size ≤ (s.queue 1).k - (s.queue 1).released ∧
     ((fetchS none).queue 1).k - ((fetchS none).queue 1).released < (1 + 64 - (fetchS none).field (qdbBase 1 + 8) 15 0 % 64) % 64) := by decide +kernel

def deviceS : State := let s := queS { st := 1, log2 := 6, device := true } { launch1 with depth := 3 }
  { s with tiles := (onTile {}).tiles }
theorem test_device_doorbell_premises : let s := deviceS
    s.tileCmd 0 = some c10 ∧ (s.queue 1).device = true ∧ (s.cmd c10).part = (s.queue 1).part ∧ s.tileShadow 0 = false ∧ s.doorbellOk 1 (5 % 65536) = true := by
  decide +kernel

/-- Queue 1 with command 0 of opcode `op` fetched, model 7 with digest `d` over an image of one tile. -/
def img1 : List Nat := ([1] ++ zs 19 ++ [1]) ++ zs 43
def startS (op d : Nat) : State :=
  let s := put (put run6 0x600018 ([64, 0, 0, 0, 0, 0, 0x80, 0])) 0x200000 img1
  { s with
    folio := { s.folio with active := cfg.dropLast ++ [recModelD d] }
    sched := { s.sched with bound := [(0, 3)], queues := [(1, { st := 1, log2 := 6, part := some 0, j := 1, pend := 1 })]
                            cmds := [(c10, { st := .fetched, queue := 1, part := some 0, opcode := op, model := 7, img := (0x200000, 64) })] } }
theorem test_nop_premises : (startS 6 0).startable 1 6 = some c10 := by decide +kernel
theorem test_launch_premises :
    let d := Config.sha384 img1
    let e := (d + 1) % 2 ^ 384
    (∀ x, cfgModel (startS 1 x).folio.active 0 7 = some (recModelD x)) ∧ (∀ x ∈ [d, e], (startS 1 x).startable 1 1 = some c10 ∧
      ((startS 1 x).cmd c10).stale = false ∧ ((startS 1 x).cmd c10).img = (0x200000, 64)) ∧
    (startS 1 d).imageCheck 0 ((startS 1 d).cmd c10) (recModelD d) (hdrOf img1) true [(0, 5)] (layersOf img1) = none ∧
    (startS 1 d).sessionCheck ((startS 1 d).cmd c10) = none ∧
    Config.sha384 ((startS 1 d).readDP 0x200000 64) = fieldOf (recModelD d).data 16 48 ∧
    Config.sha384 ((startS 1 e).readDP 0x200000 64) ≠ fieldOf (recModelD e).data 16 48 := by
  have r : (startS 1 (Config.sha384 img1)).readDP 0x200000 64 = img1 := by decide +kernel
  have r' : (startS 1 ((Config.sha384 img1 + 1) % 2 ^ 384)).readDP 0x200000 64 = img1 := by decide +kernel
  have h := sha384_lt img1
  refine ⟨fun x => rfl, fun x hx => ?_, by decide +kernel, by decide +kernel, ?_, ?_⟩
  · simp only [List.mem_cons, List.not_mem_nil, or_false] at hx
    rcases hx with rfl | rfl <;> decide +kernel
  · rw [r, recModelD_digest _ h]
  · rw [r', recModelD_digest _ (Nat.mod_lt _ (Nat.two_pow_pos 384))]
    intro k
    rcases Nat.lt_or_ge (Config.sha384 img1 + 1) (2 ^ 384) with l | l
    · rw [Nat.mod_eq_of_lt l] at k; omega
    · rw [show Config.sha384 img1 + 1 = 2 ^ 384 by omega, Nat.mod_self] at k; omega

/-! ## The administration queue -/

/-- QUEUE_CREATE of queue 1 with a ring of 2ⁿ at HV addresses, vector `v`. -/
def createE (n v : Nat) : List Nat := [0x40, 0] ++ ln 2 1 ++ [n, 0] ++ ln 2 v ++ ln 8 (2 ^ 62 + 0x10000) ++ ln 8 (2 ^ 62 + 0x20000) ++ ln 8 (2 ^ 62 + 0x30000) ++ zs 24
/-- A context with PASID 5 and slot 0 on segment 0 for reads and writes. -/
def ctxB : List Nat := ln 4 (5 + 2 ^ 20) ++ zs 4 ++ [0, 3, 1] ++ zs 5 ++ zs 64
def adm (e : List Nat) (bound : Nat) (queues : Tbl Queue) : State :=
  let s := adminS none e
  { s with sched := { s.sched with bound := if bound = 0 then [] else [(0, bound)], queues := s.sched.queues ++ queues } }
theorem test_queue_create_premises :
    (∀ x ∈ [(6, 19, true), (10, 2047, true), (10, 0xFFFF, true), (5, 19, false), (11, 19, false), (10, 18, false), (10, 2048, false)],
      let s := adm (createE x.1 x.2.1) 3 []
      let e := (s.cmd 0).entry
      s.admin 0x40 = some 0 ∧ s.adminOpen 0x40 = true ∧ bits (fieldOf e 2 2) 11 0 = 1 ∧ fieldOf e 4 1 = x.1 ∧ fieldOf e 6 2 = x.2.1 ∧
      cfgQueue s.folio.active 1 = some recQ ∧ cfgPart s.folio.active (recQ.part 2) = some recPart ∧ (s.context (recQ.part 2) ctxB).isSome = true ∧
      bit (fieldOf e 1 1) 7 = false ∧
      (x.2.2 = true ↔ addrClass (fieldOf e 8 8) = 1 ∧ addrClass (fieldOf e 16 8) = 1 ∧ fieldOf e 32 8 = 0 ∧ (s.queue 1).st = 0 ∧ (1 : Nat) ≠ 0 ∧ 6 ≤ x.1 ∧
        x.1 ≤ recQ.f 6 1 ∧ aligned (fieldOf e 8 8) (64 * 2 ^ x.1) = true ∧ aligned (fieldOf e 16 8) (32 * 2 ^ x.1) = true ∧
        (x.2.1 = 0xFFFF ∨ (19 ≤ x.2.1 ∧ x.2.1 ≤ 2047)) ∧ hvOk (fieldOf e 24 8) = true)) := by decide +kernel

/-- QUEUE_DESTROY of queue 1, whose launch 0 runs; queue 1 drained. -/
def destroyS : State :=
  let s := adm ([0x41, 0] ++ ln 2 1 ++ zs 52) 3 [(1, { st := 1, log2 := 6, part := some 0 })]
  { s with sched := { s.sched with cmds := s.sched.cmds ++ [(c10, launch1)] }, tiles := (onTile {}).tiles }
def drainedS : State :=
  let s := adm ([0x41, 0] ++ ln 2 1 ++ zs 52) 3 [(1, { st := 4, log2 := 6, part := some 0, drainSeq := some 0, discarded := 2 })]
  { s with sched := { s.sched with cmds := [(0, { st := .running, opcode := 0x41 })] } }
theorem test_queue_destroy_premises :
    (let s := destroyS
     s.admin 0x41 = some 0 ∧ s.adminOpen 0x41 = true ∧ bits (fieldOf (s.cmd 0).entry 2 2) 11 0 = 1 ∧ (s.queue 1).st = 1 ∧ c10 ∈ s.queueCmds 1 ∧ Live s c10 ∧
     (s.cmd c10).nonpreempt = false) ∧
    (let s := drainedS
     (s.queue 1).st = 4 ∧ s.queueCmds 1 = [] ∧ (s.queue 1).drainSeq = some 0 ∧ Live s 0) := by unfold Live; decide +kernel

theorem test_bind_premises :
    (let s := adm ([0x42, 0, 0, 1] ++ zs 52) 3 []
     s.admin 0x42 = some 0 ∧ s.adminOpen 0x42 = true ∧ fieldOf (s.cmd 0).entry 2 1 = 0 ∧ fieldOf (s.cmd 0).entry 3 1 = 1 ∧
     cfgPart s.folio.active 0 = some recPart ∧ cfgSeg s.folio.active 0 1 = some (recSeg 1 1 0 0x400000 0x5FFFFF) ∧
     16 * recPart.f 16 4 ≤ (recSeg 1 1 0 0x400000 0x5FFFFF).f 16 8 + 1 - (recSeg 1 1 0 0x400000 0x5FFFFF).f 8 8 ∧
     s.sched.queues.any (fun x => x.2.st != 0 && x.2.part == some 0 && x.2.ctx.slots.any (fun y => y.en && !y.lost && y.seg == 1)) = false ∧
     Tbl.get 0 s.sched.bound 0 ≠ 2) ∧
    (∀ q ∈ [[], [(1, ({ st := 1, log2 := 6, part := some 0 } : Queue))]], let s := adm ([0x43, 0, 0] ++ zs 53) 3 q
     s.admin 0x43 = some 0 ∧ s.adminOpen 0x43 = true) := by decide +kernel

/-- PART_HT_IDX names entry `i` of partition 0; its low word is set. -/
def commitS (i bound : Nat) : State := ((adm (zs 56) bound []).setReg 0x20020 i).setReg 0x20028 (2 ^ 64 - 2)
theorem test_handle_commit_premises :
    (∀ i ∈ [0, 15], let s := commitS i 3
     s.field 0x20020 31 28 = 0 ∧ s.field 0x20020 23 0 = i ∧ s.handleBase 0 = some 0x600000 ∧ cfgPart s.folio.active 0 = some recPart ∧ i < recPart.f 16 4 ∧
     (0x600000 + 16 * i) % 64 ≤ 48 ∧ s.phys (0x600000 + 16 * i) = some (0x600000 + 16 * i) ∧ tierOf (0x600000 + 16 * i) ≠ 3 ∧
     s.unzeroed (0x600000 + 16 * i) 64 = false ∧ s.biHeld (0x600000 + 16 * i) = false ∧ s.hostFirst (0x600000 + 16 * i) = false ∧
     s.pageRetired (0x600000 + 16 * i) = false ∧ (s.sector (0x600000 + 16 * i)).poison = false) ∧
    recPart.f 16 4 ≤ (commitS 16 3).field 0x20020 23 0 ∧ cfgPart (commitS 16 3).folio.active 0 = some recPart ∧ (commitS 0 0).handleBase 0 = none ∧
    (commitS 0 3).regsOpen = true := by decide +kernel

theorem test_admq_ctrl_premises : (∀ v ∈ [0x500, 0xD00, 0xF01], bits v 11 8 < 6 ∨ 12 < bits v 11 8) ∧
    (∀ v ∈ [0x601, 0xC01], 6 ≤ bits v 11 8 ∧ bits v 11 8 ≤ 12 ∧ bit (run6.reg 0x110) 0 = false ∧ bit v 0 = true) ∧
    (let s := (adm (zs 56) 3 []).setReg 0x110 0x601
     bit (s.reg 0x110) 0 = true ∧ bit 0xC00 0 = false ∧ 0 ∈ s.queueCmds 0 ∧ (s.cmd 0).st = .fetched ∧ s.regsOpen = true) := by decide +kernel

/-! ## Quill -/

/-- A PUT and a NAK written out octet by octet from Table 18.2, Table 18.4 and Table 18.5. -/
theorem test_packet_octets :
    (⟨0x102, 3, 7, 1, 8, 0x1020304, 8, 0x102, (1, 0x456), 0, [0x2000FE, 2, 0, 0, 0, 0, 0], [9, 8]⟩ : Packet).octets =
      [0x11, 8, 1, 2, 0, 3, 0, 7, 1, 2, 3, 4, 0, 0, 0, 8, 0, 0, 0, 0, 0, 0, 1, 2, 0, 26, 0, 0, 0x10, 0, 4, 0x56,
       0, 0, 0, 0, 0, 0x20, 0, 0xFE, 0, 0, 0, 2, 0, 0, 0, 0, 0, 0, 0, 0, 0, 0, 0, 0, 9, 8] ∧
    (⟨5, 3, 7, 7, 0, 0, 0, 1, (0, 0), 0, [0x10, 9, 0x203], []⟩ : Packet).octets =
      [0x17, 0, 0, 5, 0, 3, 0, 7, 0, 0, 0, 0, 0, 0, 0, 0, 0, 0, 0, 0, 0, 0, 0, 1, 0, 16, 0, 0, 0, 0, 0, 0, 0, 0, 0, 0x10, 9, 0, 0, 0, 0, 0, 0, 0, 0, 0, 2, 3] := by
  decide +kernel

/-- Device 3 with sub-port 0 of port 0 up; flow 5, to flow 9 of device 7 through port 0, as `x`; launch 0 of queue 1 on tile 0; operations `ops`. -/
def fabS (x : Flow) (ops : List QOp) : State :=
  let s := queS { st := 1, log2 := 6, ctx := ctx1 } { launch1 with posts := [(0x400000, 4, 0x400800)] }
  let s := { s with tiles := (onTile {}).tiles, fab := { s.fab with flows := [(5, x)], ops := ops, nextOp := 9, devSet := true } }
  let s := ((s.setReg 0x400000 1).setReg 0x400004 3).setReg (fabPort 0 + 4) 1
  (s.setReg (selKey 0x400110 5) (fieldOf [7, 0, 9, 0, 0, 0, 0, 1] 0 8)).setReg (selKey 0x400118 5) (fieldOf [0, 4, 1, 0, 0, 0, 0, 0] 0 8)
/-- Flow 5 open, with packet 0 sent `n` times and, where it says so, refused. -/
def pkt0 (n : Nat) (r : Option Nat) : TxPkt := { kind := 1, opid := 8, op := 8, cid := some c10, sends := n, refused := r }
def flowX (n : Nat) (r : Option Nat) : Flow := { st := 1, psn := 1, sent := [pkt0 n r], rcum := 2, rgot := [4], limit := 8, owed := 1 }
def late (s : State) : State := { s with pace := { s.pace with time := 30000000 } }

theorem test_links_premises :
    (let s := (fabS {} []).setReg (fabPort 1) 0x81
     Instr.wf (.fabricLinkUp 1 7 3) = true ∧ bit (s.reg (fabPort 1)) 0 = true ∧ bit (s.reg (fabPort 1)) (4 + 3) = true ∧ 7 < 2 ^ 3 ∧ s.pace.refRun = true ∧ s.laneFails 1 7 3 = false ∧
     bit (s.reg (fabPort 1 + 4)) 7 = false ∧ bits (s.reg (fabPort 1 + 4)) 7 0 = 0) ∧
    (let s := (fabS {} []).setReg (fabPort 0 + 0x50) 77
     bit (s.reg (fabPort 0 + 4)) 0 = true ∧ s.subIp4 0 0 = 77 ∧ s.subIp6 0 0 ≠ 77 ∧ s.subIp6 0 0 = 0) := by decide +kernel

/-- Flow 5's partition has FABRIC tokens left, or none. -/
def paysS (x : Flow) (tokens : Nat) : State :=
  let s := late (fabS x [])
  { s with folio := { s.folio with active := ⟨4, [0, 3, 0, 0] ++ ln 4 100000 ++ ln 4 200000 ++ zs 4⟩ :: s.folio.active }
           memc := { s.memc with buckets := [(bucketKey 0 18, { tokens := tokens })] } }
theorem test_timer_premises :
    (∀ y ∈ [(5000, true), (0, false)], let s := paysS (flowX 1 none) y.1
     (s.flow 5).st = 1 ∧ 1 ≤ (s.flow 5).owed ∧ (s.flow 5).owedAt + 2000 ≤ s.time ∧ s.pickSub 5 none = some (0, 0) ∧
     (s.pays (s.frameDue 5 (0, 0) 6 0 none)).2 = y.2) ∧
    (∀ y ∈ [(5000, true), (0, false)], let s := paysS (flowX 1 none) y.1
     let z := s.updFlow 5 (fun x => { x with cwnd := 256 })
     let k := pkt0 1 none
     (s.flow 5).st = 1 ∧ (s.flow 5).sent.find? (fun k => k.psn == 0) = some k ∧ k.refused = none ∧ k.again = none ∧ k.sentAt + (s.flow 5).timer k ≤ s.time ∧
     k.sends < 12 ∧ z.pickSub 5 (some k.via) = some (0, 0) ∧ (z.pays (z.frameDue 5 (0, 0) k.kind k.data.length k.cid)).2 = y.2) ∧
    (let s := late (fabS (flowX 1 none) [])
     (s.flow 5).sent ≠ [] ∧ (s.flow 5).advance + 20000000 ≤ s.time) ∧
    (let s := late (fabS (flowX 12 none) [])
     (s.flow 5).sent.find? (fun k => k.psn == 0) = some (pkt0 12 none) ∧ (pkt0 12 none).sentAt + (s.flow 5).timer (pkt0 12 none) ≤ s.time ∧ 12 ≤ (pkt0 12 none).sends) ∧
    (∀ y ∈ [(5000, true), (0, false)], let s := paysS (flowX 1 (some 9)) y.1
     let k := pkt0 1 (some 9)
     (s.flow 5).sent.find? (fun k => k.psn == 0) = some k ∧ k.refused = some 9 ∧ k.again = none ∧ 9 + 4000 ≤ s.time ∧ s.pickSub 5 (some k.via) = some (0, 0) ∧
     (s.pays (s.frameDue 5 (0, 0) k.kind k.data.length k.cid)).2 = y.2) ∧
    (let s := late (fabS { flowX 1 none with retireAt := some 5, rxNext := some [1, 2, 3, 4] } [])
     (s.flow 5).retireAt = some 5 ∧ (s.flow 5).rxNext = some [1, 2, 3, 4] ∧ 5 ≤ s.time) := by decide +kernel

/-- A packet of flow 5 with PSN `n`. -/
def rxp (n opid : Nat) (fields data : List Nat) : RxPacket :=
  { whole := true, dst := 3, flow := 5, src := 7, flags := 0, psn := n, opid := opid, txseq := 0, tagOk := true, reserved := false, lenOk := true, ce := false, noRoom := false,
    pace := (0, 0), fields := fields, data := data }
theorem accepts {s : State} {e kind : Nat} {p : RxPacket} {n : Nat} (h : let v := (s.rxFront e kind p).1
    bits (s.reg (fabPort e + 4)) 7 0 ≠ 0 ∧ (s.rxFront e kind p).2 = true ∧ (v.flow p.flow).fullPsn p.psn = (n : Int) ∧
    (v.flow p.flow).rcum ≤ n ∧ n < (v.flow p.flow).limit ∧ (v.flow p.flow).rgot.contains n = false ∧ p.reserved = false ∧ p.lenOk = true ∧
    p.data.length ≤ v.maxPayload p.flow) : s.Accepts e kind p (s.rxFront e kind p).1 n := by
  obtain ⟨h3, h4, h⟩ := h
  exact ⟨h3, pairEq h4, h⟩

def putP (n : Nat) : RxPacket := rxp n 1 [0x2000FE, 2, 0, 0, 0, 0, 0] [9, 8]
/-- What the packet moves has been admitted (log entry 196). -/
def putA (p : RxPacket) : State := readied (fabS (flowX 1 none) []) p.ecc (fun s => s.doQuillPut 0 p)
theorem test_put_premises : (∀ n ∈ [7, 2, 1], readies (fabS (flowX 1 none) []) [] (fun s => s.doQuillPut 0 (putP n)) = true) ∧
    (let v := ((putA (putP 7)).rxFront 0 1 (putP 7)).1
     let p := putP 7
     (putA p).Accepts 0 1 p v 7 ∧ (putA (putP 2)).Accepts 0 1 (putP 2) ((putA (putP 2)).rxFront 0 1 (putP 2)).1 2 ∧ plainPkt p = true ∧ pf p 5 = 0 ∧ p.data ≠ [] ∧
     pf p 1 = p.data.length ∧ v.remoteCheck p.flow (pf p 0) p.data.length 2 = none ∧ v.anyUnzeroed (pf p 0) p.data.length = false ∧ pf p 0 % 64 + p.data.length ≤ 64 ∧
     v.phys (pf p 0) = some 0x2000FE ∧ v.pageRetired 0x2000FE = false ∧ (v.sector 0x2000FE).poison = false ∧ v.outcome (0x2000FE / 64 * 64) = .ok) :=
  ⟨by decide +kernel, accepts (by decide +kernel), accepts (by decide +kernel), by decide +kernel⟩
theorem test_duplicate_premises : let a := putA (putP 1)
    let v := (a.rxFront 0 1 (putP 1)).1
    bits (a.reg (fabPort 0 + 4)) 7 0 ≠ 0 ∧ a.rxFront 0 1 (putP 1) = (v, true) ∧ (v.flow 5).fullPsn 1 = 1 ∧ 1 < (v.flow 5).rcum :=
  ⟨by decide +kernel, pairEq (by decide +kernel), by decide +kernel⟩

def getP : RxPacket := rxp 3 1 [0x200100, 96, 0, 0, 0, 0, 0] []
theorem test_get_req_premises : let s := fabS (flowX 1 none) []
    let a := readied s [] (fun s => s.doGetReq 0 getP)
    let v := (a.rxFront 0 2 getP).1
    readies s [] (fun s => s.doGetReq 0 getP) = true ∧ a.Accepts 0 2 getP v 3 ∧ plainPkt getP = true ∧ pf getP 5 = 0 ∧ getP.data = [] ∧ 1 ≤ pf getP 1 ∧ 1 ≤ v.maxPayload 5 ∧
    v.remoteCheck 5 (pf getP 0) (pf getP 1) 1 = none ∧
    v.anyUnzeroed (pf getP 0) (pf getP 1) = false ∧ v.remoteRead 5 (pieces (pf getP 0) (pf getP 1)) = ((v.remoteRead 5 (pieces (pf getP 0) (pf getP 1))).1, some (zs 96)) :=
  ⟨by decide +kernel, accepts (by decide +kernel), by decide +kernel, by decide +kernel, by decide +kernel, by decide +kernel, by decide +kernel, by decide +kernel, by decide +kernel, pairEq (by decide +kernel)⟩

/-- A get of 16 bytes to 0x400100, and the all-gather of 2 bytes of three ranks to 0x400200, of launch 0 in operation 8; a staged one too. -/
def qget : QOp := { id := 8, kind := 2, cid := c10, flows := [5], loc := 0x400100, rem := 0x200000, len := 16, token := some 15 }
def qfan : QOp := { qget with kind := 8, data := zs 16 }
def qgat : QOp := { id := 8, kind := 6, cid := c10, group := some 1, flows := [6, 6, 5], my := 1, rem := 0x400200, len := 2, seq := 77, token := some 15 }
/-- Group 1 of partition 0: the device is rank 1 of 3 and flow 5 rank 2. -/
def grpS (x : Flow) (ops : List QOp) : State :=
  let s := (fabS x ops).setReg (selKey 0x400308 1) (3 * 2 ^ 48 + 2 ^ 32 + 1)
  { s with fab := { s.fab with groups := [(1, { flows := [6, 6, 5] })] } }
def respP : RxPacket := rxp 2 8 [14, 2, 14, 0, 0, 0, 0] [9, 8]
def respA (ops : List QOp) : State := readied (fabS (flowX 1 none) ops) [] (fun s => s.doGetResp 0 respP hv)
theorem test_get_resp_premises : plainPkt respP = true ∧ pf respP 5 = 0 ∧ respP.data ≠ [] ∧ pf respP 1 = 2 ∧ pf respP 2 = pf respP 0 ∧
    (∀ x ∈ [([], none), ([qfan], some qfan), ([qget], some qget)], readies (fabS (flowX 1 none) x.1) [] (fun s => s.doGetResp 0 respP hv) = true ∧
      ((respA x.1).rxFront 0 3 respP).1.fab.ops.find? (fun o => o.id % 2 ^ 32 == 8 && (o.kind == 2 || o.kind == 8) && o.flows == [5]) = x.2) ∧
    (respA []).Accepts 0 3 respP ((respA []).rxFront 0 3 respP).1 2 ∧ (respA [qfan]).Accepts 0 3 respP ((respA [qfan]).rxFront 0 3 respP).1 2 ∧
    pf respP 0 + 2 ≤ qget.len ∧
    (let v := ((respA [qget]).rxFront 0 3 respP).1
     let w := v.unitWrite c10 ⟨4, 0⟩ hv (0x400100 + 14) [9, 8]
     (respA [qget]).Accepts 0 3 respP v 2 ∧ w = (w.1, .ok []) ∧ qget ∈ w.1.fab.ops) :=
  ⟨by decide +kernel, by decide +kernel, by decide +kernel, by decide +kernel, by decide +kernel, by decide +kernel, accepts (by decide +kernel), accepts (by decide +kernel),
    by decide +kernel, accepts (by decide +kernel), pairEq (by decide +kernel), by decide +kernel⟩

/-- An INT32 or BF16 element added remotely. -/
def atomP (typ a : Nat) (d : List Nat) : RxPacket := rxp 2 1 [a, d.length, 0, 0, 0, typ, 0] d
def atomA (p : RxPacket) : State := readied (fabS (flowX 1 none) []) [] (fun s => s.doAtomicRx 0 p)
theorem test_atomic_premises : ∀ x ∈ [(5, 0x20003C, [1, 0, 0, 0]), (1, 0x20003E, [0, 0x3C])], let p := atomP x.1 x.2.1 x.2.2
    let v := ((atomA p).rxFront 0 4 p).1
    readies (fabS (flowX 1 none) []) [] (fun s => s.doAtomicRx 0 p) = true ∧
    ((atomA p).rxFront 0 4 p).2 = true ∧ plainPkt p = true ∧ bits (pf p 5) 7 6 = 0 ∧ pf p 5 % 16 < 7 ∧ redScaled (pf p 5 % 16) = false ∧ bits (pf p 5) 5 4 = 0 ∧
    p.data.length = redBytes (pf p 5 % 16) ∧ pf p 1 = redBytes (pf p 5 % 16) ∧ aligned (pf p 0) (redBytes (pf p 5 % 16)) = true ∧
    v.remoteCheck p.flow (pf p 0) (redBytes (pf p 5 % 16)) 3 = none ∧ v.anyUnzeroed (pf p 0) (redBytes (pf p 5 % 16)) = false ∧ v.phys (pf p 0) = some x.2.1 ∧
    v.pageRetired x.2.1 = false ∧ (v.sector x.2.1).poison = false ∧ v.outcome (x.2.1 / 64 * 64) = .ok := by decide +kernel
theorem test_atomic_accepted : (atomA (atomP 5 0x20003C [1, 0, 0, 0])).Accepts 0 4 (atomP 5 0x20003C [1, 0, 0, 0]) ((atomA (atomP 5 0x20003C [1, 0, 0, 0])).rxFront 0 4 (atomP 5 0x20003C [1, 0, 0, 0])).1 2 :=
  accepts (by decide +kernel)

def collP : RxPacket := rxp 2 1 [4, 2, 0, 1, 0, 6, 77] [9, 8]
def collA : State := readied (grpS (flowX 1 none) [qgat]) [] (fun s => s.doColl 0 collP hv)
theorem test_coll_premises : let v := (collA.rxFront 0 5 collP).1
    let w := v.unitWrite c10 ⟨4, 0⟩ hv (0x400200 + 4) [9, 8]
    readies (grpS (flowX 1 none) [qgat]) [] (fun s => s.doColl 0 collP hv) = true ∧ collA.Accepts 0 5 collP v 2 ∧ collP.data ≠ [] ∧ pf collP 1 = 2 ∧ v.senderRank 5 1 = some 2 ∧
    v.fab.ops.find? (fun o => o.group == some 1 && o.seq == 77 && 4 ≤ o.kind && o.kind ≤ 6) = some qgat ∧ pf collP 5 = qgat.info ∧ pf collP 4 = 0 ∧
    qgat.span 0 2 = (4, 2) ∧ pf collP 0 = 4 ∧ pf collP 2 = 0 ∧ w = (w.1, .ok []) ∧ qgat ∈ w.1.fab.ops :=
  ⟨by decide +kernel, accepts (by decide +kernel), by decide +kernel, by decide +kernel, by decide +kernel, by decide +kernel, by decide +kernel, by decide +kernel, by decide +kernel,
    by decide +kernel, by decide +kernel, pairEq (by decide +kernel), by decide +kernel⟩

/-- A chunk of rank 2 for an all-reduce of three ranks and 12 bytes, the last of the contributions to come, or the first. -/
def redP : RxPacket := rxp 2 1 [4, 4, 0, 1, 0, 44, 77] [9, 0, 0, 0]
def qred (got : List (Nat × Nat × Nat × Nat)) : QOp :=
  let o : QOp := { qgat with kind := 4, loc := 0x400100, len := 12, dtype := 5, stage := 0x400300, src := zs 12 }
  { o with got := got }
theorem test_coll_reduce_premises : ∀ g ∈ [[(0, 0, 4, 4)], []],
    let s := grpS (flowX 1 none) [qred g]
    let a := readied s [] (fun s => s.doColl 0 redP hv)
    let v := (a.rxFront 0 5 redP).1
    let z := v.opWrite (qred g) hv ((qred g).stageAt 2) redP.data (0, 2, 4, 4)
    readies s [] (fun s => s.doColl 0 redP hv) = true ∧ (a.rxFront 0 5 redP).2 = true ∧
    v.fab.ops.find? (fun o => o.group == some 1 && o.seq == 77 && 4 ≤ o.kind && o.kind ≤ 6) = some (qred g) ∧ pf redP 5 = (qred g).info ∧ pf redP 4 = 0 ∧
    (qred g).span 0 2 = (4, 4) ∧ z.2 = .ok ∧ (z.1.collCombineAll 8 hv).2 ≠ .missing := by decide +kernel

theorem test_ack_nak_premises :
    (let s := fabS { flowX 1 none with cum := 0 } []
     let p := rxp 0 0 [0, 8, 0, 0] []
     let a := readied s [] (fun s => s.doAck 0 p)
     let v := (a.rxFront 0 6 p).1
     readies s [] (fun s => s.doAck 0 p) = true ∧ a.rxFront 0 6 p = (v, true) ∧ bits (a.reg (fabPort 0 + 4)) 7 0 ≠ 0 ∧ p.reserved = false ∧ p.lenOk = true ∧ (v.flow 5).cum ≤ 1 ∧
     1 ≤ (v.flow 5).psn ∧ pf p 0 = (1 + 2 ^ 32 - 1) % 2 ^ 32) ∧
    (∀ r ∈ [9, 1, 10], let s := fabS (flowX 1 none) [qget]
     let p := rxp 0 0 [0, r, 0] []
     let a := readied s [] (fun s => s.doNak 0 p)
     let v := (a.rxFront 0 7 p).1
     readies s [] (fun s => s.doNak 0 p) = true ∧ (a.rxFront 0 7 p).2 = true ∧ p.reserved = false ∧ p.lenOk = true ∧
     (v.flow 5).sent.find? (fun k => k.psn % 2 ^ 32 == pf p 0) = some (pkt0 1 none) ∧ pf p 1 = r ∧
     v.fab.ops.find? (fun o => o.id == (pkt0 1 none).op) = some qget ∧ qget.kind ≤ 7 ∧ Live v c10) := by
  refine ⟨⟨by decide +kernel, pairEq (by decide +kernel), by decide +kernel⟩, ?_⟩
  unfold Live; decide +kernel

def abortP (reason die : Nat) : RxPacket := rxp 2 0 [1, reason, die, 77] []
def abortA (x : Nat × Nat) : State := readied (grpS (flowX 1 none) [qgat]) [] (fun s => s.doAbortRx 0 (abortP x.1 x.2))
theorem test_abort_premises :
    (∀ x ∈ [(1, 7), (2, 0)], let v := ((abortA x).rxFront 0 8 (abortP x.1 x.2)).1
      readies (grpS (flowX 1 none) [qgat]) [] (fun s => s.doAbortRx 0 (abortP x.1 x.2)) = true ∧
      1 ≤ pf (abortP x.1 x.2) 1 ∧ pf (abortP x.1 x.2) 1 ≤ 2 ∧ pf (abortP x.1 x.2) 2 ≤ 7 ∧ v.senderRank 5 1 = some 2 ∧
      v.fab.ops.find? (fun o => o.group == some 1 && o.seq == 77 && 4 ≤ o.kind && o.kind ≤ 6) = some qgat ∧ Live v c10) ∧
    (abortA (1, 7)).Accepts 0 8 (abortP 1 7) ((abortA (1, 7)).rxFront 0 8 (abortP 1 7)).1 2 := by
  refine ⟨by unfold Live; decide +kernel, accepts (by decide +kernel)⟩

/-- Flow 5 selected, as `x`; partition 0 may have four flows. -/
def flowSelS (x : Flow) : State := (fabS x []).setReg 0x400100 5
theorem test_flow_premises :
    (let s := flowSelS { keySet := 255 }
     s.flowSel = 5 ∧ (s.flow 5).st = 0 ∧ s.flowDescOk 5 = true ∧ s.serving (s.flowPart 5) = true ∧ cfgPart s.folio.active (s.flowPart 5) = some recPart ∧
     s.openFlows (s.flowPart 5) < recPart.f 48 4 ∧ bits (s.flow 5).keySet 7 0 = 255 ∧ bit (s.reg 0x400000) 0 = true ∧ s.fab.devSet = true ∧ s.regsOpen = true) ∧
    ((flowSelS (flowX 1 none)).flow 5).st ≠ 0 ∧
    (let s := (flowSelS {}).setReg (selKey 0x400118 5) 0
     (s.flow 5).st = 0 ∧ s.flowDescOk 5 = false) ∧
    (∀ t ∈ [2, 3], ((flowSelS { st := t }).flow 5).st = t) ∧
    (let s := flowSelS { flowX 1 none with keySet := 0xF0F }
     (s.flow 5).st = 1 ∧ (s.flow 5).retireAt = none ∧ bits (s.flow 5).keySet 11 8 = 15 ∧ bits (s.flow 5).keySet 3 0 = 15) := by decide +kernel

/-- Group 1 selected, its list of three flows at 0x200040; busy where `ops` says so. -/
def defS (ops : List QOp) : State := put (((fabS (flowX 1 none) ops).setReg 0x400300 1).setReg (selKey 0x400310 1) 0x200040) 0x200040 [5, 0, 9, 0, 5, 0]
theorem test_group_premises :
    (defS [qgat]).grpBusy ((defS [qgat]).field 0x400300 9 0) = true ∧
    (∀ v ∈ [3 * 2 ^ 48 + 2 ^ 32 + 1, 3 * 2 ^ 48 + 2 ^ 32 + 3], let s := defS []
      let v := v &&& (ones 63 28 ||| 3)
      s.field 0x400300 9 0 = 1 ∧ s.grpBusy 1 = false ∧ bit v 0 = true ∧ 2 ≤ gRanks v ∧ gRanks v ≤ 4096 ∧ gRank v < gRanks v ∧
      s.flowList (gPart v) (gRanks v) (s.reg (selKey 0x400310 1)) = some [5, 9, 5] ∧ (s.flow 5).st = 1 ∧ s.flowPart 5 = gPart v ∧ gRank v = 1) ∧
    (∀ v ∈ [3 * 2 ^ 48, 2 ^ 48 + 1, 4097 * 2 ^ 48 + 1, 3 * 2 ^ 48 + 3 * 2 ^ 32 + 1], let v := v &&& (ones 63 28 ||| 3)
      bit v 0 = false ∨ gRanks v < 2 ∨ 4096 < gRanks v ∨ gRanks v ≤ gRank v) := by decide +kernel

/-- A descriptor of kind `k` at slot `i` of the post ring of task 0: 16 bytes at 0x400100, target `tgt`. -/
def descB (k tgt dtype loc rem len : Nat) : List Nat := [k, 0, 15, dtype] ++ ln 2 tgt ++ [0, 0] ++ ln 8 loc ++ ln 8 rem ++ ln 4 len ++ ln 4 77 ++ ln 8 (if k = 4 then 0x400300 else 0) ++ zs 24
/-- Group 1 of flows 5, 5, 5, the device its rank 1; a multicast group 2 of which it is rank 0. -/
def postS (k tgt dtype : Nat) : State :=
  let s := put (fabS { st := 1 } []) 0x4003C0 (descB k tgt dtype 0x400100 0x400200 12)
  let s := (s.setReg (selKey 0x400308 1) (3 * 2 ^ 48 + 2 ^ 32 + 1)).setReg (selKey 0x400308 2) (2 * 2 ^ 48 + 3)
  { s with fab := { s.fab with rings := [(c10 * 32, { head := 15, tail := 3 })], groups := [(1, { flows := [5, 5, 5] }), (2, { flows := [5, 5] })] } }
def viewH : HostView := hv
/-- The descriptor's read of `postS`, and the operation it makes. -/
def postF : Nat → State → State
  | 1, s => s.doPut 1 0 0 viewH
  | 2, s => s.doGet 1 0 0 viewH
  | 3, s => s.doAtomicAdd 1 0 0 viewH
  | 4, s => s.doAllReduce 1 0 0 viewH
  | 5, s => s.doAllToAll 1 0 0 viewH
  | 6, s => s.doAllGather 1 0 0 viewH
  | _, s => s.doMcastPut 1 0 0 viewH
def postA (k tgt dtype : Nat) : State := readied (postS k tgt dtype) [] (postF k)
def postV (k tgt dtype : Nat) : State := ((postA k tgt dtype).unitRead c10 ⟨4, 0⟩ viewH 0x4003C0 64).1
def postO (k tgt dtype : Nat) : QOp := (postV k tgt dtype).descOp c10 0 (descB k tgt dtype 0x400100 0x400200 12)
theorem posts {k tgt dtype : Nat} (h : ((postA k tgt dtype).cmd c10).posts[0]? = some (0x400000, 4, 0x400800) ∧
      (postA k tgt dtype).postTile c10 0 = 0 ∧ ((postA k tgt dtype).posted c10 0).head = 15 ∧
      ((postA k tgt dtype).unitRead c10 ⟨4, 0⟩ viewH 0x4003C0 64).2 = .ok (descB k tgt dtype 0x400100 0x400200 12) ∧
      (postV k tgt dtype).descFaulty c10 (descB k tgt dtype 0x400100 0x400200 12) (postO k tgt dtype) = false ∧ (postA k tgt dtype).mayPost c10 0 = true ∧
      ((postA k tgt dtype).posted c10 0).tail = 3 ∧ (postO k tgt dtype).kind = k ∧ (postO k tgt dtype).fence = false) :
    (postA k tgt dtype).Posts c10 0 k viewH (postV k tgt dtype) (postO k tgt dtype) 4 := by
  obtain ⟨h2, h3, h4, h5, h6, h7, h8, h9, h10⟩ := h
  refine ⟨⟨_, _, h2, _, ?_, rfl, h6⟩, h7, by rw [h4, h8]; decide, h9, fun h => by rw [h10] at h; cases h⟩
  rw [h3, h4]; exact pairEq h5

theorem test_post_premises : (postA 1 5 0).Posts c10 0 1 viewH (postV 1 5 0) (postO 1 5 0) 4 ∧ (postA 2 5 0).Posts c10 0 2 viewH (postV 2 5 0) (postO 2 5 0) 4 ∧
    (postA 3 5 1).Posts c10 0 3 viewH (postV 3 5 1) (postO 3 5 1) 4 ∧ (postA 4 1 5).Posts c10 0 4 viewH (postV 4 1 5) (postO 4 1 5) 4 ∧
    (postA 5 1 0).Posts c10 0 5 viewH (postV 5 1 0) (postO 5 1 0) 4 ∧ (postA 6 1 0).Posts c10 0 6 viewH (postV 6 1 0) (postO 6 1 0) 4 ∧
    (postA 7 2 0).Posts c10 0 7 viewH (postV 7 2 0) (postO 7 2 0) 4 :=
  ⟨posts (by decide +kernel), posts (by decide +kernel), posts (by decide +kernel), posts (by decide +kernel), posts (by decide +kernel), posts (by decide +kernel),
    posts (by decide +kernel)⟩
theorem test_posts_ready : ∀ x ∈ [(1, 5, 0), (2, 5, 0), (3, 5, 1), (4, 1, 5), (5, 1, 0), (6, 1, 0), (7, 2, 0)],
    readies (postS x.1 x.2.1 x.2.2) [] (postF x.1) = true := by decide +kernel
/-- What a put, an atomic add and the collectives read of local memory, and that a collective starts. -/
theorem test_post_reads : (∀ x ∈ [(1, 5, 0, 12), (3, 5, 1, 12), (4, 1, 5, 12), (5, 1, 0, 36), (6, 1, 0, 12), (7, 2, 0, 12)],
      let o := postO x.1 x.2.1 x.2.2.1
      ((postV x.1 x.2.1 x.2.2.1).unitRead c10 ⟨4, 0⟩ viewH o.loc (if x.1 = 5 then o.len * o.flows.length else o.len)).2 = .ok (zs x.2.2.2)) ∧
    (∀ x ∈ [(4, 1, 5), (5, 1, 0), (6, 1, 0), (7, 2, 0)], let o := postO x.1 x.2.1 x.2.2
      let w := ((postV x.1 x.2.1 x.2.2).unitRead c10 ⟨4, 0⟩ viewH o.loc o.len).1
      o.group = some x.2.1 ∧ (w.grp x.2.1).ended.contains o.seq = false ∧ (∀ f ∈ o.uses, (w.flow f).st = 1) ∧
      (x.1 = 4 → 0 < (o.flows.length - 1) * o.chunkLen o.my)) ∧
    (∀ x ∈ [5, 6], let o := postO x 1 0
      let w := ((postV x 1 0).unitRead c10 ⟨4, 0⟩ viewH o.loc o.len).1
      ((w.addOp o).1.unitWrite c10 ⟨4, 0⟩ viewH (o.rem + o.my * o.len) (zs 12)).2 = .ok []) := by decide +kernel
theorem test_post_shape : let w := ((postV 4 1 5).unitRead c10 ⟨4, 0⟩ viewH (postO 4 1 5).loc 12).1
    ∀ o ∈ w.fab.ops, o.id < w.fab.nextOp := by decide +kernel

theorem test_post_word_premises : let s := postS 1 5 0
    Instr.wf (.postWordWrite 1 0 0 15) = true ∧ (s.cmd c10).posts[0]? = some (0x400000, 4, 0x400800) ∧ s.mayPost c10 0 = true ∧ 15 < 2 ^ 4 := by decide +kernel
/-- A get whose 16 bytes have come. -/
def doneO : QOp := { qget with got := [(0, 0, 0, 16)] }
theorem test_operation_complete_premises : let s := fabS { st := 1 } [doneO]
    s.fab.ops.find? (fun o => o.id == 8) = some doneO ∧ s.opDone doneO = true ∧ doneO.token = some 15 ∧ (Tbl.get {} s.saved (frameKey doneO.cid doneO.task)).task = none ∧
    s.taskTile doneO.cid doneO.task = some 0 ∧ 15 < (s.tile 0).tokens.length ∧ nth (s.tile 0).tokens 15 0 < 255 := by decide +kernel
/-- Three ranks sum modulo 2³² (R427). -/
theorem test_allreduce_sum : (collCombine 5 0 [2 ^ 32 - 1, 2 ^ 31, 2 ^ 31 + 5]).1 = 4 := by decide +kernel

/-! ## The start, SPDM and the shutdown -/

/-- The block at STAGE `n`. -/
def stg (n : Nat) : State := run6.setField 0x800000 3 0 n
/-- A boot firmware image of SECURITY_VERSION 5, as long as its header says. -/
def bootImg : List Nat := zs 12 ++ ln 4 5 ++ ln 4 4096 ++ zs 4076
def bootS (n a : Nat) (b : List (List Nat)) : State := { stg n with flash := { (stg n).flash with bootSlot := a, boot := b } }

/-- Where the signature verifies: the active image runs; the other one does when the active slot is empty; with none the start halts. -/
theorem test_boot_premises (v : ∀ m g, Config.ecdsaVerify Config.bootKeyId m g = true) :
    (bootS 0 0 [bootImg, []]).bfwValid bootImg = true ∧ (bootS 0 0 [[], bootImg]).bfwValid bootImg = true ∧ (bootS 0 0 [[], bootImg]).bfwValid [] = false ∧
    (bootS 0 0 [[], []]).bfwValid [] = false ∧ (bootS 0 0 [bootImg, []]).alive = true ∧ (bootS 0 0 [bootImg, []]).stage = 0 := by
  have g (s : State) (h : s.flash.bootRows = []) : s.bfwValid bootImg = true := by
    unfold State.bfwValid bfwSigned
    rw [v, h, show bootImg.isEmpty = false by decide +kernel]
    decide +kernel
  exact ⟨g _ rfl, g _ rfl, by decide +kernel, by decide +kernel, by decide +kernel, by decide +kernel⟩
theorem test_boot_shape : (bootS 0 0 [bootImg, []]).Shaped := by unfold State.Shaped Settled; decide +kernel
theorem test_empty_boot_shape : (bootS 0 1 [[], []]).Shaped := by unfold State.Shaped Settled; decide +kernel

/-- Channels 0 and 1 alike and good, channel 2 without ECC, channel 5 not trained, the others empty. -/
def mods : List DdrModule :=
  let m : DdrModule := ⟨true, 1, true, 2, 64, 7, true⟩
  let n : DdrModule := ⟨false, 0, false, 0, 0, 0, false⟩
  [m, m, { m with ecc := false }, { m with ecc := false }, m, { m with trained := false }] ++ List.replicate 10 n
/-- A self-test record without failures (Table 19.10). -/
def bistRec : List Nat := (recordMagic ++ ln 2 1 ++ [255, 1] ++ zs 4) ++ natBytes 8 Config.serial ++ (ln 8 6 ++ zs 224)
def trainS (r : List Nat) : State := { stg 1 with flash := { (stg 1).flash with record := r, bistSeq := 6 } }
theorem test_training_premises (v : ∀ m g, Config.ecdsaVerify Config.identityKeyId m g = true) :
    Instr.wf (.trainingComplete mods) = true ∧ (trainS []).stage = 1 ∧ (trainS []).recordCheck [] = 1 ∧ (trainS bistRec).recordCheck bistRec = 0 ∧
    (pairFault 0 (nth mods 0 ⟨false, 0, false, 0, 0, 0, false⟩) (nth mods 1 ⟨false, 0, false, 0, 0, 0, false⟩)).isNone = true ∧ mods[2 * 2]? ≠ none := by
  have k := fieldOf_natBytes (recordMagic ++ ln 2 1 ++ [255, 1] ++ zs 4) (ln 8 6 ++ zs 224) 8 Config.serial
  have l : (recordMagic ++ ln 2 1 ++ [255, 1] ++ zs 4).length = 16 := by decide +kernel
  rw [l] at k
  have r : (trainS bistRec).recordCheck bistRec = 0 := by
    have a : (bistRec.take 8 != recordMagic) = false ∧ fieldOf bistRec 8 2 = 1 ∧ fieldOf bistRec 11 1 = 1 ∧ fieldOf bistRec 42 6 = 0 ∧ fieldOf bistRec 240 16 = 0 ∧
      fieldOf bistRec 10 1 = 255 ∧ fieldOf bistRec 24 8 = 6 := by decide +kernel
    unfold State.recordCheck
    simp only [show fieldOf bistRec 16 8 = Config.serial % 2 ^ 64 from k, a, v, bne_self_eq_false]
    decide +kernel
  exact ⟨by decide +kernel, by decide +kernel, by decide +kernel, r, by decide +kernel, by decide +kernel⟩

def entry1 : FailEntry := ⟨0, 7, 127, 9, 0⟩
theorem test_start_premises :
    Instr.wf (.startTestComplete [entry1]) = true ∧ (stg 4).stage = 4 ∧ (stg 5).stage = 5 ∧ (stg 5).nib.down = false ∧ (stg 5).folio.op = none ∧ (stg 5).nib.fatal = [] ∧
    ({ stg 6 with memc := { (stg 6).memc with drainT2 := true } } : State).memc.drainT2 = true ∧
    (let s := { stg 0 with pace := { (stg 0).pace with time := 300000000 } }
     s.stage = 0 ∧ 300000000 ≤ s.time) := by decide +kernel
theorem test_start_settled : Settled (stg 5) := by unfold Settled; decide +kernel
/-- A start with a load under way, a fatal failure on record. -/
def startOp : FolioOp := { fop 1 0 with slot := some 1 }
def startLoadS : State :=
  { folioS (some startOp) with regs := (stg 5).regs, nib := { run6.nib with fatal := [entry1] } }
/-- What is left to pay, and that the block stays up. -/
def quiet (s : State) : List Due × List (Option Nat × Nat) × NibSt := (s.memc.due, s.host.needs, s.nib)
theorem reported_quiet {s u : State} (h : s.Reported u) : quiet u = quiet s := by obtain ⟨_, _, _, _, rfl⟩ := h; rfl
theorem measChanged_quiet (s b : State) : quiet (s.measChanged b) = quiet s := by
  apply reported_quiet
  apply State.foldl_reported (fun (a : State) k => if s.meas (k + 1) == b.meas (k + 1) then a else
    a.blot { cls := 0x0204, src := ⟨5, s.leadDie⟩, detail := [(k + 1, 1), (fieldOf (s.meas (k + 1)) 0 16, 16)] } [ringG])
  intro a k
  split
  · exact .refl a
  · exact State.blot_reported ..
theorem settlePkg_quiet (s : State) (ok : Bool) (h : s.nib.fatal ≠ []) : quiet (s.settlePkg ok) = quiet s := by
  have f : s.nib.fatal.isEmpty = false := by cases k : s.nib.fatal <;> simp_all
  apply reported_quiet
  unfold State.settlePkg State.openService State.mayServe
  simp only [f, Bool.not_false, if_true, Bool.false_and, Bool.false_eq_true, if_false]
  refine .trans ?_ (State.foldl_reported (fun (a : State) (x : FailEntry) =>
    a.blot { cls := 0x0206, src := ⟨5, x.die⟩, detail := [(fieldOf (failBytes x) 0 16, 16)] } [ringG]) (fun _ _ => State.blot_reported ..) _ _)
  refine .trans ?_ (State.setReg_reported ..)
  split
  · exact .trans (State.setReg_reported ..) (State.foldl_reported (fun (a : State) p => a.setPart p (if s.parts.contains p then 4 else 0))
      (fun _ _ => State.setReg_reported ..) _ _)
  · exact State.setReg_reported ..
theorem raiseBootMin_quiet (s : State) : quiet s.raiseBootMin = quiet s := by
  unfold State.raiseBootMin
  dsimp only
  split
  · rfl
  · split
    · rfl
    · exact reported_quiet (State.blot_reported ..)
theorem doStartDone_quiet (s : State) (o : FolioOp) (k : Nat) (h5 : s.stage = 5) (ho : s.folio.op = some o) (hk : o.slot = some k)
    (hd : ((s.loadFull o).replayPatches o.patches).nib.down = false) (hf : ((s.loadFull o).replayPatches o.patches).nib.fatal ≠ []) :
    quiet s.doStartDone = quiet ((s.loadFull o).replayPatches o.patches) := by
  have a : quiet (s.startApplied o k) = quiet ((s.loadFull o).replayPatches o.patches) := by
    unfold State.startApplied
    exact (measChanged_quiet ..).trans ((reported_quiet (State.blot_reported ..)).trans rfl)
  have na : (s.startApplied o k).nib = ((s.loadFull o).replayPatches o.patches).nib := congrArg (·.2.2) a
  have b := (settlePkg_quiet (s.startApplied o k) true (by rw [na]; exact hf)).trans a
  have c (u v : State) (hu : quiet u = quiet ((s.loadFull o).replayPatches o.patches)) :
      quiet ((u.raiseBootMin.measChanged v).shutdownBegin) = quiet ((s.loadFull o).replayPatches o.patches) := by
    have q := (measChanged_quiet u.raiseBootMin v).trans ((raiseBootMin_quiet u).trans hu)
    have n : (u.raiseBootMin.measChanged v).nib.down = false := (congrArg (·.2.2.down) q).trans hd
    unfold State.shutdownBegin
    simp only [n, Bool.false_and, Bool.false_eq_true, if_false]
    exact q
  unfold State.doStartDone
  simp only [h5, bne_self_eq_false, Bool.false_eq_true, if_false, ho, hk]
  exact c _ _ b
theorem setMed_none {s : State} (h : s.memc.med = []) : s.setMed [] = s := by
  unfold State.setMed
  rw [← h]
theorem ready_quiet {s : State} {f : State → State} (e : s.setMed [] = s) (h : (f s).memc.due = [] ∧ (f s).host.needs = []) : Ready s [] f s := by
  unfold Ready
  rw [e]
  simp only [h, and_self, if_true]
theorem start_ready (s : State) (o : FolioOp) (k : Nat) (h5 : s.stage = 5) (ho : s.folio.op = some o) (hk : o.slot = some k) (hm : s.memc.med = [])
    (hd : ((s.loadFull o).replayPatches o.patches).nib.down = false) (hf : ((s.loadFull o).replayPatches o.patches).nib.fatal ≠ [])
    (hq : ((s.loadFull o).replayPatches o.patches).memc.due = [] ∧ ((s.loadFull o).replayPatches o.patches).host.needs = []) :
    Ready s [] State.doStartDone s :=
  have q := doStartDone_quiet s o k h5 ho hk hd hf
  ready_quiet (setMed_none hm) ⟨(congrArg (·.1) q).trans hq.1, (congrArg (·.2.1) q).trans hq.2⟩
theorem test_start_load_premises : Ready startLoadS [] State.doStartDone startLoadS ∧ startLoadS.stage = 5 ∧ startLoadS.nib.down = false ∧
    startLoadS.folio.op = some startOp ∧ startOp.slot = some 1 ∧ startOp.patches = [] := by
  have h : (startLoadS.stage = 5 ∧ startLoadS.folio.op = some startOp ∧ startOp.slot = some 1 ∧ startLoadS.memc.med = []) ∧
      startLoadS.nib.down = false ∧ startOp.patches = [] := by decide +kernel
  have k : ((startLoadS.loadFull startOp).replayPatches startOp.patches).nib.down = false ∧
      ((startLoadS.loadFull startOp).replayPatches startOp.patches).nib.fatal ≠ [] ∧
      ((startLoadS.loadFull startOp).replayPatches startOp.patches).memc.due = [] ∧
      ((startLoadS.loadFull startOp).replayPatches startOp.patches).host.needs = [] := by decide +kernel
  generalize startLoadS = s at h k ⊢
  exact ⟨start_ready s startOp 1 h.1.1 h.1.2.1 h.1.2.2.1 h.1.2.2.2 k.1 k.2.1 k.2.2, h.1.1, h.2.1, h.1.2.1, h.1.2.2.1, h.2.2⟩

def ownS (l : List Nat) (d : Option Nat) : State := { run6 with flash := { run6.flash with owners := l }, nib := { run6.nib with owner := d } }
theorem test_owner_premises : bit 1 0 = true ∧ (ownS [] none).nib.owner = none ∧ (ownS [] none).flash.owners.length < 4 ∧
    ((zs 144).length = 144 ∧ ∀ k, (ownS [] none).flash.owners.getLast? = some k → Config.ecdsaVerify k ((zs 144).take 48 ++ natBytes 8 Config.serial) (fieldOf (zs 144) 48 96) = true) ∧
    4 ≤ (ownS [1, 2, 3, 4] none).flash.owners.length ∧ (zs 143).length ≠ 144 ∧ (ownS [1] (some 9)).nib.owner = some 9 :=
  ⟨by decide, rfl, by decide, ⟨by decide +kernel, nofun⟩, by decide, by decide +kernel, rfl⟩

theorem test_install_premises : bit 0x100001 0 = true ∧ bits 0x100001 31 8 = 4096 ∧ run6.nib.install = none ∧ run6.nib.down = false ∧ bootImg.length = 4096 ∧
    fieldOf bootImg 16 4 = 4096 ∧ counterOf run6.flash.bootRows ≤ bfwSecver bootImg ∧ ((∀ m g, Config.ecdsaVerify Config.bootKeyId m g = true) → bfwSigned bootImg = true) ∧
    ((∀ m g, Config.ecdsaVerify Config.bootKeyId m g = false) → bfwSigned bootImg = false) ∧
    (let s := { bootS 6 1 [bootImg, []] with nib := { run6.nib with install := some bootImg } }
     s.nib.install = some bootImg ∧ s.flash.bootSlot = 1) :=
  ⟨by decide, by decide, rfl, rfl, by decide +kernel, by decide +kernel, by decide +kernel, fun v => v _ _, fun v => v _ _, rfl, rfl⟩

theorem test_spdm_premises : let s := portsS 3 false []
    s.alive = true ∧ s.portUp 1 = true ∧ 1 ≤ s.stage ∧ s.stage ≤ 6 ∧ s.phase ≠ 5 := by decide +kernel

/-- The shutdown in PHASE `n`. -/
def downS (n : Nat) (test : Bool) : State := { run6.setReg 0x800014 n with nib := { run6.nib with down := true, test := test } }
theorem test_shutdown_premises :
    (downS 0 false).nib.down = true ∧ 5 % 4 = 1 ∧ 6 % 4 = 2 ∧ bit 6 2 = true ∧ run6.nib.down = false ∧ run6.phase = 0 ∧ run6.folio.op = none ∧ run6.stage = 6 ∧
    0 ∈ run6.parts ∧ run6.serving 0 = true ∧
    (let s := { downS 1 false with sched := { run6.sched with cmds := [(cidOf 0 0, { st := .fetched })] } }
     s.phase = 1 ∧ cidOf 0 0 ∈ s.cids ∧ (s.cmd (cidOf 0 0)).st = .fetched) ∧
    (∀ t ∈ [true, false], (downS 2 t).phase = 2 ∧ (downS 2 t).nib.test = t) ∧ (downS 3 true).phase = 3 ∧ Instr.wf (.bistComplete [entry1] 640 (-5)) = true ∧ (7 : Nat) < 8 ∧
    (downS 4 true).phase = 4 := by decide +kernel

/-! ## Blot rings, probes and suspects -/

/-- Ring G enabled at HV address 0x5000 of port 0 with 4,096 records written and all but two released. -/
def blotS : State :=
  let s := ((portsS 3 false []).setReg 0x30000 (2 ^ 62 + 0x5000)).setReg 0x30008 1
  { s.setReg 0x3000C 4094 with flt := { s.flt with rings := [(16, { k := 4096, released := 4094 })] } }
theorem test_ring_premises :
    (let s := blotS
     s.ringOn 16 = true ∧ s.ringFull 16 = false ∧ s.ringBroken 16 = false ∧ (s.ring 16).held = [] ∧ (s.ring 16).lostN = 0 ∧ s.regsOpen = true ∧ s.ringOn 0 = false ∧
     s.reg (ringReg 16 + 0xC) = 4094) ∧
    (∀ x ∈ [(4095, 1), (4094, 0), (0, 2)], let n := ringSize 16
      bits x.1 11 0 < n ∧ (bits x.1 11 0 + n - blotS.reg (ringReg 16 + 0xC)) % n = x.2 ∧ x.2 ≤ (blotS.ring 16).k - (blotS.ring 16).released) ∧
    (blotS.ring 16).k - (blotS.ring 16).released < (1 + ringSize 16 - 4094) % ringSize 16 ∧ ringSize 0 ≤ bits 4095 11 0 ∧
    (let s := { blotS.setReg 0x30400 (16 * 65536) with flt := { blotS.flt with ovf := [(16 * 65536 + 0x109, {}), (0x109, {})] } }
     s.regsOpen = true ∧ s.field 0x30400 20 16 = 16 ∧ s.flt.ovf.length = 2) := by decide +kernel

def probeS (ps : List Probe) : State :=
  let s := run6.setReg 0x30800 0x101
  { s with flt := { s.flt with probes := ps, launches := [(127, 1)] } }
theorem test_probe_premises :
    (let s := probeS []
     (s.tile 127).task = none ∧ s.tileConfined 127 = false ∧ s.tileRetired 127 = false ∧ s.probing 1 127 = false ∧ s.probeDue 127 = true ∧ bit (s.reg 0x30800) 0 = true ∧
     bit (s.reg 0x30800) 8 = true ∧ s.flt.probes = [] ∧ s.units.te = [] ∧ s.units.upd = [] ∧ s.units.ses = [] ∧ s.units.red = [] ∧ s.retired 2 14 = false ∧
     s.retired 2 15 = false ∧ s.unitConfined 3 14 = false ∧ s.unitConfined 3 15 = false ∧ s.regsOpen = true ∧ bit (s.reg 0x30808) 0 = false) ∧
    (∀ v ∈ [0x3F0000, 0x3F3010, 0x3F2000], (bits v 15 12 ≠ 1 ∧ bits v 15 12 ≠ 3) ∨ (bits v 15 12 = 3 ∧ 16 ≤ bits v 6 0)) ∧
    bits 0x1F107F 15 12 = 1 ∧ bits 0x1F107F 6 0 = 127 ∧ bits 0x1F107F 31 16 &&& 0x3F = 0x1F ∧
    (∀ p ∈ [(⟨1, 127, 0x3F, 0⟩ : Probe), ⟨3, 15, 0x40, 2⟩, ⟨4, 55, 0x100, 1⟩], let s := probeS [p]
      Instr.wf (.probeComplete p.kind p.num 0x1FF) = true ∧ s.flt.probes.find? (fun q => q.kind == p.kind && q.num == p.num) = some p ∧
      s.probeFree p.kind p.num = true ∧ bitList 16 (0x1FF &&& p.sets) ≠ [] ∧ s.retired (p.kind - 1) p.num = false) := by decide +kernel

/-- Tile 127 or engine 15 in its procedure at stage `st` with `n` events. -/
def susS (kind num st n : Nat) : State :=
  { run6.setReg 0x30C00 7 with flt := { run6.flt with suspects := [⟨kind, num, 0x701, st, true⟩], units := [(unitKey kind num, { events := List.replicate n 0 })] } }
theorem test_suspect_premises :
    (∀ x ∈ [(1, 127, 0, 1), (3, 15, 1, 2), (1, 127, 6, 2), (1, 127, 2, 3)], let s := susS x.1 x.2.1 x.2.2.1 x.2.2.2
      s.flt.suspects.find? (fun u => u.running && dieOfUnit u.kind u.num == 7) = some ⟨x.1, x.2.1, 0x701, x.2.2.1, true⟩ ∧ nth s.memc.halt 7 false = false ∧
      s.unitIdle (x.1 - 1) x.2.1 = true ∧ bit (s.reg 0x30C00) 0 = true ∧ (s.strikes x.1 x.2.1 < s.field 0x30C00 4 1 ↔ x.2.2.2 < 3)) ∧
    nextStage 1 1 = some 1 ∧ nextStage 3 2 = some 3 ∧ nextStage 1 7 = none ∧ setsOf 1 ≠ 0 ∧ 0x200 &&& setsOf 1 = 0 := by decide +kernel
theorem test_lead_premises : let s := { run6 with pace := { run6.pace with time := 1000000 } }
    s.stage = 6 ∧ s.leadDie ≠ 4 ∧ s.flt.beatAt + 1000000 ≤ s.time := by decide +kernel

/-! ## Ill-formed commands, one for each check of WellFormed -/

def vin : VIns := ⟨31, 31, 31, 31, 7, true, 15, 3, 2 ^ 24 - 1⟩
/-- A word whose CLASS is 6, which is no row's. -/
def vbad : Nat := vword 768 vin
def illFormed : List Instr :=
  [.registerWrite 2 0 4 0, .registerWrite 1 0x4000000 4 0, .registerWrite 1 0 65 0, .registerWrite 1 0 8 (2 ^ 64), .rcRegisterRead 2 0 4, .splitRegisterAccess 0 0 (some (2 ^ 32)),
   .paceWindowEnd [], .paceWindowEnd (List.replicate 8 ⟨[1, 2, 3, 4], 0, 0, 0, 0⟩), .vcoreAdjust 8 0, .vcoreAdjust 7 4096, .ptpMessageReceive 8 0 0 0 0 0,
   .ptpMessageReceive 7 8 0 0 0 0, .ptpMessageReceive 7 7 16 0 0 0, .unitRetire 3 0, .unitRetire 0 128, .unitRetire 1 32, .unitRetire 2 16]
  ++ [.engineStep 128 0 0 false none [], .engineStep 127 2 0 false none [], .engineStep 127 1 2 false none [], .engineStep 127 1 1 false none [(256, 0, 0)], .bankDrain 127 1 2 none,
   .chkTestWrite 0 127 2 0, .layer 128 [], .semAcq 127 32 0 [], .vadd 128 (vword 0 vin), .vadd 0 (2 ^ 64), .vadd 0 (vword 1 vin), .vsub 0 (vword 0 vin), .vcvt 0 (vword 129 vin),
   .smerge 0 (vword 642 vin), .smerge 128 vbad]
  ++ [.mergeUnitTaken 8 0 0, .mergeUnitTaken 0 4096 0, .mergeUnitTaken 0 0 (2 ^ 23), .seta 0 16, .move 128 0, .clusterCacheFill 32 0 .ok .ok, .agingSweep 0 65536,
   .t3WindowWrite 0 8 false 0, .hostLinkUp 0 0 6 16, .hostLinkUp 0 4 6 16, .hostLinkUp 0 3 8 16, .hostLinkUp 0 3 6 32, .hdmDecoderCommit 0 2 0 0, .msixSend 0 2048,
   .modelLoadComplete 16 0 0 0 (true, []), .modelLoadComplete 0 0 32 0 (true, [])]
  ++ [.fabricLinkUp 0 0 4, .ackDelayTimer 65536, .retransmitTimeout 0 (2 ^ 32), .postWordWrite 0 0 16 0, .trainingComplete [], .startTestComplete (List.replicate 1025 ⟨0, 0, 0, 0, 0⟩),
   .startTestComplete [⟨7, 0, 0, 0, 0⟩], .startTestComplete [⟨0, 8, 0, 0, 0⟩], .bistComplete [⟨0, 0, 128, 0, 0⟩] 0 0, .bistComplete [⟨1, 0, 32, 0, 0⟩] 0 0,
   .bistComplete [⟨2, 0, 16, 0, 0⟩] 0 0, .bistComplete [⟨5, 0, 64, 0, 0⟩] 0 0, .shutdownOff 0 2, .shutdownTest 0 1, .fltHeadWrite 0 17 0, .probeComplete 5 0 0, .probeComplete 4 128 0]

theorem test_ill_formed : ∀ i ∈ illFormed, Instr.wf i = false := by decide +kernel
/-- The same fields at the ends of their ranges are taken. -/
theorem test_well_formed : ∀ i ∈ ([.registerWrite 1 0x3FFFFFF 64 (2 ^ 64 - 1), .vcoreAdjust 7 4095, .unitRetire 0 127, .engineStep 127 1 1 true none [(255, 0, 0)], .vadd 127 (vword 0 vin), .vadd 127 vbad, .ptpMessageReceive 7 7 15 0 0 0, .seta 127 15,
    .mergeUnitTaken 7 4095 (2 ^ 23 - 1), .hostLinkUp 1 3 7 31, .fabricLinkUp 7 7 3, .retransmitTimeout 65535 (2 ^ 32 - 1), .fltHeadWrite 1 16 0, .probeComplete 4 127 0,
    .startTestComplete [⟨6, 7, 9, 0, 0⟩], .shutdownOff 0 1, .shutdownTest 0 2] : List Instr), Instr.wf i = true := by decide +kernel
end Sys2Proof.Tests
end

section
/-!
The register map: where the registers of a row lie, and the reset values of registers (R9, R11, R478).
-/
namespace Sys2Proof.Machine

/-! ## Where a row's registers lie -/

/-- All rows of the register map (Table 21.1). -/
def regRows : List RegRow :=
  regRowsGlb ++ regRowsPart ++ regRowsTile ++ regRowsMem ++ regRowsTe ++ regRowsHost ++ regRowsFab ++ regRowsNib

/-- The indices of the row move its offset by multiples of `m`. -/
def RegRow.spaced (r : RegRow) (m : Nat) : Bool := (r.n ≤ 1 || r.stride % m == 0) && (r.n2 ≤ 1 || r.stride2 % m == 0)

/-- An index range below `n` moves by a multiple of `m`, whose stride is one or whose index is 0 alone. -/
theorem dvd_stride_mul {m n stride q : Nat} (h : n ≤ 1 ∨ stride % m = 0) (hq : q < n) : m ∣ stride * q := by
  obtain hn | hs := h
  · obtain rfl : q = 0 := by omega
    exact Nat.dvd_zero m
  · exact Nat.dvd_mul_right_of_dvd (Nat.dvd_of_mod_eq_zero hs) q

/-- Each register of a row lies at the row's base, modulo what its indices move it by. -/
theorem RegRow.hit_mod {r : RegRow} {off m : Nat} (h : r.hit off = true) (hm : r.spaced m = true) : off % m = r.base % m := by
  simp only [RegRow.hit, Bool.and_eq_true, decide_eq_true_eq, beq_iff_eq] at h
  simp only [RegRow.spaced, Bool.and_eq_true, Bool.or_eq_true, decide_eq_true_eq, beq_iff_eq] at hm
  obtain ⟨⟨⟨hb, hi⟩, hy⟩, hj⟩ := h
  obtain ⟨hs, hs2⟩ := hm
  have hx : off - r.base = r.stride * ((off - r.base) / r.stride) + r.stride2 * ((off - r.base) % r.stride / r.stride2) := by
    rw [Nat.mul_div_cancel' (Nat.dvd_of_mod_eq_zero hy), Nat.div_add_mod]
  obtain ⟨c, hc⟩ : m ∣ off - r.base := hx ▸ Nat.dvd_add (dvd_stride_mul hs hi) (dvd_stride_mul hs2 hj)
  rw [show off = r.base + m * c by omega, Nat.add_mul_mod_self_left]

theorem regRow?_hit {off : Nat} {r : RegRow} (h : regRow? off = some r) : r.hit off = true :=
  List.find?_some (p := (RegRow.hit · off)) h

/-- The register at an offset is of a row of its block. -/
theorem regRow?_mem_at {off : Nat} {r : RegRow} (h : regRow? off = some r) : r ∈ regRowsAt off := List.mem_of_find?_eq_some h

theorem regRow?_mem {off : Nat} {r : RegRow} (h : regRow? off = some r) : r ∈ regRows := by
  have hm := regRow?_mem_at h
  simp only [regRows, List.mem_append]
  unfold regRowsAt at hm
  repeat' split at hm
  all_goals simp_all only [true_or, or_true, List.not_mem_nil]

/-- Rows are 32 or 64 bits wide, at bases and strides of their width (R11). -/
theorem regRows_width : ∀ r ∈ regRows, (r.width = 32 ∨ r.width = 64) ∧ r.spaced (r.width / 8) = true ∧ r.base % (r.width / 8) = 0 := by
  decide +kernel

/-- Registers are 32 or 64 bits wide and aligned (R11). -/
theorem regRow?_aligned {off : Nat} {r : RegRow} (h : regRow? off = some r) :
    (r.width = 32 ∨ r.width = 64) ∧ off % (r.width / 8) = 0 := by
  obtain ⟨hw, hs, hb⟩ := regRows_width r (regRow?_mem h)
  exact ⟨hw, (RegRow.hit_mod (regRow?_hit h) hs).trans hb⟩

/-! ## Reset values -/

/-- GLB_ID alone, the first row, has a reset value that rests on the grade (R2). -/
theorem regRows_reset_lt : ∀ r ∈ regRows, r.reset < 2 ^ 64 := by
  simp only [regRows, regRowsGlb, List.cons_append, List.forall_mem_cons]
  refine ⟨?_, by decide +kernel⟩
  cases Config.gradeE <;> decide

/-- What reset values have in common with 0, register values do. -/
theorem regReset_induct {P : Nat → Prop} (k : Nat) (h0 : P 0) (h : ∀ r, regRow? k = some r → P r.reset) : P (regReset k) := by
  unfold regReset
  split
  · split
    next r hr => exact h r hr
    · exact h0
  · exact h0

theorem regReset_lt (k : Nat) : regReset k < 2 ^ 64 :=
  regReset_induct (P := (· < 2 ^ 64)) k (by decide) fun r hr => regRows_reset_lt r (regRow?_mem hr)

/-- Rows from the HOST block up whose reset value is odd lie at no multiple of 256. -/
theorem regRows_reset_odd : ∀ r ∈ regRowsHost ++ regRowsFab ++ regRowsNib, r.reset % 2 = 0 ∨
    ∃ m ∈ [16, 128], r.spaced m = true ∧ r.base % m ≠ 0 := by decide +kernel

/-- From the HOST block up, what lies at a multiple of 256 has bit 0 clear at reset. -/
theorem regReset_even {k : Nat} (hk : 0x320000 ≤ k) (h : k % 256 = 0) : regReset k % 2 = 0 := by
  refine regReset_induct (P := fun v => v % 2 = 0) k rfl fun r hr => ?_
  have hm : r ∈ regRowsHost ++ regRowsFab ++ regRowsNib := by
    have := regRow?_mem_at hr
    rw [regRowsAt, if_neg (by omega), if_neg (by omega), if_neg (by omega), if_neg (by omega), if_neg (by omega)] at this
    simp only [List.mem_append]
    repeat' split at this
    all_goals simp_all only [true_or, or_true, List.not_mem_nil]
  obtain he | ⟨m, hm, hs, hb⟩ := regRows_reset_odd r hm
  · exact he
  · have := RegRow.hit_mod (regRow?_hit hr) hs
    simp only [List.mem_cons, List.not_mem_nil, or_false] at hm
    obtain rfl | rfl := hm <;> omega

theorem State.reset_reg_eq (k : Nat) : State.reset.reg k = regReset k := by
  rw [State.reset_reg, Nat.mod_eq_of_lt (regReset_lt k)]

theorem State.reset_portUp (p : Nat) : State.reset.portUp p = false := by
  have := regReset_even (k := 0x320000 + 0x100 * p) (by omega) (by omega)
  simp [State.portUp, bit, this]

theorem State.reset_shaped : State.reset.Shaped := by
  simp [State.Shaped, State.reset, Settled]

end Sys2Proof.Machine
end

section
open Sys2Proof Sys2Proof.Machine

/-- Settles O32: registers by the rows of the map, the rest by the state's own fields. -/
theorem resetValues : Obligations.ResetValues := by
  unfold Obligations.ResetValues
  refine ⟨rfl, State.reset_shaped, rfl, rfl, rfl, rfl, State.reset_reg_eq, ?_, ?_, ?_, ?_, ?_, ?_, ?_, ?_, ?_, State.reset_portUp, ?_, by decide,
    fun _ => rfl, fun _ => rfl, fun _ => rfl⟩
  all_goals simp only [State.reset_reg_eq, State.inside, State.stage, State.field, State.ringOn]; decide +kernel
end

section
/-!
The latches and holds of R12: what changing them leaves alone, and that no register's reading rests on them.
-/
namespace Sys2Proof.Machine

/-- The state with other latched upper and held lower halves. -/
def State.withHalves (s : State) (l h : Tbl Nat) : State := { s with latch := l, held := h }

theorem State.whole64_eq (s : State) (port k : Nat) : s.whole64 port k =
    s.withHalves (Tbl.set 0 s.latch (halfKey port k) 0) (Tbl.set 0 s.held (halfKey port k) 0) := rfl

theorem State.setHeld_get_same (s : State) (key v : Nat) : Tbl.get 0 (s.setHeld key v).held key = v := Tbl.get_set_same 0 s.held key v
theorem State.setHeld_get_other (s : State) {key k : Nat} (v : Nat) (hk : k ≠ key) : Tbl.get 0 (s.setHeld key v).held k = Tbl.get 0 s.held k :=
  Tbl.get_set_other 0 s.held v hk
theorem State.setLatch_get_same (s : State) (key v : Nat) : Tbl.get 0 (s.setLatch key v).latch key = v := Tbl.get_set_same 0 s.latch key v
theorem State.setLatch_get_other (s : State) {key k : Nat} (v : Nat) (hk : k ≠ key) :
    Tbl.get 0 (s.setLatch key v).latch k = Tbl.get 0 s.latch k := Tbl.get_set_other 0 s.latch v hk

@[simp] theorem State.setHeld_reg (s : State) (key v k : Nat) : (s.setHeld key v).reg k = s.reg k := rfl
@[simp] theorem State.whole64_reg (s : State) (port off k : Nat) : (s.whole64 port off).reg k = s.reg k := rfl

/-- An access of the whole register leaves nothing latched and nothing held of it (R12). -/
theorem State.whole64_latch (s : State) (port k : Nat) : Tbl.get 0 (s.whole64 port k).latch (halfKey port k) = 0 :=
  State.setLatch_get_same ..
theorem State.whole64_held (s : State) (port k : Nat) : Tbl.get 0 (s.whole64 port k).held (halfKey port k) = 0 :=
  State.setHeld_get_same s (halfKey port k) 0

section
variable (s : State) (l h : Tbl Nat)

@[simp] theorem State.withHalves_latch : (s.withHalves l h).latch = l := rfl
@[simp] theorem State.withHalves_held : (s.withHalves l h).held = h := rfl
@[simp] theorem State.withHalves_pending : (s.withHalves l h).pending = s.pending := rfl
@[simp] theorem State.withHalves_reg (k : Nat) : (s.withHalves l h).reg k = s.reg k := rfl
@[simp] theorem State.withHalves_mem : (s.withHalves l h).mem = s.mem := rfl
@[simp] theorem State.withHalves_out : (s.withHalves l h).out = s.out := rfl
@[simp] theorem State.withHalves_tiles : (s.withHalves l h).tiles = s.tiles := rfl
@[simp] theorem State.withHalves_memc : (s.withHalves l h).memc = s.memc := rfl
@[simp] theorem State.withHalves_host : (s.withHalves l h).host = s.host := rfl
@[simp] theorem State.withHalves_writeBarred (k : Nat) : (s.withHalves l h).writeBarred k = s.writeBarred k := rfl

/-! ## No reading of a register rests on them -/

theorem State.withHalves_insertReady (c : Nat) (cs : List Nat) : (s.withHalves l h).insertReady c cs = s.insertReady c cs := by
  induction cs with
  | nil => rfl
  | cons x xs ih => simp only [State.insertReady, ih]; rfl

theorem State.withHalves_acctStatus (p : Nat) : (s.withHalves l h).acctStatus p = s.acctStatus p := by
  have hr : (s.withHalves l h).readyList p = s.readyList p := by simp only [State.readyList, State.withHalves_insertReady]; rfl
  simp only [State.acctStatus, hr]
  rfl

theorem State.withHalves_viewPart (k : Nat) : (s.withHalves l h).viewPart k = s.viewPart k := by
  unfold State.viewPart
  rw [funext (s.withHalves_acctStatus l h)]
  rfl

/-- Branch by branch, for the kernel compares the whole by computing offsets in unary. -/
theorem State.withHalves_viewTile (k : Nat) : (s.withHalves l h).viewTile k = s.viewTile k := by
  unfold State.viewTile
  refine ite_congr rfl (fun _ => rfl) fun _ => ite_congr rfl (fun _ => rfl) fun _ => ite_congr rfl (fun _ => rfl) fun _ =>
    ite_congr rfl (fun _ => rfl) fun _ => ite_congr rfl (fun _ => rfl) fun _ => ite_congr rfl (fun _ => rfl) fun _ =>
    ite_congr rfl (fun _ => rfl) fun _ => ite_congr rfl (fun _ => ?_) fun _ => rfl
  dsimp only
  split <;> rfl

@[simp] theorem State.withHalves_view (k : Nat) : (s.withHalves l h).view k = s.view k := by
  simp only [State.view, State.withHalves_viewPart, State.withHalves_viewTile]
  rfl

@[simp] theorem State.withHalves_shown (k : Nat) (r : RegRow) : (s.withHalves l h).shown k r = s.shown k r := by
  simp only [State.shown, State.withHalves_view]

end

end Sys2Proof.Machine
end

section
/-!
BAR0 accesses by the case they fall in (R9-R12, R440, R479): one equation per case of a read and of a write.
-/
namespace Sys2Proof.Machine

/-! ## One read of a register -/

theorem State.readReg_fst (s : State) (k : Nat) (r : RegRow) : (s.readReg k r).1 = s.shown k r := by
  unfold State.readReg State.shown; split <;> rfl

/-- A read of a register clears it or does nothing. -/
theorem State.readReg_snd (s : State) (k : Nat) (r : RegRow) :
    (s.readReg k r).2 = if r.wo = false ∧ r.rc ≠ 0 then s.setReg k 0 else s := by
  unfold State.readReg; cases r.wo <;> by_cases h : r.rc = 0 <;> simp [h]

theorem State.readReg_once (s : State) (k : Nat) (r : RegRow) : ReadOnce s (s.readReg k r).2 k r := by
  rw [ReadOnce, State.readReg_snd]
  split
  · exact ⟨by simp, fun j hj => State.setReg_reg_other s 0 hj⟩
  · exact ⟨rfl, fun _ _ => rfl⟩

/-- What setting a register leaves alone, a read of one leaves alone. -/
theorem State.readReg_field {α : Type} (f : State → α) (hf : ∀ (s : State) (k v : Nat), f (s.setReg k v) = f s) (s : State) (k : Nat)
    (r : RegRow) : f (s.readReg k r).2 = f s := by
  rw [State.readReg_snd]; split
  · exact hf s k 0
  · rfl

@[simp] theorem State.readReg_pending (s : State) (k : Nat) (r : RegRow) : (s.readReg k r).2.pending = s.pending :=
  State.readReg_field State.pending State.setReg_pending s k r
@[simp] theorem State.readReg_latch (s : State) (k : Nat) (r : RegRow) : (s.readReg k r).2.latch = s.latch :=
  State.readReg_field State.latch State.setReg_latch s k r
@[simp] theorem State.readReg_held (s : State) (k : Nat) (r : RegRow) : (s.readReg k r).2.held = s.held :=
  State.readReg_field State.held State.setReg_held s k r
@[simp] theorem State.readReg_mem (s : State) (k : Nat) (r : RegRow) : (s.readReg k r).2.mem = s.mem :=
  State.readReg_field State.mem State.setReg_mem s k r
@[simp] theorem State.readReg_out (s : State) (k : Nat) (r : RegRow) : (s.readReg k r).2.out = s.out :=
  State.readReg_field State.out State.setReg_out s k r
@[simp] theorem State.readReg_memc (s : State) (k : Nat) (r : RegRow) : (s.readReg k r).2.memc = s.memc :=
  State.readReg_field State.memc State.setReg_memc s k r
@[simp] theorem State.readReg_host (s : State) (k : Nat) (r : RegRow) : (s.readReg k r).2.host = s.host :=
  State.readReg_field State.host State.setReg_host s k r

/-! ## Reads by case -/

/-- The block answers at `off`: its boot firmware runs, or GLB_ID or a NIB register lies there (R440). -/
def State.Answers (s : State) (off : Nat) : Prop := s.stage ≠ 15 ∨ nibOffset off = true

theorem State.Answers.iff (s : State) (off : Nat) : s.Answers off ↔ (decide (s.stage = 15) && !nibOffset off) = false := by
  by_cases h : s.stage = 15 <;> simp [State.Answers, h]

theorem State.not_answers_iff (s : State) (off : Nat) : ¬ s.Answers off ↔ s.stage = 15 ∧ nibOffset off = false := by
  simp [State.Answers, not_or]

/-- An access the bus can take: of 32 or 64 bits, and aligned (R11). -/
def SizeOk (off size : Nat) : Prop := (size = 4 ∨ size = 8) ∧ off % size = 0

theorem SizeOk.iff (off size : Nat) : SizeOk off size ↔ ((size != 4 && size != 8) || off % size != 0) = false := by
  simp only [SizeOk, Bool.or_eq_false_iff, Bool.and_eq_false_iff, bne_eq_false_iff_eq]

theorem not_sizeOk_iff (off size : Nat) : ¬ SizeOk off size ↔ (size ≠ 4 ∧ size ≠ 8) ∨ off % size ≠ 0 := by
  simp only [SizeOk]; omega

/-- No register lies in the upper half at `off`: a 4-byte access there reaches none. -/
def NoUpperHalf (off : Nat) : Prop := off % 8 = 0 ∨ regRow? (off - 4) = none ∨ ∃ r, regRow? (off - 4) = some r ∧ r.width ≠ 64

/-- The halves of a 64-bit register at `off` are 4-byte accesses. -/
theorem halves_aligned {off : Nat} {r : RegRow} (hr : regRow? off = some r) (hw : r.width = 64) :
    off % 4 = 0 ∧ (off + 4) % 4 = 0 ∧ (off + 4) % 8 = 4 := by
  have hal := (regRow?_aligned hr).2
  rw [hw] at hal
  omega

/-- What an access of a whole register of 64 bits discards; one of 32 bits discards nothing (R12). -/
def State.joined (s : State) (port off : Nat) (r : RegRow) : State := if r.width = 64 then s.whole64 port off else s

variable {s : State} {port off size : Nat} {r : RegRow}

theorem State.busRead_unanswered (h : ¬ s.Answers off ∨ ¬ SizeOk off size) : s.busRead port off size = (2 ^ (8 * size) - 1, s) := by
  rw [State.Answers.iff, SizeOk.iff, Bool.not_eq_false, Bool.not_eq_false] at h
  unfold State.busRead
  dsimp only
  by_cases ha : (decide (s.stage = 15) && !nibOffset off) = true
  · rw [if_pos ha]
  · rw [if_neg ha, if_pos (h.resolve_left ha)]

/-- The whole of a register is read. -/
theorem State.busRead_whole (ha : s.Answers off) (hr : regRow? off = some r) :
    s.busRead port off (r.width / 8) = (s.joined port off r).readReg off r := by
  obtain ⟨hw, hal⟩ := regRow?_aligned hr
  rw [State.Answers.iff] at ha
  obtain hw | hw := hw <;> rw [hw] at hal ⊢ <;> simp_all [State.busRead, State.joined]

/-- The lower half of a 64-bit register is read: its upper half is latched (R12). -/
theorem State.busRead_lower (ha : s.Answers off) (hr : regRow? off = some r) (hw : r.width = 64) :
    s.busRead port off 4 = (s.shown off r % 2 ^ 32, (s.readReg off r).2.setLatch (halfKey port off) (s.shown off r / 2 ^ 32 + 1)) := by
  have h4 := (halves_aligned hr hw).1
  rw [State.Answers.iff] at ha
  simp [State.busRead, ha, hr, hw, h4, State.readReg_fst]

/-- The upper half of the 64-bit register at `off` is read: what was latched, or else the register anew (R12). -/
theorem State.busRead_upper_latched (ha : s.Answers (off + 4)) (hn : regRow? (off + 4) = none) (hr : regRow? off = some r) (hw : r.width = 64)
    {h : Nat} (hl : Tbl.get 0 s.latch (halfKey port off) = h + 1) : s.busRead port (off + 4) 4 = (h, s.setLatch (halfKey port off) 0) := by
  obtain ⟨-, h4, h8⟩ := halves_aligned hr hw
  rw [State.Answers.iff] at ha
  simp [State.busRead, ha, hn, hr, hw, h4, h8, hl]

theorem State.busRead_upper_fresh (ha : s.Answers (off + 4)) (hn : regRow? (off + 4) = none) (hr : regRow? off = some r) (hw : r.width = 64)
    (hl : Tbl.get 0 s.latch (halfKey port off) = 0) : s.busRead port (off + 4) 4 = (s.shown off r / 2 ^ 32, (s.readReg off r).2) := by
  obtain ⟨-, h4, h8⟩ := halves_aligned hr hw
  rw [State.Answers.iff] at ha
  simp [State.busRead, ha, hn, hr, hw, h4, h8, hl, State.readReg_fst]

/-- An 8-byte read of less than a register, or across the start of one, reads ones (R11). -/
theorem State.busRead_across (h : ∃ r, regRow? off = some r ∧ r.width ≠ 64) : s.busRead port off 8 = (2 ^ 64 - 1, s) := by
  obtain ⟨r, hr, hw⟩ := h
  simp [State.busRead, hr, hw]
theorem State.busRead_before (hn : regRow? off = none) (h : ∃ r, regRow? (off + 4) = some r) : s.busRead port off 8 = (2 ^ 64 - 1, s) := by
  obtain ⟨r, hr⟩ := h
  simp [State.busRead, hn, hr]

/-- A 4-byte read where no register lies reads 0 (R479). -/
theorem State.busRead_noRegister (ha : s.Answers off) (hal : off % 4 = 0) (hn : regRow? off = none) (hu : NoUpperHalf off) :
    s.busRead port off 4 = (0, s) := by
  rw [State.Answers.iff] at ha
  obtain h | h | ⟨r, hr, hw⟩ := hu
  · simp [State.busRead, ha, hal, hn, h]
  · simp [State.busRead, ha, hal, hn, h]
  · simp [State.busRead, ha, hal, hn, hr, hw]

/-! ## Writes by case -/

theorem State.busWrite_unanswered {value : Nat} (ha : ¬ s.Answers off) : s.busWrite port off size value = s := by
  rw [State.Answers.iff, Bool.not_eq_false] at ha
  unfold State.busWrite
  dsimp only
  rw [if_pos ha]

theorem State.busWrite_badSize {value : Nat} (ha : s.Answers off) (hs : ¬ SizeOk off size) :
    s.busWrite port off size value = s.barError port off size (value % 2 ^ (8 * size)) := by
  rw [State.Answers.iff] at ha
  rw [SizeOk.iff, Bool.not_eq_false] at hs
  unfold State.busWrite
  dsimp only
  rw [ha, if_neg Bool.false_ne_true, if_pos hs]

/-- The whole of a register is written. -/
theorem State.busWrite_whole {value : Nat} (ha : s.Answers off) (hr : regRow? off = some r) (hv : value < 2 ^ r.width) :
    s.busWrite port off (r.width / 8) value = (s.joined port off r).writeWhole port off r value (2 ^ r.width - 1) (r.width / 8) := by
  obtain ⟨hw, hal⟩ := regRow?_aligned hr
  have h8 : 8 * (r.width / 8) = r.width := by omega
  have hs : SizeOk off (r.width / 8) := ⟨by omega, hal⟩
  rw [State.Answers.iff] at ha
  rw [SizeOk.iff] at hs
  unfold State.busWrite
  dsimp only
  rw [ha, hs, if_neg Bool.false_ne_true, if_neg Bool.false_ne_true, hr, h8, Nat.mod_eq_of_lt hv]
  obtain hw | hw := hw <;> simp [hw, State.joined]

/-- The lower half of a 64-bit register is written: it is held (R12). -/
theorem State.busWrite_lower {v : Nat} (ha : s.Answers off) (hr : regRow? off = some r) (hw : r.width = 64) (hv : v < 2 ^ 32) :
    s.busWrite port off 4 v = s.setHeld (halfKey port off) (v + 1) := by
  have h4 := (halves_aligned hr hw).1
  have hm : v % 4294967296 = v := Nat.mod_eq_of_lt hv
  rw [State.Answers.iff] at ha
  simp [State.busWrite, ha, hr, hw, h4, hm]

/-- The upper half of the 64-bit register at `off` is written: with what is held, or alone (R12). -/
theorem State.busWrite_upper_held {v h : Nat} (ha : s.Answers (off + 4)) (hn : regRow? (off + 4) = none) (hr : regRow? off = some r)
    (hw : r.width = 64) (hv : v < 2 ^ 32) (hh : Tbl.get 0 s.held (halfKey port off) = h + 1) : s.busWrite port (off + 4) 4 v =
      (s.setHeld (halfKey port off) 0).writeWhole port off r (h + v * 2 ^ 32) (2 ^ 64 - 1) 8 := by
  obtain ⟨-, h4, h8⟩ := halves_aligned hr hw
  have hm : v % 4294967296 = v := Nat.mod_eq_of_lt hv
  rw [State.Answers.iff] at ha
  simp [State.busWrite, ha, hn, hr, hw, h4, h8, hh, hm]

theorem State.busWrite_upper_alone {v : Nat} (ha : s.Answers (off + 4)) (hn : regRow? (off + 4) = none) (hr : regRow? off = some r)
    (hw : r.width = 64) (hv : v < 2 ^ 32) (hh : Tbl.get 0 s.held (halfKey port off) = 0) : s.busWrite port (off + 4) 4 v =
      s.writeWhole port off r (v * 2 ^ 32) (ones 63 32) 4 := by
  obtain ⟨-, h4, h8⟩ := halves_aligned hr hw
  have hm : v % 4294967296 = v := Nat.mod_eq_of_lt hv
  rw [State.Answers.iff] at ha
  simp [State.busWrite, ha, hn, hr, hw, h4, h8, hh, hm]

/-- An 8-byte write of less than a register is discarded with the record (R11). -/
theorem State.busWrite_across {value : Nat} (ha : s.Answers off) (hal : off % 8 = 0) (h : ∃ r, regRow? off = some r ∧ r.width ≠ 64) :
    s.busWrite port off 8 value = s.barError port off 8 (value % 2 ^ 64) := by
  obtain ⟨r, hr, hw⟩ := h
  rw [State.Answers.iff] at ha
  simp [State.busWrite, ha, hal, hr, hw]

/-- So is a write where no register lies (R479). -/
theorem State.busWrite_noRegister {value : Nat} (ha : s.Answers off) (hs : SizeOk off size) (hn : regRow? off = none)
    (hu : size = 8 ∨ NoUpperHalf off) : s.busWrite port off size value = s.barError port off size (value % 2 ^ (8 * size)) := by
  rw [State.Answers.iff] at ha
  rw [SizeOk.iff] at hs
  unfold State.busWrite
  dsimp only
  rw [ha, hs, if_neg Bool.false_ne_true, if_neg Bool.false_ne_true, hn]
  obtain h | h | h | ⟨r, hr, hw⟩ := hu
  · simp [h]
  · simp [h]
  · simp [h]
  · rw [hr]
    cases decide (off % 8 = 4) && decide (size = 4) <;> simp [hw]

end Sys2Proof.Machine
end

section
/-!
Commands that make a BAR0 access: what they come to when the access moves nothing in memory, and what a wait for admission leaves alone.
-/
namespace Sys2Proof.Machine

/-! ## Effects that move nothing -/

theorem Settled.setMed {s : State} (hs : Settled s) : s.setMed [] = s := by
  rw [State.setMed, ← hs.2.2]

/-- An effect that moves nothing takes place at once (log entry 196). -/
theorem paidNext_settled {s : State} {f : State → State} (hs : Settled s) (hm : (f s).memc = s.memc) (hn : (f s).host.needs = s.host.needs) :
    paidNext s f = .next { f s with pending := s.pending } := by
  obtain ⟨hdue, hneeds, hmed⟩ := hs
  have hp : s.paid f = f s := by simp [State.paid, hm, hn, hdue, hneeds]
  have hf : Settled (f s) := ⟨by rw [hm, hdue], by rw [hn, hneeds], by rw [hm, hmed]⟩
  rw [paidNext, Settled.setMed ⟨hdue, hneeds, hmed⟩, hp, hf.setMed]

theorem State.Reported.needs {s t : State} (h : s.Reported t) : t.host.needs = s.host.needs := by obtain ⟨_, _, _, _, rfl⟩ := h; rfl

/-- A discarded write is recorded at once. -/
theorem paidNext_barError {s t : State} {f : State → State} {port off size data : Nat} (hs : Settled s) (hf : f s = t.barError port off size data)
    (hm : t.memc = s.memc) (hn : t.host = s.host) :
    paidNext s f = .next { t.barError port off size data with pending := s.pending } := by
  rw [paidNext_settled hs (by rw [hf, State.barError_memc, hm]) (by rw [hf, (State.barError_reported ..).needs, hn]), hf]

theorem runMem_alive {ok : Bool} {s : State} {f : State → State} (hok : ok = true) (ha : s.alive = true) : runMem ok [] s f = paidNext s f :=
  run_alive _ hok ha

/-! ## The three commands -/

section
variable {s t : State} {port off size : Nat}

theorem exec_registerWrite {value : Nat} (ha : s.alive = true) (hwf : Instr.wf (.registerWrite port off size value) = true) :
    exec (.registerWrite port off size value) s = paidNext s (fun s => s.busWrite port off size value) := runMem_alive hwf ha

theorem exec_splitWrite {v : Nat} (ha : s.alive = true) (hwf : Instr.wf (.splitRegisterAccess port off (some v)) = true) :
    exec (.splitRegisterAccess port off (some v)) s = paidNext s (fun s => s.busWrite port off 4 v) := runMem_alive hwf ha

theorem exec_splitRead (ha : s.alive = true) (hwf : Instr.wf (.splitRegisterAccess port off none) = true) :
    exec (.splitRegisterAccess port off none) s = paidNext s (fun s => s.answerRead port off 4) := runMem_alive hwf ha

/-- A read emits its answer. -/
theorem exec_read {v : Nat} (ha : s.alive = true) (hwf : Instr.wf (.rcRegisterRead port off size) = true)
    (h : s.busRead port off size = (v, t)) (hp : t.pending = s.pending) :
    exec (.rcRegisterRead port off size) s = .next (t.emit (.readData port off size v)) := by
  have he : s.answerRead port off size = t.emit (.readData port off size v) := by rw [State.answerRead, h]
  refine (run_alive (fun s => s.answerRead port off size) hwf ha).trans ?_
  rw [he, ← hp]
  rfl

theorem exec_splitRead_answer {v : Nat} (ha : s.alive = true) (hs : Settled s) (hwf : Instr.wf (.splitRegisterAccess port off none) = true)
    (h : s.busRead port off 4 = (v, t)) (hp : t.pending = s.pending) (hm : t.memc = s.memc) (hn : t.host = s.host) :
    exec (.splitRegisterAccess port off none) s = .next (t.emit (.readData port off 4 v)) := by
  have he : s.answerRead port off 4 = t.emit (.readData port off 4 v) := by rw [State.answerRead, h]
  rw [exec_splitRead ha hwf, paidNext_settled hs (by rw [he]; exact hm) (by rw [he]; exact congrArg HostSt.needs hn), he, ← hp]
  rfl

end

/-! ## What waiting leaves alone -/

/-- `s'` has the held halves of `s`, and its registers at multiples of 64, that of STAGE among them. -/
def State.KeepsBus (s s' : State) : Prop := s'.held = s.held ∧ ∀ k, k % 64 = 0 → s'.reg k = s.reg k

theorem State.KeepsBus.refl (s : State) : s.KeepsBus s := ⟨rfl, fun _ _ => rfl⟩

theorem State.KeepsBus.trans {a b c : State} (h : a.KeepsBus b) (k : b.KeepsBus c) : a.KeepsBus c :=
  ⟨k.1.trans h.1, fun j hj => (k.2 j hj).trans (h.2 j hj)⟩

theorem State.KeepsBus.of_regs {s s' : State} (hr : s'.regs = s.regs) (hh : s'.held = s.held) : s.KeepsBus s' :=
  ⟨hh, fun k _ => State.reg_congr hr k⟩

theorem State.KeepsBus.stage {s s' : State} (h : s.KeepsBus s') : s'.stage = s.stage := by
  rw [State.stage, State.field, h.2 0x800000 rfl]
  rfl

theorem State.KeepsBus.answers {s s' : State} (h : s.KeepsBus s') {off : Nat} (ha : s.Answers off) : s'.Answers off := by
  rw [State.Answers, h.stage]
  exact ha

theorem State.setReg_keepsBus (s : State) {k : Nat} (v : Nat) (h : k % 64 ≠ 0) : s.KeepsBus (s.setReg k v) :=
  ⟨rfl, fun j hj => s.setReg_reg_other v (by rintro rfl; exact h hj)⟩

theorem State.KeepsBus.ite {s a b : State} {c : Prop} [Decidable c] (ha : s.KeepsBus a) (hb : s.KeepsBus b) :
    s.KeepsBus (if c then a else b) := by
  split
  · exact ha
  · exact hb

/-- A fold of operations that keep the bus keeps it. -/
theorem State.foldl_keepsBus {α : Type} {f : State → α → State} (h : ∀ (s : State) (a : α), s.KeepsBus (f s a)) (l : List α) (s : State) :
    s.KeepsBus (l.foldl f s) := by
  induction l generalizing s with
  | nil => exact .refl s
  | cons a l ih => exact .trans (h s a) (ih _)

theorem ringReg_mod (r : Nat) : ringReg r % 32 = 0 := by unfold ringReg; split <;> omega

theorem State.ringPut_keepsBus (s : State) (r : Nat) (b : Blot) : s.KeepsBus (s.ringPut r b) := by
  refine ⟨State.ringPut_held .., fun k hk => ?_⟩
  unfold State.ringPut
  dsimp only
  rw [State.reg_congr (State.msixDue_regs ..), State.updRing_reg]
  split
  · rw [State.bump_reg_other _ _ _ (by omega), State.emit_reg]
  · rw [State.emit_reg]

theorem State.ringLose_keepsBus (s : State) (r : Nat) (b : Blot) : s.KeepsBus (s.ringLose r b) := by
  have hr := ringReg_mod r
  refine ⟨State.ringLose_held .., fun k hk => ?_⟩
  have hb : (s.bump (ringReg r + 0x14) 32 1).reg k = s.reg k := s.bump_reg_other _ _ (by omega)
  unfold State.ringLose
  dsimp only
  split
  · rw [State.reg_congr (State.msixDue_regs ..), State.setField_reg_other _ _ _ _ (by omega)]
    exact hb
  · exact hb

theorem State.ringFlush_keepsBus (fuel : Nat) (s : State) (r : Nat) : s.KeepsBus (State.ringFlush fuel s r) := by
  have hu : ∀ f : Ring → Ring, s.KeepsBus (s.updRing r f) := fun _ => .of_regs rfl rfl
  induction fuel generalizing s with
  | zero => exact .refl s
  | succ n ih =>
    unfold State.ringFlush
    split
    · exact .refl s
    · split
      · exact ((hu _).trans (State.ringPut_keepsBus ..)).trans (ih _ fun _ => .of_regs rfl rfl)
      · dsimp only
        split
        · exact .refl s
        · exact (hu _).trans (State.ringPut_keepsBus ..)

/-- A report writes no register at a multiple of 64 (R456-R460). -/
theorem State.blot_keepsBus (s : State) (b : Blot) (rs : List Nat) : s.KeepsBus (s.blot b rs) := by
  unfold State.blot
  refine (State.foldl_keepsBus (State.ringFlush_keepsBus 4200) ..).trans (State.foldl_keepsBus (fun s f => ?_) ..)
  split
  · exact State.ringPut_keepsBus ..
  · exact .of_regs rfl rfl
  · exact State.ringLose_keepsBus ..

theorem State.regulatorZero_keepsBus (s : State) (cid slot : Nat) (src : Src) : s.KeepsBus (s.regulatorZero cid slot src) := by
  unfold State.regulatorZero
  split
  · exact .refl s
  · have hu : s.KeepsBus (s.updCmd cid (fun c => { c with regZero := true })) := .of_regs rfl rfl
    exact hu.trans (State.blot_keepsBus ..)

theorem State.chargeWait_keepsBus (s : State) (p slot : Nat) : s.KeepsBus (s.chargeWait p slot) := by
  unfold State.chargeWait
  extract_lets since s1
  have h1 : s.KeepsBus s1 := by
    unfold s1
    split
    · exact .ite (State.setReg_keepsBus _ _ (by unfold regulatorBase; omega)) (.refl s)
    · exact .refl s
  exact .ite h1 (h1.trans (.of_regs rfl rfl))

theorem State.admitted_keepsBus (s : State) (p slot : Nat) (w : BWait) : s.KeepsBus (s.admitted p slot w) := by
  unfold State.admitted
  split
  · exact .of_regs rfl rfl
  next cl line =>
    extract_lets ws s1
    have h1 : s.KeepsBus s1 := by
      refine State.foldl_keepsBus (fun _ _ => ?_) ws s
      exact .of_regs rfl rfl
    exact h1.trans (.of_regs rfl rfl)
  · split
    · exact .refl s
    next g _ =>
      have he : ∀ o, s.KeepsBus (s.emit o) := fun _ => .of_regs rfl rfl
      refine (((he _).trans (State.setReg_keepsBus _ _ ?_)).trans (State.setReg_keepsBus _ _ ?_)).trans (.of_regs rfl rfl)
      · unfold hlcBase; omega
      · rw [if_pos rfl]; omega
  · exact .of_regs rfl rfl

theorem State.admitLoop_keepsBus (fuel : Nat) (s : State) (p slot : Nat) : s.KeepsBus (State.admitLoop fuel s p slot) := by
  induction fuel generalizing s with
  | zero => exact .refl s
  | succ n ih =>
    unfold State.admitLoop
    extract_lets b
    split
    next w _ burst _ _ =>
      have hu : ∀ f : Bucket → Bucket, s.KeepsBus (s.updBucket p slot f) := fun _ => .of_regs rfl rfl
      refine .ite ((((hu _).trans (State.setReg_keepsBus _ _ ?_)).trans (State.admitted_keepsBus ..)).trans (ih _)) (.refl s)
      unfold regulatorBase; omega
    · exact .refl s

theorem State.joinAll_keepsBus (s : State) (p cid slot : Nat) (src : Src) (ws : List BWait) : s.KeepsBus (s.joinAll p cid slot src ws) := by
  have hl : ∀ s : State, s.KeepsBus ((s.updBucket p slot (fun b => { b with waits := b.waits ++ ws })).letIn p slot) := fun s => by
    have hu : s.KeepsBus (s.updBucket p slot (fun b => { b with waits := b.waits ++ ws })) := .of_regs rfl rfl
    exact (hu.trans (State.admitLoop_keepsBus ..)).trans (State.chargeWait_keepsBus ..)
  unfold State.joinAll
  dsimp only
  split
  · exact (State.regulatorZero_keepsBus ..).trans (hl _)
  · exact hl s

theorem State.ask_keepsBus (s : State) (ds : List Due) : s.KeepsBus (s.ask ds) :=
  State.foldl_keepsBus (fun _ _ => State.joinAll_keepsBus ..) _ s

theorem State.snoop_keepsBus (s : State) (a : Nat) : s.KeepsBus (s.snoop a) := by
  unfold State.snoop
  extract_lets cs d s1 s2
  have h1 : s.KeepsBus s1 := by
    refine State.foldl_keepsBus (fun _ _ => ?_) cs s
    exact .of_regs rfl rfl
  have h2 : s1.KeepsBus s2 := State.setReg_keepsBus _ _ (by omega)
  exact (h1.trans h2).trans (.of_regs rfl rfl)

theorem State.claim_keepsBus (s : State) (ns : List (Option Nat × Nat)) : s.KeepsBus (s.claim ns) := by
  refine State.foldl_keepsBus (fun s n => ?_) ns s
  split
  · exact .refl s
  · unfold State.askHost
    dsimp only
    split
    · exact .of_regs rfl rfl
    · exact (State.snoop_keepsBus s n.2).trans (.of_regs rfl rfl)

/-- Two effects that agree wherever a wait for admission leads come to the same. -/
theorem paidNext_congr {s : State} {f g : State → State} (h : ∀ t, s.KeepsBus t → f t = g t) : paidNext s f = paidNext s g := by
  have hmed : s.KeepsBus (s.setMed []) := .of_regs rfl rfl
  have hw : ∀ ds ns, f (((s.setMed []).ask ds).claim ns) = g (((s.setMed []).ask ds).claim ns) := fun ds ns =>
    h _ ((hmed.trans (State.ask_keepsBus ..)).trans (State.claim_keepsBus ..))
  simp only [paidNext, State.paid, h _ hmed, hw]

end Sys2Proof.Machine
end

section
/-!
The accesses of whole registers and of the halves of 64-bit registers as commands (R11, R12).
-/
namespace Sys2Proof.Machine

/-! ## Whole registers -/

section
variable {s : State} {port off : Nat} {r : RegRow}

theorem State.joined_eq (s : State) (port off : Nat) (r : RegRow) : ∃ l h, s.joined port off r = s.withHalves l h := by
  unfold State.joined
  split
  · exact ⟨_, _, s.whole64_eq port off⟩
  · exact ⟨s.latch, s.held, rfl⟩

theorem exec_read_whole (ha : s.alive = true) (hwf : Instr.wf (.rcRegisterRead port off (r.width / 8)) = true) (hans : s.Answers off)
    (hr : regRow? off = some r) : exec (.rcRegisterRead port off (r.width / 8)) s =
      .next (((s.joined port off r).readReg off r).2.emit (.readData port off (r.width / 8) (s.shown off r))) := by
  obtain ⟨l, h, hj⟩ := s.joined_eq port off r
  refine exec_read ha hwf ?_ ?_
  · rw [State.busRead_whole hans hr, hj, ← State.withHalves_shown s l h, ← State.readReg_fst]
  · rw [State.readReg_pending, hj, State.withHalves_pending]

/-- What one read of a whole register does, halves apart (R9). -/
theorem State.joined_readOnce (s : State) (port off : Nat) (r : RegRow) : ReadOnce s ((s.joined port off r).readReg off r).2 off r := by
  obtain ⟨l, h, hj⟩ := s.joined_eq port off r
  rw [hj]
  exact State.readReg_once (s.withHalves l h) off r

section
variable (s : State) (port off : Nat) (r : RegRow)

@[simp] theorem State.joined_pending : (s.joined port off r).pending = s.pending := by
  obtain ⟨l, h, hj⟩ := s.joined_eq port off r; rw [hj, State.withHalves_pending]
@[simp] theorem State.joined_reg (k : Nat) : (s.joined port off r).reg k = s.reg k := by
  obtain ⟨l, h, hj⟩ := s.joined_eq port off r; rw [hj, State.withHalves_reg]
@[simp] theorem State.joined_mem : (s.joined port off r).mem = s.mem := by
  obtain ⟨l, h, hj⟩ := s.joined_eq port off r; rw [hj, State.withHalves_mem]
@[simp] theorem State.joined_out : (s.joined port off r).out = s.out := by
  obtain ⟨l, h, hj⟩ := s.joined_eq port off r; rw [hj, State.withHalves_out]
@[simp] theorem State.joined_tiles : (s.joined port off r).tiles = s.tiles := by
  obtain ⟨l, h, hj⟩ := s.joined_eq port off r; rw [hj, State.withHalves_tiles]
@[simp] theorem State.joined_memc : (s.joined port off r).memc = s.memc := by
  obtain ⟨l, h, hj⟩ := s.joined_eq port off r; rw [hj, State.withHalves_memc]
@[simp] theorem State.joined_host : (s.joined port off r).host = s.host := by
  obtain ⟨l, h, hj⟩ := s.joined_eq port off r; rw [hj, State.withHalves_host]
@[simp] theorem State.joined_writeBarred (k : Nat) : (s.joined port off r).writeBarred k = s.writeBarred k := by
  obtain ⟨l, h, hj⟩ := s.joined_eq port off r; rw [hj, State.withHalves_writeBarred]

end

theorem exec_write_whole {value : Nat} (ha : s.alive = true) (hwf : Instr.wf (.registerWrite port off (r.width / 8) value) = true)
    (hans : s.Answers off) (hr : regRow? off = some r) (hv : value < 2 ^ r.width) : exec (.registerWrite port off (r.width / 8) value) s =
      paidNext s (fun s => (s.joined port off r).writeWhole port off r value (2 ^ r.width - 1) (r.width / 8)) :=
  (exec_registerWrite ha hwf).trans (paidNext_congr fun _ ht => State.busWrite_whole (ht.answers hans) hr hv)

end

/-! ## Halves of 64-bit registers -/

/-- Where the lower half of an aligned register answers, so does the upper. -/
theorem nibOffset_upper {off : Nat} (hal : off % 8 = 0) (h : nibOffset off = true) : nibOffset (off + 4) = true := by
  simp only [nibOffset, Bool.or_eq_true, Bool.and_eq_true, decide_eq_true_eq] at h ⊢
  omega

section
variable {s : State} {port off : Nat} {r : RegRow} (h : s.Has64 port off r)
include h

theorem State.Has64.answers : s.Answers off := by
  obtain ⟨-, -, -, -, -, -, -, -, hans⟩ := h
  exact hans

theorem State.Has64.answers_upper : s.Answers (off + 4) := by
  obtain ⟨-, -, -, -, hal, -, -, -, hans⟩ := h
  exact hans.imp_right (nibOffset_upper hal)

theorem State.Has64.joined_eq_whole64 (t : State) : t.joined port off r = t.whole64 port off := by
  obtain ⟨-, -, -, -, -, -, hw, -⟩ := h
  exact if_pos hw

theorem State.Has64.wf_lower {write : Option Nat} (hv : write.getD 0 < 2 ^ 32) : Instr.wf (.splitRegisterAccess port off write) = true := by
  obtain ⟨-, -, hp, hlt, -⟩ := h
  simp only [Instr.wf, Bool.and_eq_true, decide_eq_true_eq]
  omega

theorem State.Has64.wf_upper {write : Option Nat} (hv : write.getD 0 < 2 ^ 32) :
    Instr.wf (.splitRegisterAccess port (off + 4) write) = true := by
  obtain ⟨-, -, hp, hlt, -⟩ := h
  simp only [Instr.wf, Bool.and_eq_true, decide_eq_true_eq]
  omega

theorem exec_splitRead_lower : exec (.splitRegisterAccess port off none) s =
    .next (((s.readReg off r).2.setLatch (halfKey port off) (s.shown off r / 2 ^ 32 + 1)).emit (.readData port off 4 (s.shown off r % 2 ^ 32))) := by
  have hwf := h.wf_lower (write := none) (by decide)
  have hans := h.answers
  obtain ⟨ha, hs, -, -, -, hr, hw, -⟩ := h
  exact exec_splitRead_answer ha hs hwf (State.busRead_lower hans hr hw) (s.readReg_pending off r) (s.readReg_memc off r) (s.readReg_host off r)

theorem exec_splitRead_upper_latched {x : Nat} (hl : Tbl.get 0 s.latch (halfKey port off) = x + 1) :
    exec (.splitRegisterAccess port (off + 4) none) s = .next ((s.setLatch (halfKey port off) 0).emit (.readData port (off + 4) 4 x)) := by
  have hwf := h.wf_upper (write := none) (by decide)
  have hans := h.answers_upper
  obtain ⟨ha, hs, -, -, -, hr, hw, hn, -⟩ := h
  exact exec_splitRead_answer ha hs hwf (State.busRead_upper_latched hans hn hr hw hl) rfl rfl rfl

theorem exec_splitRead_upper_fresh (hl : Tbl.get 0 s.latch (halfKey port off) = 0) :
    exec (.splitRegisterAccess port (off + 4) none) s =
      .next ((s.readReg off r).2.emit (.readData port (off + 4) 4 (s.shown off r / 2 ^ 32))) := by
  have hwf := h.wf_upper (write := none) (by decide)
  have hans := h.answers_upper
  obtain ⟨ha, hs, -, -, -, hr, hw, hn, -⟩ := h
  exact exec_splitRead_answer ha hs hwf (State.busRead_upper_fresh hans hn hr hw hl) (s.readReg_pending off r) (s.readReg_memc off r)
    (s.readReg_host off r)

theorem exec_splitWrite_lower {v : Nat} (hv : v < 2 ^ 32) :
    exec (.splitRegisterAccess port off (some v)) s = .next (s.setHeld (halfKey port off) (v + 1)) := by
  have hwf := h.wf_lower (write := some v) hv
  have hans := h.answers
  obtain ⟨ha, hs, -, -, -, hr, hw, -⟩ := h
  have hb := State.busWrite_lower (port := port) hans hr hw hv
  rw [exec_splitWrite ha hwf, paidNext_settled hs (by rw [hb]; rfl) (by rw [hb]; rfl), hb]
  rfl

theorem exec_splitWrite_upper_held {v x : Nat} (hv : v < 2 ^ 32) (hh : Tbl.get 0 s.held (halfKey port off) = x + 1) :
    exec (.splitRegisterAccess port (off + 4) (some v)) s =
      paidNext s (fun s => (s.setHeld (halfKey port off) 0).writeWhole port off r (x + v * 2 ^ 32) (2 ^ 64 - 1) 8) := by
  have hwf := h.wf_upper (write := some v) hv
  have hans := h.answers_upper
  obtain ⟨ha, -, -, -, -, hr, hw, hn, -⟩ := h
  exact (exec_splitWrite ha hwf).trans (paidNext_congr fun t ht => State.busWrite_upper_held (ht.answers hans) hn hr hw hv (ht.1 ▸ hh))

theorem exec_splitWrite_upper_alone {v : Nat} (hv : v < 2 ^ 32) (hh : Tbl.get 0 s.held (halfKey port off) = 0) :
    exec (.splitRegisterAccess port (off + 4) (some v)) s =
      paidNext s (fun s => s.writeWhole port off r (v * 2 ^ 32) (ones 63 32) 4) := by
  have hwf := h.wf_upper (write := some v) hv
  have hans := h.answers_upper
  obtain ⟨ha, -, -, -, -, hr, hw, hn, -⟩ := h
  exact (exec_splitWrite ha hwf).trans (paidNext_congr fun t ht => State.busWrite_upper_alone (ht.answers hans) hn hr hw hv (ht.1 ▸ hh))

theorem exec_read64 : exec (.rcRegisterRead port off 8) s =
    .next (((s.whole64 port off).readReg off r).2.emit (.readData port off 8 (s.shown off r))) := by
  have hj := h.joined_eq_whole64 s
  have hans := h.answers
  obtain ⟨ha, -, hp, hlt, -, hr, hw, -⟩ := h
  have h8 : r.width / 8 = 8 := by rw [hw]
  have hwf : Instr.wf (.rcRegisterRead port off (r.width / 8)) = true := by
    simp only [Instr.wf, Bool.and_eq_true, decide_eq_true_eq]; omega
  rw [← h8, ← hj]
  exact exec_read_whole ha hwf hans hr

theorem exec_write64 {v : Nat} (hv : v < 2 ^ 64) : exec (.registerWrite port off 8 v) s =
    paidNext s (fun s => (s.whole64 port off).writeWhole port off r v (2 ^ 64 - 1) 8) := by
  have hj := h.joined_eq_whole64
  have hans := h.answers
  obtain ⟨ha, -, hp, hlt, -, hr, hw, -⟩ := h
  have h8 : r.width / 8 = 8 := by rw [hw]
  have hwf : Instr.wf (.registerWrite port off (r.width / 8) v) = true := by
    simp only [Instr.wf, Bool.and_eq_true, decide_eq_true_eq]; omega
  have he := exec_write_whole ha hwf hans hr (by rw [hw]; exact hv)
  simp only [hj, hw] at he
  exact he

end

end Sys2Proof.Machine
end

section
open Sys2Proof Sys2Proof.Machine

/-- Settles O36: each access as the case of R12 that it is. -/
theorem halfAccessesOf64BitRegisters : Obligations.HalfAccessesOf64BitRegisters := by
  unfold Obligations.HalfAccessesOf64BitRegisters
  intro s port off r h key
  refine ⟨⟨_, exec_splitRead_lower h, ?_, s.readReg_once off r, ?_, fun k hk => ?_⟩,
    fun x hl => ⟨_, exec_splitRead_upper_latched h hl, rfl, rfl, s.setLatch_get_same _ 0⟩,
    fun hl => ⟨_, exec_splitRead_upper_fresh h hl, ?_, s.readReg_once off r, s.readReg_latch off r⟩,
    fun v hv => ⟨_, exec_splitWrite_lower h hv, rfl, rfl, s.setHeld_get_same _ (v + 1), fun k hk => s.setHeld_get_other (v + 1) hk⟩,
    fun v hv x hh => exec_splitWrite_upper_held h hv hh,
    fun v hv hh => exec_splitWrite_upper_alone h hv hh,
    ⟨_, exec_read64 h, ?_, State.readReg_once (s.whole64 port off) off r, ?_, ?_⟩,
    fun v hv => exec_write64 h hv, s.whole64_held port off, s.whole64_latch port off⟩
  · exact congrArg (· ++ _) (s.readReg_out off r)
  · rw [State.emit_latch, State.setLatch_get_same]
  · rw [State.emit_latch, State.setLatch_get_other _ _ hk, State.readReg_latch]
  · exact congrArg (· ++ _) (s.readReg_out off r)
  · exact congrArg (· ++ _) (State.readReg_out (s.whole64 port off) off r)
  · rw [State.emit_latch, State.readReg_latch, State.whole64_latch]
  · rw [State.emit_held, State.readReg_held, State.whole64_held]

/-- Settles O37: the rows of the map for the first clause, the cases of a read and of a write for the others. -/
theorem accessesThatReachNoRegister : Obligations.AccessesThatReachNoRegister := by
  unfold Obligations.AccessesThatReachNoRegister
  refine ⟨fun off r => regRow?_aligned, fun s port off size data => rfl, ?_, ?_, ?_, ?_⟩
  · intro s port off size ha hwf hc
    refine exec_read ha hwf ?_ rfl
    obtain hc | hc | hc | ⟨rfl, hc⟩ | ⟨rfl, hn, hc⟩ := hc
    · exact State.busRead_unanswered (.inl ((s.not_answers_iff off).mpr hc))
    · exact State.busRead_unanswered (.inr ((not_sizeOk_iff off size).mpr (.inl hc)))
    · exact State.busRead_unanswered (.inr ((not_sizeOk_iff off size).mpr (.inr hc)))
    · exact State.busRead_across hc
    · exact State.busRead_before hn hc
  · intro s port off size value ha hs hwf hans hc
    have hb : s.busWrite port off size value = s.barError port off size (value % 2 ^ (8 * size)) := by
      by_cases hsz : SizeOk off size
      · obtain hc | hc | ⟨rfl, hc⟩ | ⟨hn, hc⟩ := hc
        · exact absurd hsz ((not_sizeOk_iff off size).mpr (.inl hc))
        · exact absurd hsz ((not_sizeOk_iff off size).mpr (.inr hc))
        · exact State.busWrite_across hans hsz.2 hc
        · exact State.busWrite_noRegister hans hsz hn hc
      · exact State.busWrite_badSize hans hsz
    rw [exec_registerWrite ha hwf, paidNext_barError hs hb rfl rfl]
  · intro s port off ha hwf hans hal hn hu
    exact exec_read ha hwf (State.busRead_noRegister hans hal hn hu) rfl
  · intro s port off size value ha hs hwf hst hnib
    have hb : s.busWrite port off size value = s := State.busWrite_unanswered ((s.not_answers_iff off).mpr ⟨hst, hnib⟩)
    rw [exec_registerWrite ha hwf, paidNext_settled hs (by rw [hb]) (by rw [hb]), hb]
end

section
/-!
Writes of registers without an action of their own, and the two registers of an IPv6 address (R9, R10, R482).
-/
namespace Sys2Proof.Machine

/-! ## Bits that a write replaces -/

theorem testBit_blend (v x m i : Nat) : (blend v x m).testBit i = if m.testBit i then x.testBit i else v.testBit i := by
  simp only [blend, Nat.testBit_or, Nat.testBit_and, Nat.testBit_xor]
  cases m.testBit i <;> simp

/-- A write of all bits leaves the value written. -/
theorem blend_all {w v x : Nat} (hv : v < 2 ^ w) (hx : x < 2 ^ w) : blend v x (2 ^ w - 1) = x := by
  refine Nat.eq_of_testBit_eq fun i => ?_
  rw [testBit_blend, Nat.testBit_two_pow_sub_one]
  by_cases hi : i < w
  · simp [hi]
  · have hle : 2 ^ w ≤ 2 ^ i := Nat.pow_le_pow_right (by decide) (by omega)
    simp [hi, Nat.testBit_lt_two_pow (Nat.lt_of_lt_of_le hv hle), Nat.testBit_lt_two_pow (Nat.lt_of_lt_of_le hx hle)]

/-- What a plain write of the `w` bits of `v` leaves of `old` where `rw` may be written and `w1c` is cleared by ones (R9). -/
def plainWritten (w old v rw w1c : Nat) : Nat :=
  blend old v (rw &&& (2 ^ w - 1)) &&& ((2 ^ 64 - 1) ^^^ (v &&& (2 ^ w - 1) &&& w1c))

/-- Bit by bit: RW bits take theirs, RW1C bits written as 1 are cleared. -/
theorem testBit_plainWritten {w old v rw w1c i : Nat} (hi : i < 64) : (plainWritten w old v rw w1c % 2 ^ 64).testBit i =
    ((if rw.testBit i && decide (i < w) then v.testBit i else old.testBit i) && !(v.testBit i && decide (i < w) && w1c.testBit i)) := by
  rw [Nat.testBit_mod_two_pow, plainWritten, Nat.testBit_and, testBit_blend, Nat.testBit_xor, Nat.testBit_and, Nat.testBit_and, Nat.testBit_and,
    Nat.testBit_two_pow_sub_one, Nat.testBit_two_pow_sub_one]
  simp [hi]

/-! ## One write of a register -/

section
variable {s : State} {port off v size : Nat} {r : RegRow}

/-- The offset is none of a selected flow's or group's registers, nor of a flow's keys: they are kept under keys of their own (R481). -/
def OwnKey (off : Nat) : Prop := (off < 0x400110 ∨ 0x4001F0 ≤ off) ∧ off ≠ 0x400308 ∧ off ≠ 0x400310

theorem OwnKey.storeKey (h : OwnKey off) (s : State) : s.storeKey off = off := by
  obtain ⟨hf, hg, hg'⟩ := h
  unfold State.storeKey
  rw [if_neg (by simp only [Bool.and_eq_true, decide_eq_true_eq]; omega), if_neg (by simp [hg, hg'])]

/-- The whole value that a write of the `w` bits of `v` gives a register. -/
def State.wholeValue (s : State) (off : Nat) (r : RegRow) (v : Nat) : Nat :=
  if r.rw = 0 then v else blend (s.reg off) v (2 ^ r.width - 1)

/-- A write of a register that is not barred: the record where its value is reserved, its action where it has one, or its bits (R9, R10). -/
theorem State.writeReg_whole (hk : OwnKey off) (hv : v < 2 ^ r.width) (hb : s.writeBarred off = false) :
    s.writeReg port off r v (2 ^ r.width - 1) size =
      if reservedValue off (s.wholeValue off r v) then s.barError port off size v
      else (s.writeSpecial port off (s.wholeValue off r v)).getD (s.setReg off (plainWritten r.width (s.reg off) v r.rw r.w1c)) := by
  have hkeys : (decide (0x400190 ≤ off) && decide (off < 0x4001F0)) = false := by
    obtain ⟨hf, -⟩ := hk
    simp only [Bool.and_eq_false_iff, decide_eq_false_iff_not]; omega
  have hm : v &&& (2 ^ r.width - 1) = v := by rw [Nat.and_two_pow_sub_one_eq_mod, Nat.mod_eq_of_lt hv]
  have hwhole : (if r.rw = 0 then v &&& (2 ^ r.width - 1) else blend (s.reg off) v (2 ^ r.width - 1)) = s.wholeValue off r v := by
    rw [hm]; rfl
  unfold State.writeReg
  simp only [hk.storeKey, hkeys, hb, Bool.not_false, Bool.and_true, Bool.false_or, decide_eq_true_eq, Bool.false_eq_true, if_false, hwhole]
  split
  · rfl
  · cases s.writeSpecial port off (s.wholeValue off r v) <;> rfl

theorem State.joined_wholeValue (s : State) (port off : Nat) (r : RegRow) (v : Nat) :
    (s.joined port off r).wholeValue off r v = s.wholeValue off r v := by
  rw [State.wholeValue, State.joined_reg]
  rfl

/-- A register that is none of an IPv6 address is written alone. -/
theorem State.writeWhole_alone {mask : Nat} (h1 : ip6First off = false) (h2 : ip6Second off = false) :
    s.writeWhole port off r v mask size = s.writeReg port off r v mask size := by
  simp [State.writeWhole, h1, h2]

/-- What a write of a whole register comes to, where it is not barred and the register none of an IPv6 address. -/
theorem State.joined_writeWhole (hk : OwnKey off) (hv : v < 2 ^ r.width) (hb : s.writeBarred off = false) (h1 : ip6First off = false)
    (h2 : ip6Second off = false) : (s.joined port off r).writeWhole port off r v (2 ^ r.width - 1) size =
      if reservedValue off (s.wholeValue off r v) then (s.joined port off r).barError port off size v
      else ((s.joined port off r).writeSpecial port off (s.wholeValue off r v)).getD
        ((s.joined port off r).setReg off (plainWritten r.width (s.reg off) v r.rw r.w1c)) := by
  rw [State.writeWhole_alone h1 h2, State.writeReg_whole hk hv (by rw [State.joined_writeBarred, hb]), State.joined_wholeValue, State.joined_reg]

section
variable (ha : s.alive = true) (hs : Settled s) (hwf : Instr.wf (.registerWrite port off (r.width / 8) v) = true) (hans : s.Answers off)
  (hr : regRow? off = some r) (hv : v < 2 ^ r.width) (hk : OwnKey off) (hb : s.writeBarred off = false) (h1 : ip6First off = false)
  (h2 : ip6Second off = false)
include ha hs hwf hans hr hv hk hb h1 h2

/-- A write with a reserved encoding is discarded with the record (R10). -/
theorem exec_write_reserved (hres : reservedValue off (s.wholeValue off r v) = true) : exec (.registerWrite port off (r.width / 8) v) s =
    .next { (s.joined port off r).barError port off (r.width / 8) v with pending := s.pending } := by
  rw [exec_write_whole ha hwf hans hr hv]
  exact paidNext_barError hs ((State.joined_writeWhole hk hv hb h1 h2).trans (if_pos hres)) (s.joined_memc ..) (s.joined_host ..)

/-- A write of a register without an action of its own stores its bits (R9). -/
theorem exec_write_plain (hres : reservedValue off (s.wholeValue off r v) = false)
    (hsp : ((s.joined port off r).writeSpecial port off (s.wholeValue off r v)).isNone = true) :
    exec (.registerWrite port off (r.width / 8) v) s =
      .next ((s.joined port off r).setReg off (plainWritten r.width (s.reg off) v r.rw r.w1c)) := by
  have hf : (s.joined port off r).writeWhole port off r v (2 ^ r.width - 1) (r.width / 8) =
      (s.joined port off r).setReg off (plainWritten r.width (s.reg off) v r.rw r.w1c) := by
    rw [State.joined_writeWhole hk hv hb h1 h2, if_neg (by rw [hres]; decide), Option.isNone_iff_eq_none.mp hsp, Option.getD_none]
  rw [exec_write_whole ha hwf hans hr hv, paidNext_settled hs, hf, ← s.joined_pending port off r]
  · rfl
  · rw [hf]; exact s.joined_memc port off r
  · rw [hf]; exact congrArg HostSt.needs (s.joined_host port off r)

end
end

/-! ## IPv6 addresses (R482) -/

section
variable {s : State} {port off v : Nat} {r : RegRow}

theorem ip6First_of_second (h : ip6Second off = true) : 8 ≤ off ∧ ip6First off = false := by
  simp only [ip6Second, ip6First, Bool.and_eq_true, decide_eq_true_eq] at h
  refine ⟨by omega, ?_⟩
  rw [ip6First, Bool.and_eq_false_iff, decide_eq_false_iff_not]
  exact .inr (by omega)

theorem State.writeWhole_ip6First {size : Nat} (h : ip6First off = true) (hv : v < 2 ^ 64) :
    s.writeWhole port off r v (2 ^ 64 - 1) size = s.setHeld (ip6Key port off) (v + 1) := by
  rw [State.writeWhole, if_pos h, blend_all (s.reg_lt off) hv]

theorem State.writeWhole_ip6Second {x size : Nat} (h : ip6Second off = true) (hv : v < 2 ^ 64)
    (hh : Tbl.get 0 s.held (ip6Key port (off - 8)) = x + 1) : s.writeWhole port off r v (2 ^ 64 - 1) size =
      ((s.setReg off v).setReg (off - 8) x).setHeld (ip6Key port (off - 8)) 0 := by
  rw [State.writeWhole, if_neg (by rw [(ip6First_of_second h).2]; decide), if_pos h, blend_all (s.reg_lt off) hv, hh]

variable (h : s.Has64 port off r) (hv : v < 2 ^ 64)
include h hv

theorem exec_write_ip6First (h1 : ip6First off = true) :
    exec (.registerWrite port off 8 v) s = .next ((s.whole64 port off).setHeld (ip6Key port off) (v + 1)) := by
  have hf : (s.whole64 port off).writeWhole port off r v (2 ^ 64 - 1) 8 = (s.whole64 port off).setHeld (ip6Key port off) (v + 1) :=
    State.writeWhole_ip6First h1 hv
  rw [exec_write64 h hv]
  obtain ⟨-, hs, -⟩ := h
  rw [paidNext_settled hs (by rw [hf]; rfl) (by rw [hf]; rfl), hf]
  rfl

theorem exec_write_ip6Second (h2 : ip6Second off = true) {x : Nat} (hh : Tbl.get 0 s.held (ip6Key port (off - 8)) = x + 1) :
    exec (.registerWrite port off 8 v) s =
      .next ((((s.whole64 port off).setReg off v).setReg (off - 8) x).setHeld (ip6Key port (off - 8)) 0) := by
  have hkey : ip6Key port (off - 8) ≠ halfKey port off := by
    obtain ⟨h8, -⟩ := ip6First_of_second h2
    simp only [ip6Key, halfKey]; omega
  have hh' : Tbl.get 0 (s.whole64 port off).held (ip6Key port (off - 8)) = x + 1 := (s.setHeld_get_other 0 hkey).trans hh
  have hf : (s.whole64 port off).writeWhole port off r v (2 ^ 64 - 1) 8 =
      (((s.whole64 port off).setReg off v).setReg (off - 8) x).setHeld (ip6Key port (off - 8)) 0 := State.writeWhole_ip6Second h2 hv hh'
  rw [exec_write64 h hv]
  obtain ⟨-, hs, -⟩ := h
  rw [paidNext_settled hs (by rw [hf]; rfl) (by rw [hf]; rfl), hf]
  rfl

end

end Sys2Proof.Machine
end

section
open Sys2Proof Sys2Proof.Machine

/-- Settles O38: a plain write by its bits, a whole read as in O36, and the two registers of an IPv6 address one after the other. -/
theorem plainRegisterAccess : Obligations.PlainRegisterAccess := by
  unfold Obligations.PlainRegisterAccess
  refine ⟨?_, ?_, ?_⟩
  · intro s port off v r ha hs hwf hans hr hw hal hv h1 h2 hf hg hg' hb
    have hk : OwnKey off := ⟨hf, hg, hg'⟩
    refine ⟨exec_write_reserved ha hs hwf hans hr hv hk hb h1 h2,
      fun hres hsp => ⟨_, exec_write_plain ha hs hwf hans hr hv hk hb h1 h2 hres hsp, fun k hne => ?_, ?_, ?_, ?_, fun i hi => ?_⟩⟩
    · rw [State.setReg_reg_other _ _ hne, State.joined_reg]
    · exact s.joined_mem port off r
    · exact s.joined_out port off r
    · exact s.joined_tiles port off r
    · rw [State.setReg_reg_same]
      exact testBit_plainWritten hi
  · intro s port off r ha hwf hans hr hw hal
    refine ⟨_, exec_read_whole ha hwf hans hr, ?_, s.joined_readOnce port off r, ?_⟩
    · rw [State.emit_out, State.readReg_out, State.joined_out]
    · rw [State.emit_mem, State.readReg_mem, State.joined_mem]
  · intro s port off r v h hv
    refine ⟨fun h1 => ⟨_, exec_write_ip6First h hv h1, rfl, State.setHeld_get_same ..⟩,
      fun x hx h2 hh => ⟨_, exec_write_ip6Second h hv h2 hh, ?_, ?_, State.setHeld_get_same _ _ 0, fun k hk hk' => ?_⟩⟩
    · rw [State.setHeld_reg, State.setReg_reg_same, Nat.mod_eq_of_lt hx]
    · have h8 := (ip6First_of_second h2).1
      rw [State.setHeld_reg, State.setReg_reg_other _ _ (by omega), State.setReg_reg_same, Nat.mod_eq_of_lt hv]
    · rw [State.setHeld_reg, State.setReg_reg_other _ _ hk', State.setReg_reg_other _ _ hk, State.whole64_reg]
end

section
/-!
A port goes down under a launch whose tile holds a stall of a cause that Table 8.6 does not have: the state that refutes O48.
-/
namespace Sys2Proof.Machine

/-- A well-formed HOST_LINK_DOWN of a living block takes the port down. -/
theorem exec_hostLinkDown {s : State} {port : Nat} (ha : s.alive = true) (hp : port < 2) :
    exec (.hostLinkDown port) s = .next { s.linkDown port with pending := s.pending } :=
  run_alive (fun s => s.linkDown port) (decide_eq_true hp) ha

theorem State.withPending_portUp (s : State) (l : List Instr) (p : Nat) : { s with pending := l }.portUp p = s.portUp p := rfl

/-- A number that is no cause of Table 8.6, whose greatest is 38: the offset that R188 would give its stall time (TILE_t_STL_NS_x) on
tile 0 is that of the status of port H0. -/
def strayCause : Nat := (hostPort 0 - (tileBase 0 + 0x800)) / 8

/-- A write to host memory, outstanding on port H0. -/
def strayWrite : Req :=
  { st := .sent, write := true, addr := 2 ^ 62, len := 64, scr := 0, piece := 0, pieceMem := 2 ^ 62, last := true, tok := 0, since := 0,
    port := some 0 }

/-- A tile that runs the task of command 1, with that write at the head of a channel, and whose vector unit has waited since TIME 0. -/
def strayTile : Tile :=
  { vec := { stall := some (0, strayCause) }, chans := [(0, { active := true, reqs := [strayWrite] })],
    task := some { cid := 1, idx := 0, shadow := false, st := .run } }

/-- TIME 1: port H0 is up in mode CXL3, dies 0 to 3 use it, and launch 1 runs on tile 0. -/
def strayStall : State :=
  { State.reset.setReg (hostPort 0) 7 with
    pins := ⟨true, [true, true], true, true⟩
    pace := { PaceSt.reset with time := 1 }
    host := { via := List.replicate 4 (some 0) ++ List.replicate 4 none }
    sched := { cmds := [(1, { st := .running, opcode := 1, tiles := [0] })] }
    tiles := [(0, strayTile)] }

theorem strayStall_shaped : strayStall.Shaped := by
  unfold State.Shaped Settled
  decide +kernel

theorem strayStall_portUp : strayStall.portUp 0 = true := by decide +kernel

/-- The write fails with its port, launch 1 ends, and the 1 ns of its stall is charged to the status that had just been cleared: it reads
as up again. -/
theorem strayStall_linkDown_portUp : (strayStall.linkDown 0).portUp 0 = true := by decide +kernel

end Sys2Proof.Machine
end

section
open Sys2Proof Sys2Proof.Machine

/-- Refutes O48: HOST_LINK_DOWN need not leave its port down. The statement takes any state of the right shape, and `State.Shaped` does not
bound the causes under which a tile's stalls are noted; in `strayStall` the failing launch's stall is counted in the port's status. -/
theorem not_hostPorts : ¬ Obligations.HostPorts := by
  unfold Obligations.HostPorts
  rintro ⟨-, hdown, -⟩
  have ha : strayStall.alive = true := rfl
  obtain ⟨u, hu, hport, -⟩ := hdown strayStall 0 ha (by decide) strayStall_portUp strayStall_shaped
  rw [exec_hostLinkDown ha (by decide), Host.Outcome.next.injEq] at hu
  rw [← hu, State.withPending_portUp, strayStall_linkDown_portUp] at hport
  exact Bool.false_ne_true hport.symm
end

section
/-!
Registers below the blot rings, fields of registers, and signed readings: what reading one gives after an operation (R5, R9, R13).
-/
namespace Sys2Proof.Machine

/-! ## Fields and signed readings -/

theorem testBit_ones (hi lo i : Nat) : (ones hi lo).testBit i = decide (lo ≤ i ∧ i ≤ hi) := by
  rw [ones, Nat.testBit_shiftLeft, Nat.testBit_two_pow_sub_one, ← Bool.decide_and]
  exact decide_eq_decide.mpr (by omega)

/-- A field that is set reads its own bits, every other bit as before. -/
theorem testBit_setBits (v hi lo x i : Nat) :
    (setBits v hi lo x).testBit i = if lo ≤ i ∧ i ≤ hi then x.testBit (i - lo) else v.testBit i := by
  rw [setBits, testBit_blend, testBit_ones]
  by_cases h : lo ≤ i ∧ i ≤ hi
  · have hw : i - lo < hi + 1 - lo := by omega
    simp [h, hw, Nat.testBit_shiftLeft, Nat.testBit_mod_two_pow]
  · simp [h]

theorem testBit_b2n (b : Bool) : (b2n b).testBit 0 = b := by cases b <;> rfl

/-- A one-bit field that is set reads the bit. -/
theorem State.setField_bit_same (s : State) (k : Nat) {i : Nat} (b : Bool) (hi : i < 64) :
    bit ((s.setField k i i (b2n b)).reg k) i = b := by
  rw [bit, State.setField, State.setReg_reg_same, Nat.testBit_mod_two_pow, testBit_setBits, if_pos ⟨Nat.le_refl _, Nat.le_refl _⟩, Nat.sub_self, testBit_b2n]
  simp [hi]

theorem State.setField_bit_other (s : State) (k : Nat) {hi lo i : Nat} (x : Nat) (h : ¬ (lo ≤ i ∧ i ≤ hi)) (hlt : i < 64) :
    bit ((s.setField k hi lo x).reg k) i = bit (s.reg k) i := by
  rw [bit, State.setField, State.setReg_reg_same, Nat.testBit_mod_two_pow, testBit_setBits, if_neg h]
  simp [hlt, bit]

theorem State.bump_reg_same (s : State) (k : Nat) {w : Nat} (n : Nat) (hw : w ≤ 64) :
    (s.bump k w n).reg k = min (s.reg k + n) (2 ^ w - 1) := by
  have hle : 2 ^ w ≤ 2 ^ 64 := Nat.pow_le_pow_right (by decide) hw
  have hpos : 0 < 2 ^ w := Nat.two_pow_pos w
  rw [State.bump, State.setReg_reg_same, satAdd, Nat.mod_eq_of_lt (by omega)]

theorem signed_of_lt {w v : Nat} (h : 2 * v < 2 ^ w) : signed w v = v := by
  have hv : trunc w v = v := Nat.mod_eq_of_lt (by omega)
  rw [signed, hv, if_pos h]

theorem signed_of_ge {w v : Nat} (h : 2 ^ w ≤ 2 * v) (hv : v < 2 ^ w) : signed w v = (v : Int) - (2 ^ w : Nat) := by
  have hv : trunc w v = v := Nat.mod_eq_of_lt hv
  rw [signed, hv, if_neg (by omega)]

theorem ofInt_lt (w : Nat) (z : Int) : ofInt w z < 2 ^ w := by
  have hpos : 0 < 2 ^ w := Nat.two_pow_pos w
  have := Int.emod_lt_of_pos z (b := (2 ^ w : Nat)) (by omega)
  rw [ofInt]
  omega

/-- A number in the range of `w` bits reads back. -/
theorem signed_ofInt {w : Nat} {z : Int} (hlo : -(2 ^ w : Nat) ≤ 2 * z) (hhi : 2 * z < (2 ^ w : Nat)) : signed w (ofInt w z) = z := by
  have hlt := ofInt_lt w z
  obtain hz | hz : 0 ≤ z ∨ z < 0 := by omega
  · have he : ofInt w z = z.toNat := by rw [ofInt, Int.emod_eq_of_lt hz (by omega)]
    rw [signed_of_lt (by omega), he, Int.toNat_of_nonneg hz]
  · have he : ofInt w z = (z + (2 ^ w : Nat)).toNat := by
      rw [ofInt, ← Int.add_emod_right, Int.emod_eq_of_lt (by omega) (by omega)]
    rw [signed_of_ge (by omega) hlt, he]
    omega

/-! ## Commands that leave the queue alone -/

/-- A well-formed command of a living block whose effect is `u`, with the queue as it was. -/
theorem run_next {ok : Bool} {s u : State} {f : State → State} (hok : ok = true) (ha : s.alive = true) (hf : f s = u)
    (hq : u.pending = s.pending) : run ok s f = .next u := by rw [run_alive f hok ha, hf, ← hq]

/-! ## Reports write registers of the rings and of the host ports alone -/

/-- Where the registers of the blot rings begin (Table 20.4); those of PACE lie below. -/
theorem ringReg_ge (r : Nat) : 0x30000 ≤ ringReg r := by unfold ringReg; split <;> omega

variable {k : Nat} (hk : k < 0x30000)
include hk

theorem State.ringPut_reg_low (s : State) (r : Nat) (b : Blot) : (s.ringPut r b).reg k = s.reg k := by
  unfold State.ringPut
  dsimp only
  rw [State.reg_congr (State.msixDue_regs ..), State.updRing_reg]
  split
  · rw [State.bump_reg_other _ _ _ (by omega), State.emit_reg]
  · rw [State.emit_reg]

theorem State.ringLose_reg_low (s : State) (r : Nat) (b : Blot) : (s.ringLose r b).reg k = s.reg k := by
  have hr := ringReg_ge r
  have hb : (s.bump (ringReg r + 0x14) 32 1).reg k = s.reg k := s.bump_reg_other _ _ (by omega)
  unfold State.ringLose
  dsimp only
  split
  · rw [State.reg_congr (State.msixDue_regs ..), State.setField_reg_other _ _ _ _ (by omega)]
    exact hb
  · exact hb

theorem State.ringFlush_reg_low (fuel : Nat) (s : State) (r : Nat) : (State.ringFlush fuel s r).reg k = s.reg k := by
  induction fuel generalizing s with
  | zero => rfl
  | succ n ih =>
    unfold State.ringFlush
    split
    · rfl
    · split
      · rw [ih, State.ringPut_reg_low hk, State.updRing_reg]
      · dsimp only
        split
        · rfl
        · rw [State.ringPut_reg_low hk, State.updRing_reg]

/-- A record leaves every register below those of the rings alone (R456-R460). -/
theorem State.blot_reg_low (s : State) (b : Blot) (rs : List Nat) : (s.blot b rs).reg k = s.reg k := by
  have hflush : (rs.eraseDups.foldl (fun s r => s.ringFlush 4200 r) s).reg k = s.reg k :=
    List.foldlRecOn (motive := fun u : State => u.reg k = s.reg k) _ _ rfl fun u hu r _ => (State.ringFlush_reg_low hk 4200 u r).trans hu
  unfold State.blot
  refine List.foldlRecOn (motive := fun u : State => u.reg k = s.reg k) _ _ hflush fun u hu f _ => ?_
  split
  · exact (State.ringPut_reg_low hk ..).trans hu
  · exact hu
  · exact (State.ringLose_reg_low hk ..).trans hu

end Sys2Proof.Machine
end

section
/-!
The pace state of a die: what setting it and commanding its voltage leave alone, and the bounds of the voltage (R31-R33).
-/
namespace Sys2Proof.Machine

@[simp] theorem State.setReg_diePace (s : State) (k v d : Nat) : (s.setReg k v).diePace d = s.diePace d := rfl
@[simp] theorem State.bump_diePace (s : State) (k w n d : Nat) : (s.bump k w n).diePace d = s.diePace d := rfl
@[simp] theorem State.emit_diePace (s : State) (o : Out) (d : Nat) : (s.emit o).diePace d = s.diePace d := rfl
@[simp] theorem State.blot_diePace (s : State) (b : Blot) (rs : List Nat) (d : Nat) : (s.blot b rs).diePace d = s.diePace d := by
  simp [State.diePace]

@[simp] theorem State.updPace_reg (s : State) (d : Nat) (f : DiePace → DiePace) (k : Nat) : (s.updPace d f).reg k = s.reg k := rfl

theorem State.updPace_diePace (s : State) (d : Nat) (f : DiePace → DiePace) {e : Nat} (he : e < 8) :
    (s.updPace d f).diePace e = if e = d then f (s.diePace d) else s.diePace e := by
  simp [State.diePace, State.updPace, nth, upto, he]

theorem State.updPace_diePace_same (s : State) {d : Nat} (f : DiePace → DiePace) (hd : d < 8) :
    (s.updPace d f).diePace d = f (s.diePace d) := by rw [State.updPace_diePace s d f hd, if_pos rfl]

theorem State.updPace_diePace_other (s : State) {d e : Nat} (f : DiePace → DiePace) (he : e < 8) (h : e ≠ d) :
    (s.updPace d f).diePace e = s.diePace e := by rw [State.updPace_diePace s d f he, if_neg h]

/-! ## VCORE -/

/-- From a voltage that is not beyond 10 mV below the last grid point, the voltage stays within 10 mV of that point (R32). -/
theorem State.nextVcore_near (s : State) (d mv : Nat) (h : (s.diePace d).base ≤ (s.diePace d).vcore + 10) :
    s.nextVcore d mv ≤ (s.diePace d).base + 10 ∧ (s.diePace d).base ≤ s.nextVcore d mv + 10 := by
  unfold State.nextVcore
  dsimp only
  split <;> omega

/-- The voltage stays within the range of R30 and Table 2.3. -/
theorem State.nextVcore_range (s : State) (d mv : Nat) (hb : 600 ≤ (s.diePace d).base) (hb' : (s.diePace d).base ≤ 880)
    (hv : 600 ≤ (s.diePace d).vcore) : 600 ≤ s.nextVcore d mv ∧ s.nextVcore d mv ≤ 880 := by
  have hlo : 600 ≤ (if s.efficient d then 600 else 715) := by split <;> decide
  unfold State.nextVcore
  dsimp only
  split <;> omega

/-- Die `d` takes note of its owners' policy: efficiency mode in its status and in the present window (R33). -/
def State.noteEfficiency (s : State) (d : Nat) : State :=
  (s.setField (paceBase d) 29 29 (b2n (s.efficient d))).updPace d (fun x => { x with eff := x.eff || s.efficient d })

/-- What VCORE_ADJUST does where a die nib controls the voltage (R31-R33). -/
def State.adjustVcore (s : State) (d mv : Nat) : State :=
  if s.nextVcore d mv = ((s.noteEfficiency d).diePace d).vcore then s.noteEfficiency d
  else ((s.noteEfficiency d).updPace d (fun x => { x with vcore := s.nextVcore d mv })).emit (.rail d (s.nextVcore d mv))

theorem State.adjustVcore_pending (s : State) (d mv : Nat) : (s.adjustVcore d mv).pending = s.pending := by
  unfold State.adjustVcore
  split <;> rfl

theorem exec_vcoreAdjust {s : State} {die mv : Nat} (ha : s.alive = true) (hwf : Instr.wf (.vcoreAdjust die mv) = true)
    (hlead : ¬ (die = 0 ∧ s.leadDie = 4)) (htest : s.field 0x800014 2 0 ≠ 3) :
    exec (.vcoreAdjust die mv) s = .next (s.adjustVcore die mv) := by
  have hc : ¬ (((decide (die = 0) && decide (s.leadDie = 4)) || decide (s.field 0x800014 2 0 = 3)) = true) := by
    simpa [htest] using hlead
  have he : (if (die = 0 && s.leadDie = 4) || s.field 0x800014 2 0 = 3 then s else s.adjustVcore die mv) = s.adjustVcore die mv := if_neg hc
  change execVcoreAdjust die mv s = _
  unfold execVcoreAdjust
  exact run_next hwf ha he (s.adjustVcore_pending die mv)

section
variable (s : State) {d : Nat} (mv : Nat) (hd : d < 8)
include hd

theorem State.noteEfficiency_diePace : (s.noteEfficiency d).diePace d =
    { s.diePace d with eff := (s.diePace d).eff || s.efficient d } := State.updPace_diePace_same _ _ hd

/-- A die's own pace state after its adjustment. -/
theorem State.adjustVcore_diePace : (s.adjustVcore d mv).diePace d =
    { s.diePace d with vcore := s.nextVcore d mv, eff := (s.diePace d).eff || s.efficient d } := by
  unfold State.adjustVcore
  have hn := s.noteEfficiency_diePace hd
  split
  next h =>
    rw [hn] at h ⊢
    rw [h]
  next => rw [State.emit_diePace, State.updPace_diePace_same _ _ hd, hn]

theorem State.adjustVcore_out : (s.adjustVcore d mv).out =
    if s.nextVcore d mv = (s.diePace d).vcore then s.out else s.out ++ [.rail d (s.nextVcore d mv)] := by
  unfold State.adjustVcore
  rw [s.noteEfficiency_diePace hd]
  split <;> rfl

end

theorem State.adjustVcore_diePace_other (s : State) {d e : Nat} (mv : Nat) (he : e < 8) (h : e ≠ d) :
    (s.adjustVcore d mv).diePace e = s.diePace e := by
  have hn : (s.noteEfficiency d).diePace e = s.diePace e := State.updPace_diePace_other _ _ he h
  unfold State.adjustVcore
  split
  · exact hn
  · rw [State.emit_diePace, State.updPace_diePace_other _ _ he h, hn]

/-- EFFICIENCY of a die's status after its adjustment (R33). -/
theorem State.adjustVcore_efficiency (s : State) (d mv : Nat) : bit ((s.adjustVcore d mv).reg (paceBase d)) 29 = s.efficient d := by
  have hn : (s.adjustVcore d mv).reg (paceBase d) = (s.setField (paceBase d) 29 29 (b2n (s.efficient d))).reg (paceBase d) := by
    unfold State.adjustVcore
    split <;> rfl
  rw [hn, State.setField_bit_same _ _ _ (by decide)]

end Sys2Proof.Machine
end

section
/-!
Corrections of TIME: steps and rates that software writes, and PTP messages (R41, R42).
-/
namespace Sys2Proof.Machine

/-- A step changes TIME or what is being slewed in alone. -/
theorem State.stepTime_eq (s : State) (z : Int) :
    ∃ t x b, s.stepTime z = { s with pace := { s.pace with time := t, slew := x, slewing := b } } := by
  unfold State.stepTime
  split <;> exact ⟨_, _, _, rfl⟩

@[simp] theorem State.stepTime_reg (s : State) (z : Int) (k : Nat) : (s.stepTime z).reg k = s.reg k := by
  obtain ⟨t, x, b, h⟩ := s.stepTime_eq z; rw [h]; rfl
@[simp] theorem State.stepTime_pending (s : State) (z : Int) : (s.stepTime z).pending = s.pending := by
  obtain ⟨t, x, b, h⟩ := s.stepTime_eq z; rw [h]
@[simp] theorem State.stepTime_out (s : State) (z : Int) : (s.stepTime z).out = s.out := by
  obtain ⟨t, x, b, h⟩ := s.stepTime_eq z; rw [h]
@[simp] theorem State.stepTime_syncs (s : State) (z : Int) : (s.stepTime z).pace.syncs = s.pace.syncs := by
  obtain ⟨t, x, b, h⟩ := s.stepTime_eq z; rw [h]
@[simp] theorem State.stepTime_holdover (s : State) (z : Int) : (s.stepTime z).pace.holdover = s.pace.holdover := by
  obtain ⟨t, x, b, h⟩ := s.stepTime_eq z; rw [h]

/-- A step forward is applied at once (R42). -/
theorem State.stepTime_forward (s : State) {z : Int} (h : 0 ≤ z) :
    (s.stepTime z).time = timeTop (s.time + z.toNat) ∧ (s.stepTime z).pace.slew = s.pace.slew := by
  rw [State.stepTime, if_pos h]
  exact ⟨rfl, rfl⟩

/-- A step backward is left to be slewed in (R42). -/
theorem State.stepTime_backward (s : State) {z : Int} (h : z < 0) : (s.stepTime z).time = s.time ∧
    (s.stepTime z).pace.slew = s.pace.slew + z.natAbs * 1000000 ∧ (s.stepTime z).pace.slewing = true := by
  obtain ⟨x, hx, hs⟩ : ∃ x, x = s.pace.slew + z.natAbs * 1000000 ∧ s.stepTime z = { s with pace := { s.pace with slew := x, slewing := true } } :=
    ⟨_, rfl, if_neg (by omega)⟩
  rw [hs, ← hx]
  exact ⟨rfl, rfl, rfl⟩

/-- A step that software writes while PTP is off is applied (R12, R42). -/
theorem exec_paceTimeStepWrite {s : State} {port value : Nat} (ha : s.alive = true) (hwf : Instr.wf (.paceTimeStepWrite port value) = true)
    (ho : s.regsOpen = true) (hp : s.ptpOn = false) : exec (.paceTimeStepWrite port value) s =
      .next ((s.whole64 port 0x10018).stepTime (signed 64 value)) := by
  have hc : ¬ ((!(s.whole64 port 0x10018).regsOpen || (s.whole64 port 0x10018).ptpOn) = true) := by
    rw [show (s.whole64 port 0x10018).regsOpen = true from ho, show (s.whole64 port 0x10018).ptpOn = false from hp]
    decide
  have he : (if s.regsOpen then (s.whole64 port 0x10018).timeStepWrite value else s) = (s.whole64 port 0x10018).stepTime (signed 64 value) := by
    rw [if_pos ho, State.timeStepWrite, if_neg hc]
  exact run_next hwf ha he (State.stepTime_pending ..)

/-- A rate in range that software writes while PTP is off is taken (R42, Table 2.10). -/
theorem exec_paceTimeRateWrite {s : State} {port value : Nat} (ha : s.alive = true) (hwf : Instr.wf (.paceTimeRateWrite port value) = true)
    (ho : s.regsOpen = true) (hp : s.ptpOn = false) (hr : (signed 32 value).natAbs ≤ 100000) : exec (.paceTimeRateWrite port value) s =
      .next (s.setReg 0x10014 (trunc 32 value)) := by
  change execPaceTimeRateWrite port value s = _
  unfold execPaceTimeRateWrite
  refine run_next hwf ha ?_ (State.setReg_pending ..)
  rw [if_neg (by rw [ho]; decide), if_neg (by omega), if_neg (by rw [hp]; decide)]

theorem exec_timeSlewComplete {s : State} (ha : s.alive = true) (hs : s.pace.slew = 0) :
    exec .timeSlewComplete s = .next { s with pace := { s.pace with slewing := false } } := by
  exact run_next rfl ha (if_pos hs) rfl

/-! ## PTP messages -/

theorem exec_ptpHoldoverTimeout {s : State} (ha : s.alive = true) (hp : s.ptpOn = true) :
    exec .ptpHoldoverTimeout s = .next { s with pace := { s.pace with holdover := true } } := by
  exact run_next rfl ha (if_pos hp) rfl

/-- What the servo does with a message it uses: the count of good Syncs, the end of HOLDOVER, the rate and the step (R41, log entry 20). -/
def State.servo (s : State) (kind : Nat) (offset stepNs ratePpb : Int) : State :=
  let n := if kind != 0 then s.pace.syncs else if offset.natAbs ≤ 50 then min 16 (s.pace.syncs + 1) else 0
  let s := { s with pace := { s.pace with syncs := n, holdover := false } }
  (s.setReg 0x10014 (ofInt 32 (max (-100000) (min ratePpb 100000)))).stepTime stepNs

/-- What a PTP message does on a sub-port that is up (R41). -/
def State.ptpReceive (s : State) (eport sub kind : Nat) (offset stepNs ratePpb : Int) : State :=
  let s := s.bump (ethBase eport + 0x18) 64 1
  if s.ptpOn && s.field 0x10010 3 1 == eport && sub == 0 then
    if !ptpUsed kind then s
    else if kind = 8 then (s.servo kind offset stepNs ratePpb).delayReq eport else s.servo kind offset stepNs ratePpb
  else s.bump (ethBase eport + 0x20) 64 1

variable {s : State} {eport sub kind : Nat} {offset stepNs ratePpb : Int}

theorem ethBase_ge (n : Nat) : 0x401000 ≤ ethBase n := by unfold ethBase; omega

/-- The counters of an Ethernet port are no registers of PACE. -/
theorem State.bump_eth_reg (s : State) (n o w x : Nat) {k : Nat} (hk : k < 0x30000) : (s.bump (ethBase n + o) w x).reg k = s.reg k :=
  s.bump_reg_other _ _ (by have := ethBase_ge n; omega)

theorem State.bump_eth_selects (s : State) (n o w x : Nat) (eport sub : Nat) :
    ((s.bump (ethBase n + o) w x).ptpOn && (s.bump (ethBase n + o) w x).field 0x10010 3 1 == eport && sub == 0) =
      (s.ptpOn && s.field 0x10010 3 1 == eport && sub == 0) := by
  simp only [State.ptpOn, State.field, s.bump_eth_reg n o w x (k := 0x10010) (by decide)]

section
variable (hp : s.ptpOn = true) (hport : s.field 0x10010 3 1 = eport) (hsub : sub = 0)
include hp hport hsub

/-- A message that a slave uses, on sub-port 0 of the selected port. -/
theorem State.ptpReceive_used (hk : ptpUsed kind = true) : s.ptpReceive eport sub kind offset stepNs ratePpb =
    let u := (s.bump (ethBase eport + 0x18) 64 1).servo kind offset stepNs ratePpb
    if kind = 8 then u.delayReq eport else u := by
  unfold State.ptpReceive
  dsimp only
  rw [State.bump_eth_selects, if_pos (by simp [hp, hport, hsub]), if_neg (by simp [hk])]

/-- A message there that a slave does not use. -/
theorem State.ptpReceive_unused (hk : ptpUsed kind = false) : s.ptpReceive eport sub kind offset stepNs ratePpb =
    s.bump (ethBase eport + 0x18) 64 1 := by
  unfold State.ptpReceive
  dsimp only
  rw [State.bump_eth_selects, if_pos (by simp [hp, hport, hsub]), if_pos (by simp [hk])]

end

/-- A message elsewhere is counted as discarded. -/
theorem State.ptpReceive_elsewhere (h : s.ptpOn = false ∨ s.field 0x10010 3 1 ≠ eport ∨ sub ≠ 0) :
    s.ptpReceive eport sub kind offset stepNs ratePpb = (s.bump (ethBase eport + 0x18) 64 1).bump (ethBase eport + 0x20) 64 1 := by
  unfold State.ptpReceive
  dsimp only
  rw [State.bump_eth_selects, if_neg]
  simp only [Bool.and_eq_true, beq_iff_eq, not_and]
  rintro ⟨hp, hport⟩ hsub
  simp [hp, hport, hsub] at h

/-! What the servo leaves -/

theorem State.servo_reg_other (s : State) (kind : Nat) (offset stepNs ratePpb : Int) {k : Nat} (hk : k ≠ 0x10014) :
    (s.servo kind offset stepNs ratePpb).reg k = s.reg k := by
  rw [State.servo, State.stepTime_reg, State.setReg_reg_other _ _ hk]
  rfl

theorem State.servo_rate (s : State) (kind : Nat) (offset stepNs : Int) (hlo : -100000 ≤ ratePpb) (hhi : ratePpb ≤ 100000) :
    signed 32 ((s.servo kind offset stepNs ratePpb).reg 0x10014) = ratePpb := by
  have hlt : ofInt 32 ratePpb < 2 ^ 64 := Nat.lt_trans (ofInt_lt 32 ratePpb) (by decide)
  have hclip : max (-100000) (min ratePpb 100000) = ratePpb := by omega
  rw [State.servo, State.stepTime_reg, State.setReg_reg_same, hclip, Nat.mod_eq_of_lt hlt]
  exact signed_ofInt (by omega) (by omega)

theorem State.servo_time (s : State) (kind : Nat) (offset ratePpb : Int) (h : 0 ≤ stepNs) :
    (s.servo kind offset stepNs ratePpb).time = timeTop (s.time + stepNs.toNat) := by
  exact (State.stepTime_forward _ h).1

theorem State.servo_syncs (s : State) (offset stepNs ratePpb : Int) :
    (s.servo 0 offset stepNs ratePpb).pace.syncs = if offset.natAbs ≤ 50 then min 16 (s.pace.syncs + 1) else 0 := by
  rw [State.servo, State.stepTime_syncs]
  rfl

theorem State.servo_holdover (s : State) (kind : Nat) (offset stepNs ratePpb : Int) :
    (s.servo kind offset stepNs ratePpb).pace.holdover = false := by
  rw [State.servo, State.stepTime_holdover]
  rfl

theorem State.servo_out (s : State) (kind : Nat) (offset stepNs ratePpb : Int) : (s.servo kind offset stepNs ratePpb).out = s.out := by
  rw [State.servo, State.stepTime_out]
  rfl

@[simp] theorem State.delayReq_out (s : State) (eport : Nat) : (s.delayReq eport).out = s.out ++ [.frame eport 0 4 [1]] := rfl
@[simp] theorem State.delayReq_pace (s : State) (eport : Nat) : (s.delayReq eport).pace = s.pace := rfl

/-- A Delay_Req counts in the port's register of sent messages alone. -/
theorem State.delayReq_reg_other (s : State) (eport : Nat) {k : Nat} (h : k ≠ ethBase eport + 0x10) : (s.delayReq eport).reg k = s.reg k :=
  (State.bump_reg_other _ _ _ h).trans (s.emit_reg _ _)

theorem State.ptpReceive_pending (s : State) (eport sub kind : Nat) (offset stepNs ratePpb : Int) :
    (s.ptpReceive eport sub kind offset stepNs ratePpb).pending = s.pending := by
  have hs (t : State) : (t.servo kind offset stepNs ratePpb).pending = t.pending := by
    rw [State.servo, State.stepTime_pending]
    rfl
  unfold State.ptpReceive
  dsimp only
  split
  · split
    · rfl
    · split
      · exact hs _
      · exact hs _
  · rfl

theorem exec_ptpMessageReceive (ha : s.alive = true) (hwf : Instr.wf (.ptpMessageReceive eport sub kind offset stepNs ratePpb) = true)
    (hu : s.subUp eport sub = true) : exec (.ptpMessageReceive eport sub kind offset stepNs ratePpb) s =
      .next (s.ptpReceive eport sub kind offset stepNs ratePpb) := by
  have he : (if !s.subUp eport sub then s else s.ptpReceive eport sub kind offset stepNs ratePpb) =
      s.ptpReceive eport sub kind offset stepNs ratePpb := if_neg (by rw [hu]; decide)
  change execPtpMessageReceive eport sub kind offset stepNs ratePpb s = _
  unfold execPtpMessageReceive
  exact run_next hwf ha he (State.ptpReceive_pending ..)

/-- Every message on a sub-port that is up counts as received. -/
theorem State.ptpReceive_received (s : State) (eport sub kind : Nat) (offset stepNs ratePpb : Int) :
    (s.ptpReceive eport sub kind offset stepNs ratePpb).reg (ethBase eport + 0x18) =
      min (s.reg (ethBase eport + 0x18) + 1) (2 ^ 64 - 1) := by
  have hb := s.bump_reg_same (ethBase eport + 0x18) (w := 64) 1 (Nat.le_refl _)
  have hne : ethBase eport + 0x18 ≠ 0x10014 := by have := ethBase_ge eport; omega
  unfold State.ptpReceive
  dsimp only
  split
  · split
    · exact hb
    · split
      · rw [State.delayReq_reg_other _ _ (by omega), State.servo_reg_other _ _ _ _ _ hne, hb]
      · rw [State.servo_reg_other _ _ _ _ _ hne, hb]
  · rw [State.bump_reg_other _ _ _ (by omega), hb]

/-- What a message that a slave uses leaves: HOLDOVER has ended, the rate and the step are applied, a Sync is counted, and a Follow_Up is
followed by a Delay_Req (R41). -/
theorem State.ptpReceive_used_effect (hp : s.ptpOn = true) (hport : s.field 0x10010 3 1 = eport) (hsub : sub = 0) (hk : ptpUsed kind = true)
    (hlo : -100000 ≤ ratePpb) (hhi : ratePpb ≤ 100000) : let u := s.ptpReceive eport sub kind offset stepNs ratePpb
    u.pace.holdover = false ∧ signed 32 (u.reg 0x10014) = ratePpb ∧ (0 ≤ stepNs → u.time = timeTop (s.time + stepNs.toNat)) ∧
      (kind = 0 → u.pace.syncs = if offset.natAbs ≤ 50 then min 16 (s.pace.syncs + 1) else 0) ∧
      u.out = if kind = 8 then s.out ++ [.frame eport 0 4 [1]] else s.out := by
  have hne : (0x10014 : Nat) ≠ ethBase eport + 0x10 := by have := ethBase_ge eport; omega
  have hpace : (s.ptpReceive eport sub kind offset stepNs ratePpb).pace =
      ((s.bump (ethBase eport + 0x18) 64 1).servo kind offset stepNs ratePpb).pace := by
    rw [State.ptpReceive_used hp hport hsub hk]; dsimp only; split
    · rw [State.delayReq_pace]
    · rfl
  have hrate : (s.ptpReceive eport sub kind offset stepNs ratePpb).reg 0x10014 =
      ((s.bump (ethBase eport + 0x18) 64 1).servo kind offset stepNs ratePpb).reg 0x10014 := by
    rw [State.ptpReceive_used hp hport hsub hk]; dsimp only; split
    · rw [State.delayReq_reg_other _ _ hne]
    · rfl
  refine ⟨?_, ?_, fun h => ?_, ?_, ?_⟩
  · rw [hpace, State.servo_holdover]
  · rw [hrate, State.servo_rate _ _ _ _ hlo hhi]
  · rw [State.time, hpace]
    exact State.servo_time _ _ _ _ h
  · rintro rfl
    rw [hpace, State.servo_syncs, State.bump_pace]
  · rw [State.ptpReceive_used hp hport hsub hk]; dsimp only; split
    · rw [State.delayReq_out, State.servo_out, State.bump_out]
    · rw [State.servo_out, State.bump_out]

end Sys2Proof.Machine
end

section
open Sys2Proof Sys2Proof.Machine

/-- Settles O35: the voltage by its bounds, steps and rates by what they are applied to, a PTP message by the case of R41 it falls in. -/
theorem voltageAndTime : Obligations.VoltageAndTime := by
  unfold Obligations.VoltageAndTime
  refine ⟨?_, ?_, ?_, ?_, ?_, ?_⟩
  · intro s die mv ha hwf hlead htest
    have hdie : die < 8 := by
      simp only [Instr.wf, Bool.and_eq_true, decide_eq_true_eq] at hwf
      exact hwf.1
    have hown := s.adjustVcore_diePace mv hdie
    refine ⟨_, exec_vcoreAdjust ha hwf hlead htest, by rw [hown], by rw [hown], s.nextVcore_near die mv,
      s.nextVcore_range die mv, s.adjustVcore_efficiency die mv, by rw [hown], s.adjustVcore_out mv hdie,
      fun d hd hne => s.adjustVcore_diePace_other mv hd hne⟩
  · intro s port value ha hwf ho hp
    have hv : value < 2 ^ 64 := by
      simp only [Instr.wf, Bool.and_eq_true, decide_eq_true_eq] at hwf
      exact hwf.2
    refine ⟨_, exec_paceTimeStepWrite ha hwf ho hp, fun hlt => ?_, fun hge => ?_⟩
    · rw [signed_of_lt (by omega)]
      exact State.stepTime_forward _ (by omega)
    · have hz : ((value : Int) - (2 ^ 64 : Nat)).natAbs = 2 ^ 64 - value := by omega
      rw [signed_of_ge (by omega) hv, ← hz]
      exact State.stepTime_backward _ (by omega)
  · intro s port value ha hwf ho hp hlo hhi
    have hlt : trunc 32 value < 2 ^ 64 := Nat.lt_trans (Nat.mod_lt _ (by decide)) (by decide)
    refine ⟨_, exec_paceTimeRateWrite ha hwf ho hp (by omega), ?_, fun k hk => State.setReg_reg_other _ _ hk⟩
    rw [State.setReg_reg_same, Nat.mod_eq_of_lt hlt]
    rfl
  · intro s ha hs
    exact ⟨_, exec_timeSlewComplete ha hs, rfl, rfl⟩
  · intro s eport sub kind offset stepNs ratePpb ha hwf hu
    refine ⟨_, exec_ptpMessageReceive ha hwf hu, s.ptpReceive_received eport sub kind offset stepNs ratePpb, State.ptpReceive_used_effect,
      fun hp hport hsub hk => (congrArg State.pace (State.ptpReceive_unused hp hport hsub hk)).trans (s.bump_pace ..), fun h => ?_⟩
    rw [State.ptpReceive_elsewhere h]
    refine ⟨rfl, (State.bump_reg_same _ _ 1 (Nat.le_refl _)).trans ?_⟩
    rw [State.bump_reg_other _ _ _ (by omega)]
  · intro s ha hp
    exact ⟨_, exec_ptpHoldoverTimeout ha hp, rfl, rfl⟩
end

section
/-!
What the judgement of one die's window may change (R34-R36), and what of it concerns the other dies: nothing that their judgement reads.
-/
namespace Sys2Proof.Machine

theorem bit_inside (s : State) {e : Nat} (he : e < 8) : bit s.inside e = bit (s.reg 0x10000) e := by
  rw [bit, bit, State.inside, State.field, bits, Nat.shiftRight_zero, Nat.testBit_mod_two_pow]
  simp [he]

/-- Die `e` is judged alike in `s` and `u`: its pace state, whether it holds the guarantee, its PACE registers and its thermal cap. -/
structure State.SameDie (e : Nat) (s u : State) : Prop where
  diePace : u.diePace e = s.diePace e
  inside : bit u.inside e = bit s.inside e
  regs : ∀ k, paceBase e ≤ k → k < paceBase e + 0x40 → u.reg k = s.reg k
  cap : nth u.memc.cap e none = nth s.memc.cap e none

theorem State.SameDie.refl (e : Nat) (s : State) : s.SameDie e s := ⟨rfl, rfl, fun _ _ _ => rfl, rfl⟩

theorem State.SameDie.trans {e : Nat} {s t u : State} (h : State.SameDie e s t) (h' : State.SameDie e t u) : State.SameDie e s u :=
  ⟨h'.diePace.trans h.diePace, h'.inside.trans h.inside, fun k hk hk' => (h'.regs k hk hk').trans (h.regs k hk hk'), h'.cap.trans h.cap⟩

/-- A die is judged by the registers, the caps and the dies' pace states alone. -/
theorem State.SameDie.of_eq {s u : State} (e : Nat) (hr : u.regs = s.regs) (hm : u.memc = s.memc) (hp : u.pace.dies = s.pace.dies) :
    State.SameDie e s u where
  diePace := by rw [State.diePace, State.diePace, hp]
  inside := by rw [State.inside, State.inside, State.field, State.field, State.reg_congr hr]
  regs k _ _ := State.reg_congr hr k
  cap := by rw [hm]

theorem State.SameDie.paceLimit {e : Nat} {s u : State} (h : State.SameDie e s u) : u.paceLimit e = s.paceLimit e := by
  rw [State.paceLimit, State.paceLimit, h.cap]

/-- What every part of a judgement leaves alone: TIME and all of the pace state that is not a die's own, memory, the tiles and the queue. -/
structure State.WindowFrame (s u : State) : Prop where
  pace : u.pace = { s.pace with dies := u.pace.dies }
  mem : u.mem = s.mem
  tiles : u.tiles = s.tiles
  pending : u.pending = s.pending

theorem State.WindowFrame.refl (s : State) : s.WindowFrame s := ⟨rfl, rfl, rfl, rfl⟩

theorem State.WindowFrame.trans {s t u : State} (h : s.WindowFrame t) (h' : t.WindowFrame u) : s.WindowFrame u :=
  ⟨h'.pace.trans (by rw [h.pace]), h'.mem.trans h.mem, h'.tiles.trans h.tiles, h'.pending.trans h.pending⟩

/-- `u` comes of `s` by changes that concern die `d` and no other. -/
structure State.Concerns (d : Nat) (s u : State) : Prop where
  frame : s.WindowFrame u
  same : ∀ e < 8, e ≠ d → State.SameDie e s u

theorem State.Concerns.refl (d : Nat) (s : State) : State.Concerns d s s := ⟨.refl s, fun e _ _ => .refl e s⟩

theorem State.Concerns.trans {d : Nat} {s t u : State} (h : State.Concerns d s t) (h' : State.Concerns d t u) : State.Concerns d s u :=
  ⟨h.frame.trans h'.frame, fun e he hne => (h.same e he hne).trans (h'.same e he hne)⟩

theorem State.Concerns.ite {d : Nat} {s a b : State} {c : Prop} [Decidable c] (ha : State.Concerns d s a) (hb : State.Concerns d s b) :
    State.Concerns d s (if c then a else b) := by
  split
  · exact ha
  · exact hb

/-- `u` comes of `s` by changes of die `d`'s status and thermal cap, of counters beyond PACE, and by reports: nothing that the verdict on a
window reads or leaves. -/
structure State.Aside (d : Nat) (s u : State) : Prop where
  reg : ∀ k < 0x30000, k ≠ paceBase d → k ≠ paceBase d + 4 → u.reg k = s.reg k
  cap : ∀ e, e ≠ d → nth u.memc.cap e none = nth s.memc.cap e none
  pace : u.pace = s.pace
  mem : u.mem = s.mem
  tiles : u.tiles = s.tiles
  pending : u.pending = s.pending

section
variable {d : Nat} {s t u : State}

theorem State.Aside.refl (d : Nat) (s : State) : State.Aside d s s := ⟨fun _ _ _ _ => rfl, fun _ _ => rfl, rfl, rfl, rfl, rfl⟩

theorem State.Aside.trans (h : State.Aside d s t) (h' : State.Aside d t u) : State.Aside d s u :=
  ⟨fun k hk hs ht => (h'.reg k hk hs ht).trans (h.reg k hk hs ht), fun e he => (h'.cap e he).trans (h.cap e he), h'.pace.trans h.pace,
    h'.mem.trans h.mem, h'.tiles.trans h.tiles, h'.pending.trans h.pending⟩

theorem State.Aside.ite {c : Prop} [Decidable c] (h : State.Aside d s t) : State.Aside d s (if c then t else s) := by
  split
  · exact h
  · exact .refl d s

theorem State.Aside.diePace (h : State.Aside d s u) (e : Nat) : u.diePace e = s.diePace e := by rw [State.diePace, State.diePace, h.pace]

theorem State.Aside.insideReg (h : State.Aside d s u) : u.reg 0x10000 = s.reg 0x10000 :=
  h.reg 0x10000 (by decide) (by unfold paceBase; omega) (by unfold paceBase; omega)

theorem State.Aside.inside (h : State.Aside d s u) : u.inside = s.inside := by
  rw [State.inside, State.inside, State.field, State.field, h.insideReg]

theorem State.Aside.concerns (h : State.Aside d s u) : State.Concerns d s u where
  same e he hne := by
    refine ⟨h.diePace e, by rw [h.inside], fun k hk hk' => h.reg k ?_ ?_ ?_, h.cap e hne⟩ <;> unfold paceBase at * <;> omega
  frame := ⟨by rw [h.pace], h.mem, h.tiles, h.pending⟩

end

/-! ## The operations of a judgement -/

section
variable (s : State) {d : Nat} {k : Nat}

/-- A register that is the die's own status, or lies beyond PACE. -/
theorem State.setReg_aside (v : Nat) (hk : k = paceBase d ∨ k = paceBase d + 4 ∨ 0x30000 ≤ k) : State.Aside d s (s.setReg k v) :=
  ⟨fun j hj h h' => s.setReg_reg_other v (by omega), fun _ _ => rfl, rfl, rfl, rfl, rfl⟩

theorem State.blot_aside (d : Nat) (b : Blot) (rs : List Nat) : State.Aside d s (s.blot b rs) :=
  ⟨fun _ hk _ _ => State.blot_reg_low hk s b rs, fun _ _ => by rw [State.blot_memc], s.blot_pace b rs, s.blot_mem b rs, s.blot_tiles b rs,
    s.blot_pending b rs⟩

theorem State.applyCap_aside (d meas : Nat) (tstack : Int) : State.Aside d s (s.applyCap d meas tstack) := by
  refine .trans ?_ (State.blot_aside _ d _ _)
  refine .trans ?_ (State.setReg_aside _ _ (.inl rfl))
  refine ⟨fun _ _ _ _ => rfl, fun e he => ?_, rfl, rfl, rfl, rfl⟩
  simp [nth, updAt, he.symm]

/-- A register of the die's own. -/
theorem State.setReg_concerns (v : Nat) (hk : paceBase d ≤ k) (hk' : k < paceBase d + 0x40) : State.Concerns d s (s.setReg k v) where
  same e he hne := by
    unfold paceBase at *
    refine ⟨rfl, ?_, fun j hj hj' => s.setReg_reg_other v (by unfold paceBase at *; omega), rfl⟩
    rw [bit_inside _ he, bit_inside _ he, s.setReg_reg_other v (by omega)]
  frame := ⟨rfl, rfl, rfl, rfl⟩

/-- The die's own bits of PACE_FLOOR_STATUS. -/
theorem State.setField_concerns (hd : d < 8) {i : Nat} (x : Nat) (hi : i = d ∨ i = 8 + d) : State.Concerns d s (s.setField 0x10000 i i x) where
  same e he hne := by
    refine ⟨rfl, ?_, fun j hj _ => s.setField_reg_other i i x (by unfold paceBase at hj; omega), rfl⟩
    rw [bit_inside _ he, bit_inside _ he, State.setField_bit_other _ _ _ (by omega) (by omega)]
  frame := ⟨rfl, rfl, rfl, rfl⟩

theorem State.updPace_concerns (f : DiePace → DiePace) : State.Concerns d s (s.updPace d f) :=
  ⟨⟨rfl, rfl, rfl, rfl⟩, fun _ he hne => ⟨State.updPace_diePace_other _ _ he hne, rfl, fun _ _ _ => rfl, rfl⟩⟩

end

end Sys2Proof.Machine
end

section
/-!
The judgement of one die in three parts: the window is measured, heat is noted, and the verdict falls (R27, R34-R36).
-/
namespace Sys2Proof.Machine

/-- The lowest count among those seen, of which there may be none yet. -/
def lowestWith (a : Option Nat) (x : Nat) : Option Nat := match a with | none => some x | some y => some (min x y)

/-- The slowest monitor of a die, whose count is its measured pace before the limiter (R27). -/
def slowestMonitor (m : DieMeas) : Nat := (m.mon.foldl lowestWith none).getD 0

/-- PACE_MEAS of a window (R27, R30). -/
def State.measOf (s : State) (d : Nat) (m : DieMeas) : Nat := min (slowestMonitor m) (s.paceLimit d) % 65536

/-- Die `d` was in efficiency mode at any time of the window. -/
def State.effOf (s : State) (d : Nat) : Bool := bit (s.reg (paceBase d)) 29 || (s.diePace d).eff

/-- The conditions of Table 2.2 that failed in the window. -/
def State.condsOf (s : State) (d : Nat) (m : DieMeas) : Nat := failedConds m (s.measOf d m) (s.effOf d)

/-- A die's pace state with its window measured. -/
def DiePace.measured (x : DiePace) (meas conds : Nat) (now : Bool) : DiePace :=
  { x with meas := meas, windows := x.windows + 1, good := if conds = 0 then min 100 (x.good + 1) else 0, base := x.vcore, eff := now }

/-- PACE_Dd_STAT and PACE_Dd_TEMP show the window (Tables 2.12 and 2.13). -/
def State.showWindow (s : State) (d : Nat) (m : DieMeas) : State :=
  (s.setReg (paceBase d) (b2n (nth s.memc.cap d none).isSome * 2 ^ 30 + b2n (bit (s.reg (paceBase d)) 29) * 2 ^ 29
    + b2n (decide (s.paceLimit d < slowestMonitor m)) * 2 ^ 28 + m.vcore % 4096 * 65536 + s.measOf d m)).setReg
    (paceBase d + 4) (ofInt 10 m.tstack * 65536 + ofInt 10 m.tjHi)

/-- The window measured: the die's status and temperatures, and its pace state. -/
def State.measure (s : State) (d : Nat) (m : DieMeas) : State :=
  (s.showWindow d m).updPace d (fun x => x.measured (s.measOf d m) (s.condsOf d m) (bit (s.reg (paceBase d)) 29))

/-- A thermal cap that fell due takes effect, and the time under a cap or a halt is counted (R294). -/
def State.noteHeat (s : State) (d dt meas : Nat) (tstack : Int) (capped : Bool) : State :=
  let s := if nth s.memc.capDue d false then s.applyCap d meas tstack else s
  let s := if capped then s.bump (eccBase d + 0x48) 64 dt else s
  if nth s.memc.halt d false then s.bump (eccBase d + 0x50) 64 dt else s

/-- The verdict on a window: the guarantee is lost, gained, or stays (R34, R36). -/
def State.verdict (s : State) (start d meas conds good : Nat) (m : DieMeas) : State :=
  if conds != 0 then (if bit s.inside d then s.loseGuarantee d conds start meas m else s)
  else if !(bit s.inside d) && good + 1 ≥ 100 then s.gainGuarantee d
  else s

theorem State.showWindow_diePace (s : State) (d : Nat) (m : DieMeas) (e : Nat) : (s.showWindow d m).diePace e = s.diePace e := by
  rw [State.showWindow, State.setReg_diePace, State.setReg_diePace]

theorem State.judgeDie_eq (s : State) (start d : Nat) (m : DieMeas) : s.judgeDie start d m =
    ((s.measure d m).noteHeat d (s.time - start) (s.measOf d m) m.tstack (nth s.memc.cap d none).isSome).verdict start d (s.measOf d m)
      (s.condsOf d m) (s.diePace d).good m := by
  rw [← s.showWindow_diePace d m d]
  rfl

/-! ## The measure -/

theorem foldl_lowestWith (l : List Nat) (a : Nat) : l.foldl lowestWith (some a) = some (l.foldl min a) := by
  induction l generalizing a with
  | nil => rfl
  | cons x l ih => rw [List.foldl_cons, List.foldl_cons, Nat.min_comm a x, ← ih, lowestWith]

/-- The lowest count is the slowest monitor's. -/
theorem slowestMonitor_eq {m : DieMeas} {raw : Nat} (hmem : raw ∈ m.mon) (hle : ∀ x ∈ m.mon, raw ≤ x) : slowestMonitor m = raw := by
  have hmin : m.mon.min? = some raw := List.min?_eq_some_iff.mpr ⟨hmem, hle⟩
  unfold slowestMonitor
  cases hmon : m.mon with
  | nil => rw [hmon] at hmem; exact absurd hmem List.not_mem_nil
  | cons x l =>
    rw [hmon, List.min?_cons', Option.some.injEq] at hmin
    rw [List.foldl_cons, lowestWith, foldl_lowestWith, hmin, Option.getD_some]

theorem State.paceLimit_le (s : State) (d : Nat) : s.paceLimit d ≤ 1900 := by
  have hc : paceCeiling ≤ 1900 := by unfold paceCeiling; split <;> decide
  unfold State.paceLimit
  split <;> omega

theorem State.measOf_eq (s : State) (d : Nat) {m : DieMeas} {raw : Nat} (hmem : raw ∈ m.mon) (hle : ∀ x ∈ m.mon, raw ≤ x) :
    s.measOf d m = min raw (s.paceLimit d) := by
  have := s.paceLimit_le d
  rw [State.measOf, slowestMonitor_eq hmem hle, Nat.mod_eq_of_lt (by omega)]

theorem State.noteHeat_aside (s : State) (d dt meas : Nat) (tstack : Int) (capped : Bool) :
    State.Aside d s (s.noteHeat d dt meas tstack capped) := by
  have hecc (t : State) (o : Nat) : State.Aside d t (t.bump (eccBase d + o) 64 dt) :=
    State.setReg_aside _ _ (.inr (.inr (by unfold eccBase; omega)))
  unfold State.noteHeat
  exact ((State.applyCap_aside s d meas tstack).ite.trans (hecc _ _).ite).trans (hecc _ _).ite

section
variable (s : State) {d : Nat} (m : DieMeas)

theorem State.measure_concerns : State.Concerns d s (s.measure d m) := by
  have hstat (t : State) (v : Nat) : State.Concerns d t (t.setReg (paceBase d) v) := t.setReg_concerns v (Nat.le_refl _) (by omega)
  have htemp (t : State) (v : Nat) : State.Concerns d t (t.setReg (paceBase d + 4) v) := t.setReg_concerns v (by omega) (by omega)
  exact ((hstat _ _).trans (htemp _ _)).trans (State.updPace_concerns _ _)

/-- The measure leaves the other registers of PACE alone. -/
theorem State.measure_reg_other {k : Nat} (h : k ≠ paceBase d) (h' : k ≠ paceBase d + 4) : (s.measure d m).reg k = s.reg k := by
  rw [State.measure, State.updPace_reg, State.showWindow, State.setReg_reg_other _ _ h', State.setReg_reg_other _ _ h]

variable (hd : d < 8)
include hd

theorem State.measure_diePace : (s.measure d m).diePace d =
    (s.diePace d).measured (s.measOf d m) (s.condsOf d m) (bit (s.reg (paceBase d)) 29) := by
  rw [State.measure, State.updPace_diePace_same _ _ hd, State.showWindow_diePace]

/-! ## The verdict -/

/-- A die that loses the guarantee: its interval begins, INSIDE falls, and the exit is counted (R34, R35). -/
theorem State.loseGuarantee_effect (conds start meas : Nat) : let u := s.loseGuarantee d conds start meas m
    State.Concerns d s u ∧ u.diePace d = { s.diePace d with lost := true, lostFrom := start } ∧ bit u.inside d = false ∧
      u.reg (paceBase d + 8) = min (s.reg (paceBase d + 8) + 1) (2 ^ 32 - 1) ∧ u.reg (paceBase d + 0x18) = start % 2 ^ 64 := by
  have hbase : paceBase d = 0x10100 + 0x40 * d := rfl
  unfold State.loseGuarantee
  refine ⟨?_, ?_, ?_, ?_, ?_⟩
  · refine .trans ?_ (State.blot_aside _ d _ _).concerns
    refine .trans ?_ (State.updPace_concerns _ _)
    refine .trans ?_ (State.setReg_concerns _ _ (by omega) (by omega))
    refine .trans ?_ (State.setReg_concerns _ _ (by omega) (by omega))
    exact (State.setField_concerns _ hd _ (.inl rfl)).trans (State.setField_concerns _ hd _ (.inr rfl))
  · rw [State.blot_diePace, State.updPace_diePace_same _ _ hd]
    rfl
  · rw [bit_inside _ hd, State.blot_reg_low (by decide), State.updPace_reg, State.setReg_reg_other _ _ (by omega),
      State.bump_reg_other _ _ _ (by omega), State.setField_bit_other _ _ _ (by omega) (by omega)]
    exact State.setField_bit_same s 0x10000 false (by omega)
  · rw [State.blot_reg_low (by omega), State.updPace_reg, State.setReg_reg_other _ _ (by omega), State.bump_reg_same _ _ _ (by decide),
      State.setField_reg_other _ _ _ _ (by omega), State.setField_reg_other _ _ _ _ (by omega)]
  · rw [State.blot_reg_low (by omega), State.updPace_reg, State.setReg_reg_same]

/-- A die that gains the guarantee (R36). -/
theorem State.gainGuarantee_effect : let u := s.gainGuarantee d
    State.Concerns d s u ∧ u.diePace d = { s.diePace d with ever := true, lost := false } ∧ bit u.inside d = true := by
  have hbase : paceBase d = 0x10100 + 0x40 * d := rfl
  have hset := (State.setField_concerns s hd 1 (.inl rfl)).trans
    (State.updPace_concerns _ (d := d) fun x : DiePace => { x with ever := true, lost := false })
  have hbit : bit ((s.setField 0x10000 d d 1).reg 0x10000) d = true := State.setField_bit_same s 0x10000 true (by omega)
  have hown : (s.gainGuarantee d).diePace d = { s.diePace d with ever := true, lost := false } := by
    unfold State.gainGuarantee
    dsimp only
    split
    · rw [State.blot_diePace, State.bump_diePace, State.updPace_diePace_same _ _ hd]
      rfl
    · rw [State.updPace_diePace_same _ _ hd]
      rfl
  refine ⟨?_, hown, ?_⟩
  · unfold State.gainGuarantee
    refine .ite ?_ hset
    exact (hset.trans (State.setReg_concerns _ _ (by omega) (by omega))).trans (State.blot_aside _ d _ _).concerns
  · rw [bit_inside _ hd, ← hbit]
    unfold State.gainGuarantee
    dsimp only
    split
    · rw [State.blot_reg_low (by decide), State.bump_reg_other _ _ _ (by omega), State.updPace_reg]
    · rw [State.updPace_reg]

/-- The verdict on a window of a die: by its guarantee so far and the conditions that failed. -/
theorem State.verdict_effect (start meas conds good : Nat) : let u := s.verdict start d meas conds good m
    State.Concerns d s u ∧ (∃ ever lost lostFrom, u.diePace d = { s.diePace d with ever := ever, lost := lost, lostFrom := lostFrom }) ∧
      bit u.inside d = (conds == 0 && (bit s.inside d || decide (100 ≤ good + 1))) ∧
      ((conds == 0) = false → bit s.inside d = true → u.reg (paceBase d + 8) = min (s.reg (paceBase d + 8) + 1) (2 ^ 32 - 1) ∧
        u.reg (paceBase d + 0x18) = start % 2 ^ 64 ∧ (u.diePace d).lost = true) := by
  obtain ⟨hlose, hdie, hin, hcnt, hstart⟩ := s.loseGuarantee_effect m hd conds start meas
  obtain ⟨hgain, hdie', hin'⟩ := s.gainGuarantee_effect hd
  have hstay : ∃ ever lost lostFrom, s.diePace d = { s.diePace d with ever := ever, lost := lost, lostFrom := lostFrom } := ⟨_, _, _, rfl⟩
  by_cases hc : conds = 0
  · cases hi : bit s.inside d with
    | true =>
      have he : s.verdict start d meas conds good m = s := by simp [State.verdict, hc, hi]
      rw [he]
      exact ⟨.refl d s, hstay, by simp [hc, hi], by simp [hc]⟩
    | false =>
      by_cases hg : 100 ≤ good + 1
      · have he : s.verdict start d meas conds good m = s.gainGuarantee d := by simp [State.verdict, hc, hi, hg]
        rw [he]
        exact ⟨hgain, ⟨_, _, _, hdie'⟩, by simp [hin', hc, hg], by simp [hc]⟩
      · have he : s.verdict start d meas conds good m = s := by simp [State.verdict, hc, hi, hg]
        rw [he]
        exact ⟨.refl d s, hstay, by simp [hi, hg], by simp [hc]⟩
  · cases hi : bit s.inside d with
    | true =>
      have he : s.verdict start d meas conds good m = s.loseGuarantee d conds start meas m := by simp [State.verdict, hc, hi]
      rw [he]
      exact ⟨hlose, ⟨_, _, _, hdie⟩, by simp [hin, hc], fun _ _ => ⟨hcnt, hstart, by rw [hdie]⟩⟩
    | false =>
      have he : s.verdict start d meas conds good m = s := by simp [State.verdict, hc, hi]
      rw [he]
      exact ⟨.refl d s, hstay, by simp [hi, hc], by simp⟩

end

/-! ## The whole judgement -/

/-- `u` shows the window that began at `start` judged for die `d`, as it stood in `s` (R27, R34-R36). -/
structure State.Judged (start d : Nat) (m : DieMeas) (s u : State) : Prop where
  meas : (u.diePace d).meas = s.measOf d m
  vcore : (u.diePace d).vcore = (s.diePace d).vcore
  base : (u.diePace d).base = (s.diePace d).vcore
  eff : (u.diePace d).eff = bit (s.reg (paceBase d)) 29
  good : (u.diePace d).good = if s.condsOf d m == 0 then min 100 ((s.diePace d).good + 1) else 0
  inside : bit u.inside d = (s.condsOf d m == 0 && (bit s.inside d || decide (100 ≤ (s.diePace d).good + 1)))
  exit : (s.condsOf d m == 0) = false → bit s.inside d = true → u.reg (paceBase d + 8) = min (s.reg (paceBase d + 8) + 1) (2 ^ 32 - 1) ∧
    u.reg (paceBase d + 0x18) = start % 2 ^ 64 ∧ (u.diePace d).lost = true

section
variable {start d : Nat} {m : DieMeas} {s t u : State}

/-- What leaves the die alone afterwards leaves its judgement. -/
theorem State.Judged.trans_same (h : State.Judged start d m s t) (h' : State.SameDie d t u) : State.Judged start d m s u := by
  obtain ⟨h1, h2, h3, h4, h5, h6, h7⟩ := h
  have hr := h'.regs
  refine ⟨?_, ?_, ?_, ?_, ?_, ?_, ?_⟩
  all_goals simpa only [h'.diePace, h'.inside, hr (paceBase d + 8) (by omega) (by omega), hr (paceBase d + 0x18) (by omega) (by omega)]

/-- What leaves the die alone before leaves what it is judged by. -/
theorem State.SameDie.trans_judged (h : State.SameDie d s t) (h' : State.Judged start d m t u) : State.Judged start d m s u := by
  have hr := h.regs
  have hm : t.measOf d m = s.measOf d m := by rw [State.measOf, State.measOf, h.paceLimit]
  have hc : t.condsOf d m = s.condsOf d m := by
    rw [State.condsOf, State.condsOf, hm, State.effOf, State.effOf, hr (paceBase d) (by omega) (by omega), h.diePace]
  obtain ⟨h1, h2, h3, h4, h5, h6, h7⟩ := h'
  rw [hm] at h1
  rw [h.diePace] at h2 h3 h5 h6
  rw [hr (paceBase d) (by omega) (by omega)] at h4
  rw [hc] at h5 h6 h7
  rw [h.inside] at h6 h7
  rw [hr (paceBase d + 8) (by omega) (by omega)] at h7
  exact ⟨h1, h2, h3, h4, h5, h6, h7⟩

/-- One die's window is judged, and no other die's (R34). -/
theorem State.judgeDie_judged (s : State) (start : Nat) (m : DieMeas) (hd : d < 8) :
    State.Concerns d s (s.judgeDie start d m) ∧ State.Judged start d m s (s.judgeDie start d m) := by
  have hreg {k : Nat} := s.measure_reg_other (d := d) m (k := k)
  rw [State.judgeDie_eq]
  generalize hh : (s.measure d m).noteHeat d (s.time - start) (s.measOf d m) m.tstack (nth s.memc.cap d none).isSome = t
  have hheat : State.Aside d (s.measure d m) t := hh ▸ State.noteHeat_aside ..
  have hown : t.diePace d = (s.diePace d).measured (s.measOf d m) (s.condsOf d m) (bit (s.reg (paceBase d)) 29) :=
    (hheat.diePace d).trans (s.measure_diePace m hd)
  have hin : bit t.inside d = bit s.inside d := by
    rw [hheat.inside, bit_inside _ hd, bit_inside _ hd, hreg (by unfold paceBase; omega) (by unfold paceBase; omega)]
  have hcnt : t.reg (paceBase d + 8) = s.reg (paceBase d + 8) := by
    rw [hheat.reg _ (by unfold paceBase; omega) (by omega) (by omega), hreg (by omega) (by omega)]
  obtain ⟨hcon, ⟨ever, lost, lostFrom, hdie⟩, hbit, hexit⟩ :=
    t.verdict_effect m hd start (s.measOf d m) (s.condsOf d m) (s.diePace d).good
  refine ⟨((s.measure_concerns m).trans hheat.concerns).trans hcon, ?_, ?_, ?_, ?_, ?_, ?_, ?_⟩
  · rw [hdie, hown]; rfl
  · rw [hdie, hown]; rfl
  · rw [hdie, hown]; rfl
  · rw [hdie, hown]; rfl
  · rw [hdie, hown]
    simp [DiePace.measured]
  · rw [hbit, hin]
  · rw [hin, hcnt] at hexit
    exact hexit

end

/-- The dies from `i` on judged one after another: each by the state before, and no die but these. -/
theorem State.judgeAll_judged (start : Nat) (l : List DieMeas) (i : Nat) (s : State) (hl : i + l.length ≤ 8) :
    let u := (l.zipIdx i).foldl (fun s m => s.judgeDie start m.2 m.1) s
    s.WindowFrame u ∧ (∀ e < i, State.SameDie e s u) ∧ ∀ d m, l[d]? = some m → State.Judged start (i + d) m s u := by
  induction l generalizing i s with
  | nil => exact ⟨.refl s, fun e _ => .refl e s, fun d m h => absurd h (by simp)⟩
  | cons m l ih =>
    rw [List.length_cons] at hl
    obtain ⟨hcon, hjudged⟩ := s.judgeDie_judged (d := i) start m (by omega)
    obtain ⟨hframe, hsame, hrest⟩ := ih (i + 1) (s.judgeDie start i m) (by omega)
    refine ⟨hcon.frame.trans hframe, fun e he => (hcon.same e (by omega) (by omega)).trans (hsame e (by omega)), fun d x hx => ?_⟩
    cases d with
    | zero =>
      obtain rfl : m = x := by simpa using hx
      exact hjudged.trans_same (hsame i (by omega))
    | succ d =>
      have hlt : d < l.length := by
        obtain ⟨h, -⟩ := List.getElem?_eq_some_iff.mp hx
        simpa using h
      have := hrest d x (by simpa using hx)
      rw [show i + 1 + d = i + (d + 1) by omega] at this
      exact (hcon.same (i + (d + 1)) (by omega) (by omega)).trans_judged this

end Sys2Proof.Machine
end

section
/-!
The end of a window: TIME advances, the dies are judged, and launches and HOT_N follow (R27, R34-R36, R40).
-/
namespace Sys2Proof.Machine

/-- TIME in 10⁻⁶ ns that a window adds: its 1,000 periods, the fraction left before, the rate, and what is slewed in (R40, R42). -/
def State.windowTotal (s : State) : Int := 1000 * 1000000 + s.pace.frac + signed 32 (s.reg 0x10014) - (min s.pace.slew 500000 : Nat)

theorem State.advanceTime_eq (s : State) : ∃ t f x, s.advanceTime = { s with pace := { s.pace with time := t, frac := f, slew := x } } ∧
    t = timeTop (s.time + (s.windowTotal / 1000000).toNat) ∧ f = s.windowTotal % 1000000 ∧ x = s.pace.slew - min s.pace.slew 500000 :=
  ⟨_, _, _, rfl, rfl, rfl, rfl⟩

/-- The flag for launches changes the scheduler's state alone (R35). -/
theorem State.markLost_eq (s : State) (mask : Nat) : ∃ x, s.markLost mask = { s with sched := x } := by
  unfold State.markLost
  refine List.foldlRecOn (motive := fun u : State => ∃ x, u = { s with sched := x }) _ _ ⟨s.sched, rfl⟩ fun u hu c _ => ?_
  obtain ⟨x, rfl⟩ := hu
  dsimp only
  split
  · exact ⟨_, rfl⟩
  · exact ⟨x, rfl⟩

/-- HOT_N changes the pins alone, and is emitted (Table 22.4). -/
theorem State.hotPin_eq (s : State) : ∃ p o, s.hotPin = { s with pins := p, out := o } := by
  unfold State.hotPin
  dsimp only
  split
  · exact ⟨s.pins, s.out, rfl⟩
  · exact ⟨_, _, rfl⟩

/-- All dies judged at the end of the window. -/
def State.judgeAll (s : State) (meas : List DieMeas) : State :=
  meas.zipIdx.foldl (fun u m => u.judgeDie s.pace.winStart m.2 m.1) s.advanceTime

/-- What the end of a window does. -/
def State.endWindow (s : State) (meas : List DieMeas) : State :=
  let u := ((s.judgeAll meas).markLost (255 - (s.inside &&& (s.judgeAll meas).inside))).hotPin
  { u with pace := { u.pace with winStart := u.pace.time, windows := u.pace.windows + 1 } }

/-- The end of the window adds to the dies' judgement what no later judgement reads. -/
theorem State.endWindow_eq (s : State) (meas : List DieMeas) : ∃ x p o, s.endWindow meas =
    { s.judgeAll meas with sched := x, pins := p, out := o, pace := { (s.judgeAll meas).pace with
      winStart := (s.judgeAll meas).pace.time, windows := (s.judgeAll meas).pace.windows + 1 } } := by
  obtain ⟨x, hx⟩ := (s.judgeAll meas).markLost_eq (255 - (s.inside &&& (s.judgeAll meas).inside))
  unfold State.endWindow
  rw [hx]
  obtain ⟨p, o, hp⟩ := State.hotPin_eq { s.judgeAll meas with sched := x }
  rw [hp]
  exact ⟨x, p, o, rfl⟩

section
variable {s : State} {meas : List DieMeas} (hlen : meas.length = 8)
include hlen

/-- Each die is judged as it stood before the window's end (R34). -/
theorem State.judgeAll_effect : s.advanceTime.WindowFrame (s.judgeAll meas) ∧
    ∀ d m, meas[d]? = some m → State.Judged s.pace.winStart d m s (s.judgeAll meas) := by
  obtain ⟨hframe, -, hall⟩ := State.judgeAll_judged s.pace.winStart meas 0 s.advanceTime (by omega)
  obtain ⟨t, f, x, ht, -⟩ := s.advanceTime_eq
  refine ⟨hframe, fun d m hm => ?_⟩
  have hsame : State.SameDie d s s.advanceTime := by rw [ht]; exact .of_eq d rfl rfl rfl
  have := hall d m hm
  rw [Nat.zero_add] at this
  exact hsame.trans_judged this

theorem State.endWindow_judged {d : Nat} {m : DieMeas} (hm : meas[d]? = some m) : State.Judged s.pace.winStart d m s (s.endWindow meas) := by
  obtain ⟨x, p, o, he⟩ := s.endWindow_eq meas
  refine ((State.judgeAll_effect hlen).2 d m hm).trans_same ?_
  rw [he]
  exact .of_eq d rfl rfl rfl

/-- TIME and the grid after the window's end, and what it leaves alone. -/
theorem State.endWindow_time : let u := s.endWindow meas
    u.time = timeTop (s.time + (s.windowTotal / 1000000).toNat) ∧ u.pace.frac = s.windowTotal % 1000000 ∧
      u.pace.slew = s.pace.slew - min s.pace.slew 500000 ∧ u.pace.winStart = u.time ∧ u.pace.windows = s.pace.windows + 1 ∧
      u.mem = s.mem ∧ u.tiles = s.tiles ∧ u.pending = s.pending := by
  obtain ⟨x, p, o, he⟩ := s.endWindow_eq meas
  obtain ⟨hpace, hmem, htiles, hpending⟩ := (State.judgeAll_effect (s := s) hlen).1
  obtain ⟨t, f, w, ht, htime, hfrac, hslew⟩ := s.advanceTime_eq
  rw [ht] at hpace hmem htiles hpending
  rw [he, ← htime, ← hfrac, ← hslew]
  refine ⟨?_, ?_, ?_, rfl, ?_, hmem, htiles, hpending⟩
  · exact congrArg PaceSt.time hpace
  · exact congrArg PaceSt.frac hpace
  · exact congrArg PaceSt.slew hpace
  · have hwin := congrArg PaceSt.windows hpace
    exact congrArg (· + 1) hwin

theorem exec_paceWindowEnd (ha : s.alive = true) (hwf : Instr.wf (.paceWindowEnd meas) = true) :
    exec (.paceWindowEnd meas) s = .next (s.endWindow meas) := by
  obtain ⟨-, -, -, -, -, -, -, hpending⟩ := State.endWindow_time (s := s) hlen
  change execPaceWindowEnd meas s = _
  unfold execPaceWindowEnd
  exact run_next hwf ha rfl hpending

end

end Sys2Proof.Machine
end

section
open Sys2Proof Sys2Proof.Machine

/-- Settles O34: the dies are judged one after another, and none of the judgements concerns another die. -/
theorem paceWindow : Obligations.PaceWindow := by
  unfold Obligations.PaceWindow
  intro s meas ha hwf
  have hlen : meas.length = 8 := by
    simp only [Instr.wf, Bool.and_eq_true, beq_iff_eq] at hwf
    exact hwf.1
  obtain ⟨htime, hfrac, hslew, hgrid, hwin, hmem, htiles, -⟩ := State.endWindow_time (s := s) hlen
  refine ⟨_, exec_paceWindowEnd hlen ha hwf, ⟨htime, hfrac, hslew⟩, hgrid, hwin, hmem, htiles, fun d _ m hm raw hraw hle => ?_⟩
  obtain ⟨hmeas, hvcore, hbase, heff, hgood, hin, hexit⟩ := State.endWindow_judged (s := s) hlen hm
  have hconds : s.condsOf d m = failedConds m (min raw (s.paceLimit d)) (bit (s.reg (paceBase d)) 29 || (s.diePace d).eff) := by
    rw [State.condsOf, State.measOf_eq s d hraw hle, State.effOf]
  rw [State.measOf_eq s d hraw hle] at hmeas
  rw [hconds] at hgood hin hexit
  exact ⟨hmeas, hvcore, hbase, heff, hgood, hin, hexit⟩
end
